-- ==== Sys2Proof/Syntax.lean ====
section
/-! DEFINITION. The instruction set as terms: operand layouts of R58-R68 and one constructor for
each row of the opcode table. Rows of queue instructions hold the fields of their encoding; rows that are
steps of the machine, the hub or the host hold what the step is about. -/

namespace Sys2Proof

/-- The six issue queues of a tile (R17), in the order of the queue nibbles of R41. -/
inductive Queue where
  | sq | ap | xu | ce | mx | net
  deriving DecidableEq, Repr, Inhabited

/-- The conditions of R67. -/
inductive Cond where
  | eq | ne | lt | le | gt | ge | ltz | lez | gtz | gez
  deriving DecidableEq, Repr, Inhabited

/-- What RDID names (R74, selectors 0-5). -/
inductive IdSel where
  | fx | fy | width | height | phase | package
  deriving DecidableEq, Repr, Inhabited

/-- What the receiving end of a Gifer Link made of a flit (R475). -/
inductive FlitOutcome where
  | clean | corrected | replayed | lost
  deriving DecidableEq, Repr, Inhabited

/-- The word PFX (R68): an absent field is a valid bit of 0. -/
structure Pfx where
  rm : Option (BitVec 3)
  sat : Option Bool
  ocl : Option (BitVec 4)
  ecl : Option (BitVec 2)
  wc : Bool
  deriving DecidableEq, Repr, Inhabited

/-- Format L3 (R58). -/
structure Long3 where
  ecl : BitVec 2
  sxa : Bool
  sxb : Bool
  wd : BitVec 4
  wa : BitVec 4
  wb : BitVec 4
  ds : BitVec 12
  as : BitVec 12
  bs : BitVec 12
  deriving DecidableEq, Repr, Inhabited

/-- Format LC as CMP and TST use it (R59). -/
structure LongCmp where
  ecl : BitVec 2
  sxa : Bool
  sxb : Bool
  wa : BitVec 4
  wb : BitVec 4
  pd : BitVec 4
  as : BitVec 12
  bs : BitVec 12
  deriving DecidableEq, Repr, Inhabited

/-- Format LC as SEL uses it (R59). -/
structure LongSel where
  ecl : BitVec 2
  sxa : Bool
  sxb : Bool
  p : BitVec 4
  wd : BitVec 4
  wa : BitVec 4
  wb : BitVec 4
  ds : BitVec 12
  as : BitVec 12
  bs : BitVec 12
  deriving DecidableEq, Repr, Inhabited

/-- Format LI (R60). -/
structure LongImm where
  ecl : BitVec 2
  z : Bool
  wd : BitVec 4
  ds : BitVec 12
  imm : BitVec 32
  deriving DecidableEq, Repr, Inhabited

/-- Format LV (R61); the starts count 4-slice units. -/
structure LongVec where
  ecl : BitVec 2
  ef : BitVec 4
  wd : BitVec 4
  wa : BitVec 4
  wb : BitVec 4
  x : BitVec 4
  ds : BitVec 10
  as : BitVec 10
  bs : BitVec 10
  deriving DecidableEq, Repr, Inhabited

/-- Format LM (R62). -/
structure LongMem where
  ecl : BitVec 2
  ocl : BitVec 4
  wv : BitVec 4
  x : BitVec 2
  hi : BitVec 8
  vs : BitVec 12
  bas : BitVec 12
  lo : BitVec 8
  deriving DecidableEq, Repr, Inhabited

/-- Format MA (R63). -/
structure Mat where
  ecl : BitVec 2
  acc : BitVec 2
  fa : BitVec 4
  fb : BitVec 4
  n : BitVec 8
  sp : BitVec 12
  wb : BitVec 10
  acc2 : BitVec 2
  deriving DecidableEq, Repr, Inhabited

/-- Format CX (R64). -/
structure CopyOp where
  ecl : BitVec 2
  ocl : BitVec 4
  f : Bool
  dsc : BitVec 12
  rmask : BitVec 16
  mod : BitVec 4
  deriving DecidableEq, Repr, Inhabited

/-- Format NX as SEND uses it (R65). -/
structure NetSend where
  ecl : BitVec 2
  ocl : BitVec 4
  wv : BitVec 4
  ch : BitVec 4
  dx : BitVec 8
  dy : BitVec 8
  vs : BitVec 12
  deriving DecidableEq, Repr, Inhabited

/-- Format NX as SENDI uses it (R65). -/
structure NetSendi where
  ecl : BitVec 2
  ocl : BitVec 4
  wv : BitVec 4
  ch : BitVec 4
  dx : BitVec 8
  dy : BitVec 8
  imm : BitVec 16
  deriving DecidableEq, Repr, Inhabited

/-- Format NX as RECV and RECVW use it (R65). -/
structure NetRecv where
  ecl : BitVec 2
  ocl : BitVec 4
  wv : BitVec 4
  ch : BitVec 4
  lat : BitVec 16
  vs : BitVec 12
  deriving DecidableEq, Repr, Inhabited

/-- One constructor for each row of the opcode table; the rule that governs the row stands first. -/
inductive Instr where
    /-- R123. A result from an agent outside the folio arrives and waits in the landing buffer, or is held
    back when the buffer is full. -/
  | externalResultArrival (id : Nat) (data : BitVec 512) (poison : BitVec 8)
    /-- R439. A host write of FACK answers a fault record, so that the hub walks again or ends the PROBE
    with result 1. -/
  | fack (func : Nat) (value : BitVec 64)
  /-- R160. The host raises LQTAIL to produce launch records in a queue. -/
  | lqtailWrite (q : Nat) (tail : BitVec 32)
    /-- R161. The physical function assigns a disabled queue to a function, and the queue's registers are
    zeroed. -/
  | lqownWrite (q : Nat) (func : BitVec 6)
    /-- R419. The physical function writes a channel lease entry, and a change of lessee starts the
    clearing of the channel. -/
  | leaseWrite (ch : Nat) (value : BitVec 64)
    /-- R426. A virtual-function reset stops and clears its folios, disables its queues, drops its leases
    and drains the hub units. -/
  | vfReset (func : Nat)
  /-- R438. A TLBINV write drops matching L2 TLB entries of the function before its next PROBE. -/
  | tlbinv (func : Nat) (value : BitVec 64)
  /-- R447. A KEYCTL write with armed = 1 arms a key rotation to version next. -/
  | keyRotationArm (func : Nat) (value : BitVec 64)
  /-- R481. Patrol scrub reads, checks and rewrites as needed one line between calendar slots. -/
  | scrubVisit (ch : Nat) (corrected : Bool)
  /-- R448. IDE keys are programmed over DOE with Signet as the responder, inside an authenticated session. -/
  | ideKmKeyProgram (stream : Nat) (authenticated : Bool)
  /-- R505. A host completion for a host-slot read arrives, and an error status lands poisoned. -/
  | hostCompletionArrival (id : Nat) (poison : BitVec 8) (error macFail : Bool)
  /-- R445. A host CXL.mem read of device memory decrypts the line under the lessee's key, or returns zero. -/
  | cxlMemRead (addr : BitVec 64)
    /-- R477. A host CXL.mem write encrypts and stores a line, and a partial write to a poisoned line is
    discarded. -/
  | cxlMemWrite (addr : BitVec 64) (enable : BitVec 64) (data : BitVec 512) (macFail : Bool)
  /-- R478. A write to ERRCHn clears both of its counters. -/
  | errchWrite (ch : Nat)
  /-- R478. A write to ERRLNKn clears both of its counters. -/
  | errlnkWrite (link : Nat)
  /-- R492. Writing TRTRIG bit 3 triggers trace capture at once. -/
  | traceTriggerNow (n : Nat)
  /-- R498. A 32-bit read of a profiling counter's low half latches its high half for the next read. -/
  | profcntLowRead (func n m : Nat)
    /-- R513. After power-good and PERST# release the hub loads firmware, trains HBM and links, reads the
    defect map and becomes ready. -/
  | bringUp (ok : Bool)
  /-- R511. A supply-droop sensor firing lowers the package clock within 20 ns in 112.5 MHz steps. -/
  | supplyDroop (steps : Nat)
    /-- R507. A Gifer Link flit leaves the delay line P cycles after sending, and is corrected, replayed
    or poisoned. -/
  | giferFlitReceive (link : Nat) (outcome : FlitOutcome) (id : Nat) (data : BitVec 512)
  /-- R6. A write to a host register with no behaviour of its own stores its non-reserved fields. -/
  | registerWrite (func offset : Nat) (value : Option (BitVec 64))
  /-- R229. Adds two window words. -/
  | add (d a b : BitVec 7)
  /-- R229. Subtracts two window words. -/
  | sub (d a b : BitVec 7)
  /-- R229. Multiplies two window words. -/
  | mul (d a b : BitVec 7)
  /-- R229. Gives the high half of a signed product. -/
  | mulh (d a b : BitVec 7)
  /-- R229. Gives the high half of an unsigned product. -/
  | mulhz (d a b : BitVec 7)
  /-- R230. Signed division, truncating toward zero. -/
  | div (d a b : BitVec 7)
  /-- R230. Unsigned division. -/
  | divz (d a b : BitVec 7)
  /-- R230. Signed remainder. -/
  | rem (d a b : BitVec 7)
  /-- R230. Unsigned remainder. -/
  | remz (d a b : BitVec 7)
  /-- R229. Signed minimum. -/
  | min (d a b : BitVec 7)
  /-- R229. Signed maximum. -/
  | max (d a b : BitVec 7)
  /-- R229. Unsigned minimum. -/
  | minz (d a b : BitVec 7)
  /-- R229. Unsigned maximum. -/
  | maxz (d a b : BitVec 7)
  /-- R231. Bitwise AND. -/
  | and (d a b : BitVec 7)
  /-- R231. Bitwise OR. -/
  | or (d a b : BitVec 7)
  /-- R231. Bitwise exclusive OR. -/
  | xor (d a b : BitVec 7)
  /-- R231. Computes A AND NOT B. -/
  | andn (d a b : BitVec 7)
  /-- R232. Shift left. -/
  | shl (d a b : BitVec 7)
  /-- R232. Logical shift right. -/
  | shr (d a b : BitVec 7)
  /-- R232. Arithmetic shift right. -/
  | sar (d a b : BitVec 7)
  /-- R232. Rotate left. -/
  | rotl (d a b : BitVec 7)
  /-- R229. Negation. -/
  | neg (d a : BitVec 7)
  /-- R229. Absolute value. -/
  | abs (d a : BitVec 7)
  /-- R231. Bitwise NOT. -/
  | not (d a : BitVec 7)
  /-- R233. Counts leading zero bits. -/
  | clz (d a : BitVec 7)
  /-- R233. Counts trailing zero bits. -/
  | ctz (d a : BitVec 7)
  /-- R233. Counts one bits. -/
  | popc (d a : BitVec 7)
  /-- R233. Reverses the bit order. -/
  | brev (d a : BitVec 7)
  /-- R237. Copies a source to the destination. -/
  | mov (d a : BitVec 7)
  /-- R245. Clamps a value to n bits, signed or unsigned. -/
  | satn (d a : BitVec 7) (z : Bool) (n : BitVec 5)
  /-- R250. Counter-based generator on 16-bit lanes. -/
  | crng16 (d a b : BitVec 7)
  /-- R250. Counter-based generator on 32-bit lanes. -/
  | crng32 (d a b : BitVec 7)
  /-- R235. Extracts a bit field under a control word. -/
  | ext (d a b : BitVec 7)
  /-- R236. Deposits a bit field into the destination. -/
  | dep (d a b : BitVec 7)
  /-- R229. Adds a sign-extended 11-bit immediate. -/
  | addi (d a : BitVec 7) (imm : BitVec 11)
  /-- R238. Writes a sign-extended 18-bit immediate. -/
  | movi (d : BitVec 7) (imm : BitVec 18)
  /-- R238. Writes an immediate into bits 31:14 and keeps bits 13:0. -/
  | movih (d : BitVec 7) (imm : BitVec 18)
  /-- R241. Compares two words and writes a predicate. -/
  | cmp (cond : Cond) (pd : BitVec 4) (a b : BitVec 7)
  /-- R241. Compares a word with a 10-bit immediate and writes a predicate. -/
  | cmpi (cond : Cond) (pd : BitVec 4) (a : BitVec 7) (imm : BitVec 10)
  /-- R241. Tests A AND B for nonzero or zero into a predicate. -/
  | tst (none : Bool) (pd : BitVec 4) (a b : BitVec 7)
  /-- R242. Selects a or b by a predicate. -/
  | sel (p : BitVec 4) (d a b : BitVec 7)
  /-- R243. Predicate AND. -/
  | pand (pd pa pb : BitVec 4)
  /-- R243. Predicate OR. -/
  | por (pd pa pb : BitVec 4)
  /-- R243. Predicate exclusive OR. -/
  | pxor (pd pa pb : BitVec 4)
  /-- R243. Predicate NOT. -/
  | pnot (pd pa : BitVec 4)
  /-- R243. Predicate move. -/
  | pmov (pd pa : BitVec 4)
  /-- R244. Packs p0–p15 into a window word. -/
  | ppack (d : BitVec 7)
  /-- R244. Writes all sixteen predicates from a window word. -/
  | punpack (d : BitVec 7)
  /-- R246. Sets the format tag of the granule that holds a window word. -/
  | tagset (d : BitVec 7) (tag : BitVec 5)
  /-- R247. Reads a granule's format tag into a window word. -/
  | tagget (d a : BitVec 7)
  /-- R229. Long-form add on slice spans. -/
  | addLong (o : Long3)
  /-- R229. Long-form subtract. -/
  | subLong (o : Long3)
  /-- R229. Long-form multiply. -/
  | mulLong (o : Long3)
  /-- R229. Long-form signed high product. -/
  | mulhLong (o : Long3)
  /-- R229. Long-form unsigned high product. -/
  | mulhzLong (o : Long3)
  /-- R230. Long-form signed divide. -/
  | divLong (o : Long3)
  /-- R230. Long-form unsigned divide. -/
  | divzLong (o : Long3)
  /-- R230. Long-form signed remainder. -/
  | remLong (o : Long3)
  /-- R230. Long-form unsigned remainder. -/
  | remzLong (o : Long3)
  /-- R229. Long-form signed minimum. -/
  | minLong (o : Long3)
  /-- R229. Long-form signed maximum. -/
  | maxLong (o : Long3)
  /-- R229. Long-form unsigned minimum. -/
  | minzLong (o : Long3)
  /-- R229. Long-form unsigned maximum. -/
  | maxzLong (o : Long3)
  /-- R231. Long-form AND. -/
  | andLong (o : Long3)
  /-- R231. Long-form OR. -/
  | orLong (o : Long3)
  /-- R231. Long-form exclusive OR. -/
  | xorLong (o : Long3)
  /-- R231. Long-form AND NOT. -/
  | andnLong (o : Long3)
  /-- R232. Long-form shift left. -/
  | shlLong (o : Long3)
  /-- R232. Long-form logical shift right. -/
  | shrLong (o : Long3)
  /-- R232. Long-form arithmetic shift right. -/
  | sarLong (o : Long3)
  /-- R232. Long-form rotate left. -/
  | rotlLong (o : Long3)
  /-- R229. Long-form negation. -/
  | negLong (o : Long3)
  /-- R229. Long-form absolute value. -/
  | absLong (o : Long3)
  /-- R231. Long-form NOT. -/
  | notLong (o : Long3)
  /-- R233. Long-form leading-zero count. -/
  | clzLong (o : Long3)
  /-- R233. Long-form trailing-zero count. -/
  | ctzLong (o : Long3)
  /-- R233. Long-form population count. -/
  | popcLong (o : Long3)
  /-- R233. Long-form bit reversal. -/
  | brevLong (o : Long3)
  /-- R237. Long-form move. -/
  | movLong (o : Long3)
  /-- R245. Long-form clamp to n bits. -/
  | satnLong (o : Long3)
  /-- R250. Long-form 16-bit-lane generator. -/
  | crng16Long (o : Long3)
  /-- R250. Long-form 32-bit-lane generator. -/
  | crng32Long (o : Long3)
  /-- R235. Long-form field extract. -/
  | extLong (o : Long3)
  /-- R236. Long-form field deposit. -/
  | depLong (o : Long3)
  /-- R239. Writes a 32-bit immediate extended to the destination width. -/
  | moviLong (o : LongImm)
  /-- R239. Writes an immediate into bits above 31 and keeps bits 31:0. -/
  | movihLong (o : LongImm)
  /-- R241. Long-form compare into a predicate. -/
  | cmpLong (cond : Cond) (o : LongCmp)
  /-- R241. Long-form test into a predicate. -/
  | tstLong (none : Bool) (o : LongCmp)
  /-- R242. Long-form select by predicate. -/
  | selLong (o : LongSel)
  /-- R151. Holds its queue until a token counter reaches n, then subtracts n. -/
  | waitt (t : BitVec 3) (n : BitVec 8)
  /-- R151. Adds n to a token counter, trapping on overflow. -/
  | sigt (t : BitVec 3) (n : BitVec 8)
    /-- R69. Supplies rounding, saturation, ordering, energy or width-check fields to the next instruction
    of its queue. -/
  | pfx (p : Pfx)
  /-- R143. Loads a target register with a line relative to its own and starts the target fetch. -/
  | pbr (b : BitVec 3) (disp : BitVec 13)
  /-- R143. Loads a target register from a window word. -/
  | pbrs (b : BitVec 3) (a : BitVec 7)
  /-- R144. Redirects to a target register when taken. -/
  | br (b : BitVec 3) (p : BitVec 4) (n u : Bool)
  /-- R145. Redirects to bn, sets b7 to the return line and slides WINB up. -/
  | call (b : BitVec 3) (slide : BitVec 6)
  /-- R145. Redirects to b7 and slides WINB down. -/
  | ret (slide : BitVec 6)
  /-- R146. Opens a hardware loop level with an immediate count. -/
  | loopImm (level : BitVec 2) (count : BitVec 12) (lines : BitVec 10)
  /-- R146. Opens a hardware loop level with a count read from a window word. -/
  | loopReg (level : BitVec 2) (a : BitVec 7) (lines : BitVec 10)
  /-- R147. Closes loop level l and its inner levels and redirects past the body when taken. -/
  | lbrk (level : BitVec 2) (p : BitVec 4) (n : Bool)
  /-- R149. Waits for the masked queues to drain, then redirects to a loaded overlay's entry line. -/
  | ovl (n : BitVec 8)
  /-- R152. Marks a pen-lift point with its live map, checking that the tile is idle. -/
  | penlift (map : BitVec 12)
  /-- R154. Delays the next SQ entry by a count of cycles. -/
  | waitc (delay : BitVec 24)
  /-- R154. Holds SQ until the cycle count reaches a 64-bit value. -/
  | waitcUntil (a : BitVec 7)
  /-- R155. Raises program trap cause 90 with an argument. -/
  | trap (arg : BitVec 16)
  /-- R156. Reads a logical identity value. -/
  | rdid (sel : IdSel) (d : BitVec 7)
  /-- R156. Reads the 64-bit issue cycle. -/
  | rdclk (d : BitVec 7)
  /-- R156. Reads a CSR into a window word pair. -/
  | csrrd (csr : BitVec 12) (d : BitVec 7)
  /-- R156. Writes a CSR with its side effects at k + 1. -/
  | csrwr (csr : BitVec 12) (a : BitVec 7)
  /-- R155. Raises breakpoint cause 91, or enters a debug stop when armed. -/
  | brk (code : BitVec 16)
  /-- R341. Loads 8 to 64 bits from own SPAD into a window word. -/
  | ld (size : BitVec 2) (z : Bool) (d base : BitVec 7) (disp : BitVec 8)
  /-- R341. Stores 8 to 64 bits of a window word to own SPAD. -/
  | st (size : BitVec 2) (d base : BitVec 7) (disp : BitVec 8)
    /-- R354. Orders the tile's accesses of the masked classes, holding later ones until earlier ones have
    performed. -/
  | fence (mask : BitVec 16)
  /-- R355. A fence that also waits until masked writes reach every reader of its scope. -/
  | sfence (scope : BitVec 2) (mask : BitVec 16)
  /-- R357. Freezes the folio to translate and pin a page into a window slot. -/
  | probe (slot : BitVec 5) (a d : BitVec 7)
  /-- R358. Waits for earlier CE commands to complete, then invalidates a window slot and releases its pin. -/
  | unpin (slot : BitVec 5)
  /-- R342. Loads a slice span from own SPAD. -/
  | ldLong (o : LongMem)
  /-- R342. Stores a slice span to own SPAD. -/
  | stLong (o : LongMem)
  /-- R345. Stores a span into a spill slot at SP + disp, checked against SPLIM. -/
  | spill (o : LongMem)
  /-- R344. Loads a span from a spill slot at SP + disp. -/
  | fill (o : LongMem)
  /-- R343. Loads a span at a base plus scaled index. -/
  | ldx (o : LongMem)
  /-- R343. Stores a span at a base plus scaled index. -/
  | stx (o : LongMem)
  /-- R347. Local atomic add. -/
  | atomAdd (o : LongMem)
  /-- R347. Local atomic signed minimum. -/
  | atomMin (o : LongMem)
  /-- R347. Local atomic signed maximum. -/
  | atomMax (o : LongMem)
  /-- R347. Local atomic AND. -/
  | atomAnd (o : LongMem)
  /-- R347. Local atomic OR. -/
  | atomOr (o : LongMem)
  /-- R347. Local atomic exclusive OR. -/
  | atomXor (o : LongMem)
  /-- R347. Local atomic exchange. -/
  | atomXchg (o : LongMem)
  /-- R347. Local atomic compare and swap. -/
  | atomCas (o : LongMem)
  /-- R347. Local atomic floating add. -/
  | atomFadd (o : LongMem)
  /-- R347. Local atomic unsigned minimum. -/
  | atomMinZ (o : LongMem)
  /-- R347. Local atomic unsigned maximum. -/
  | atomMaxZ (o : LongMem)
  /-- R350. Remote atomic add. -/
  | ratomAdd (o : LongMem)
  /-- R350. Remote atomic signed minimum. -/
  | ratomMin (o : LongMem)
  /-- R350. Remote atomic signed maximum. -/
  | ratomMax (o : LongMem)
  /-- R350. Remote atomic AND. -/
  | ratomAnd (o : LongMem)
  /-- R350. Remote atomic OR. -/
  | ratomOr (o : LongMem)
  /-- R350. Remote atomic exclusive OR. -/
  | ratomXor (o : LongMem)
  /-- R350. Remote atomic exchange. -/
  | ratomXchg (o : LongMem)
  /-- R350. Remote atomic compare and swap. -/
  | ratomCas (o : LongMem)
  /-- R350. Remote atomic floating add. -/
  | ratomFadd (o : LongMem)
  /-- R350. Remote atomic unsigned minimum. -/
  | ratomMinZ (o : LongMem)
  /-- R350. Remote atomic unsigned maximum. -/
  | ratomMaxZ (o : LongMem)
  /-- R353. Issues and sleeps the AP until its signal word meets a condition. -/
  | waita (cond : Cond) (o : LongMem)
  /-- R259. Floating lane-wise add. -/
  | vadd (o : LongVec)
  /-- R259. Floating lane-wise subtract. -/
  | vsub (o : LongVec)
  /-- R259. Floating lane-wise multiply. -/
  | vmul (o : LongVec)
  /-- R259. Fused multiply-add into d. -/
  | vfma (o : LongVec)
  /-- R259. Fused C - A×B into d. -/
  | vfms (o : LongVec)
  /-- R260. Exact lane negation. -/
  | vneg (o : LongVec)
  /-- R260. Exact lane absolute value. -/
  | vabs (o : LongVec)
  /-- R261. Lane-wise minimum. -/
  | vmin (o : LongVec)
  /-- R261. Lane-wise maximum. -/
  | vmax (o : LongVec)
  /-- R262. Lane-wise compare into all-ones or all-zeros masks. -/
  | vcmp (o : LongVec)
  /-- R263. Lane select by a mask read from d. -/
  | vsel (o : LongVec)
  /-- R266. Lane-wise format conversion. -/
  | vcvt (o : LongVec)
  /-- R265. Correctly rounded reciprocal. -/
  | vrcp (o : LongVec)
  /-- R265. Correctly rounded reciprocal square root. -/
  | vrsq (o : LongVec)
  /-- R265. Correctly rounded square root. -/
  | vsqrt (o : LongVec)
  /-- R265. Correctly rounded 2^A. -/
  | vexp2 (o : LongVec)
  /-- R265. Correctly rounded log2 A. -/
  | vlog2 (o : LongVec)
  /-- R264. Exact sum of lanes, rounded once. -/
  | vsum (o : LongVec)
  /-- R264. Largest source lane. -/
  | vmaxr (o : LongVec)
  /-- R264. Smallest source lane. -/
  | vminr (o : LongVec)
  /-- R264. Exact dot product plus C, rounded once. -/
  | vdot (o : LongVec)
  /-- R261. Clamps lanes between lo and hi. -/
  | vclamp (o : LongVec)
  /-- R259. Scales lanes by 2^k. -/
  | vscl (o : LongVec)
  /-- R267. Integer lane add. -/
  | viadd (o : LongVec)
  /-- R267. Integer lane subtract. -/
  | visub (o : LongVec)
  /-- R267. Integer lane multiply. -/
  | vimul (o : LongVec)
  /-- R267. Integer lane shift left. -/
  | vshl (o : LongVec)
  /-- R267. Integer lane shift right, logical or arithmetic. -/
  | vshr (o : LongVec)
  /-- R267. Lane-wise AND. -/
  | vand (o : LongVec)
  /-- R267. Lane-wise OR. -/
  | vor (o : LongVec)
  /-- R267. Lane-wise exclusive OR. -/
  | vxor (o : LongVec)
  /-- R268. Permutes lanes by byte indices. -/
  | vshuf (o : LongVec)
  /-- R268. Broadcasts lane 0. -/
  | vbcast (o : LongVec)
  /-- R268. Slides lanes across the concatenation of a and b. -/
  | vslide (o : LongVec)
  /-- R268. Interleaves lanes of a and b. -/
  | vzip (o : LongVec)
  /-- R268. De-interleaves even and odd lanes. -/
  | vunzip (o : LongVec)
  /-- R271. Updates the survey span with the row and column exponent maxima of a row segment. -/
  | dqntSurvey (o : LongVec)
  /-- R272. Builds a Ductus block header from the survey span. -/
  | dqntHead (o : LongVec)
  /-- R273. Quantises a row segment into Ductus payload elements. -/
  | dqntQ (o : LongVec)
  /-- R274. Decodes Ductus elements of a row into a plain format. -/
  | ddq (o : LongVec)
  /-- R275. Adjusts a Ductus header's scale. -/
  | dscale (o : LongVec)
  /-- R289. Multiplies A chunks from SPAD by B records from WBUF into an accumulator. -/
  | mma (o : Mat)
  /-- R298. Copies SPAD lines into WBUF with a form. -/
  | wld (o : Mat)
  /-- R299. Zeroes an accumulator. -/
  | accz (o : Mat)
  /-- R300. Converts an accumulator out to SPAD, plain or as Ductus blocks. -/
  | accrd (o : Mat)
  /-- R303. Converts SPAD elements into an accumulator. -/
  | accwr (o : Mat)
  /-- R304. Adds one accumulator into another. -/
  | accadd (o : Mat)
  /-- R304. Scales an accumulator by 2^x. -/
  | accsc (o : Mat)
  /-- R372. Copies bytes from own SPAD to a window. -/
  | cpy (o : CopyOp)
  /-- R372. Copies lines from virtual memory into own stores. -/
  | cpyh (o : CopyOp)
  /-- R372. Copies lines from own stores out to virtual memory. -/
  | cpyw (o : CopyOp)
  /-- R374. Copies Ductus blocks, writing their transposes. -/
  | cpyt (o : CopyOp)
  /-- R375. Gathers lines named by an index table into SPAD. -/
  | gath (o : CopyOp)
  /-- R375. Scatters SPAD lines to destinations named by an index table. -/
  | scat (o : CopyOp)
  /-- R376. Copies slices into a tile's slice file with a tag. -/
  | cpysf (o : CopyOp)
  /-- R379. Writes a signal word after earlier commands of its class or mask have completed. -/
  | sigw (o : CopyOp)
  /-- R377. Broadcasts bytes to a rectangle of tiles along the X-then-Y tree. -/
  | bcst (o : CopyOp)
  /-- R381. Reduces contributions of a group of tiles and packages, and lands the result at every member. -/
  | coll (o : CopyOp)
  /-- R383. Sends an Inkwell packet to the base-die Inkwell. -/
  | inkc (o : CopyOp)
  /-- R388. Waits until earlier INKC status words of its class have landed. -/
  | inkf (o : CopyOp)
  /-- R378. Loads an overlay from virtual memory into TIM and marks it loaded. -/
  | timld (o : CopyOp)
  /-- R390. Sends a span as a one-flit message. -/
  | send (o : NetSend)
  /-- R390. Sends a 16-bit immediate message. -/
  | sendi (o : NetSendi)
  /-- R391. Pops the next message of a channel, landing it at k + lat. -/
  | recv (o : NetRecv)
  /-- R391. Waits for a message on a channel, then pops it. -/
  | recvw (o : NetRecv)
  /-- R392. Arrives at a barrier and holds later NET entries until it completes. -/
  | bar (n : BitVec 5)
  /-- R392. Arrives at a barrier and holds nothing. -/
  | bara (n : BitVec 5)
  /-- R392. Waits for completion of the tile's latest arrival on a barrier. -/
  | barw (n : BitVec 5)
    /-- R25. A privileged write through the on-chip map stores into a tile's store, or is discarded with
    an unbacked-access error record for a hole or defective tile. -/
  | privilegedOnChipMapWrite (addr : BitVec 48) (size : Nat) (value : BitVec 64)
    /-- R129. A stack whose temperature demands more refresh than its reserve allows makes the hub lower
    the package clock until the reserve suffices. -/
  | stackTemperatureRefreshDemand (stack : Nat) (demand : Bool)
    /-- R474. A parity error in queues, scoreboard, CSRs or fetch buffers raises fatal cause 85 at the end
    of a cycle. -/
  | controlStateParityError (n fx fy : Nat)
  /-- R508. A Gifer Link loses its peer or its signal and its GLSTAT state goes to down. -/
  | giferLinkDown (link : Nat)
    /-- R43. The FU dispatches the oldest buffered fetch line whole to the issue queues its nibbles name,
    or stalls when a queue lacks room. -/
  | lineDispatch
    /-- R50. After a redirect, the FU reads lane 1 of the sequential line to complete a 64-bit instruction
    that precedes the redirect. -/
  | crossingWordCompletion
    /-- R138. A fetch started by a load of a target register fills that register's target buffer with the
    target line and the line after it. -/
  | targetBufferFill
    /-- R86. A pending slice, predicate or tag write lands at its named landing cycle and updates the
    format tags under R96. -/
  | sliceWriteLanding
  /-- R199. At each multiple of a class's window length, its event count and fired bit are reset to zero. -/
  | nevWindowStart
  /-- R154. The delay of a WAITC with m = 0 expires, and the next SQ entry may issue. -/
  | waitcDelayExpiry
    /-- R289. A later chunk of an MMA starts once T cycles have passed and its energy debit fits, and it
    reads its A chunk and B record. -/
  | mmaChunkStart
  /-- R289. At L the MMA's accumulated result lands in the accumulator or pair, and its events are counted. -/
  | mmaLanding
    /-- R362. The CE request stage sends one line request of a command per cycle and binds HBM and host
    requests to calendar slots. -/
  | ceLineRequest
  /-- R321. An HBM line access performs at the start of the calendar slot it uses. -/
  | hbmSlotAccess
  /-- R130. A host-memory line request travels in a host slot granted to the tile. -/
  | hostSlotAccess
  /-- R364. A line of a CE command lands at its named cycle, and the command completes at its last line. -/
  | lineLanding
    /-- R121. Before cycle c the folio freezes when an outside result due at c has not arrived, until it
    arrives. -/
  | lateLandingFreeze
  /-- R128. A posted HBM or host write completes at slot start plus 240 or HLAT. -/
  | postedWriteCompletion
  /-- R370. After a command completes, its completion signal word lands at e + 1 + h on the signal lane. -/
  | completionSignalWrite
    /-- R132. Router outputs are granted to competing flits in the fixed abstract priority order, and the
    flits move one hop. -/
  | flitHop
  /-- R391. A message flit is queued on its channel FIFO at the receiving tile. -/
  | messageArrival
    /-- R350. A remote-atomic request ejected at the home is performed by the bank unit, and its reply is
    injected. -/
  | ratomHomePerform
  /-- R350. A remote-atomic reply lands its old value at k + RALAT.lat, or raises cause 63 if late. -/
  | ratomReplyLanding
  /-- R392. A barrier completes at every tile at max(a + D, p + 1), and its BARPH bit flips. -/
  | barrierCompletion
  /-- R382. The reduced collective result lands at each member at k + lat. -/
  | collResultLanding
  /-- R384. The Inkwell writes alpha to every element of A. -/
  | inkwellFill
  /-- R384. The Inkwell copies B into A bit for bit. -/
  | inkwellCopy
  /-- R384. The Inkwell sets A to alpha*B + beta*A, rounded once. -/
  | inkwellAxpby
  /-- R384. The Inkwell sets A to A - alpha(B + beta*A), rounded once. -/
  | inkwellSgdwf
  /-- R384. The Inkwell updates the momentum M and then A using the rounded M. -/
  | inkwellMomwf
  /-- R384. The Inkwell requantises plain source lines into Ductus blocks written in writer order. -/
  | inkwellRqnt
  /-- R384. The Inkwell writes the SHAKE256 digest of n lines' plaintext to one line at B. -/
  | inkwellDigest
    /-- R386. The Inkwell status word lands in the issuing tile's SPAD after every write of the command
    has completed. -/
  | inkwellStatusLanding
  /-- R353. A sleeping WAITA wakes in the first cycle in which its signal word satisfies the condition. -/
  | waitaWake
    /-- R142. A tile becomes halted once every entry before HALT has issued and every awaited result has
    landed. -/
  | tileHalted
    /-- R170. When every tile has halted and every write and Inkwell command has completed, the folio is
    cleared, released and completed. -/
  | folioCommit
    /-- R173. The Folio Manager saves an evicted folio to its save region, clears and releases its tiles
    and slots, and writes status 4. -/
  | folioEviction
  /-- R152. When 2^22 cycles pass without a pen-lift point, cause 62 is posted to the host. -/
  | penliftOverdue
    /-- R170. When the launch record's timeout expires, the folio is frozen, cause 94 is posted as fatal,
    and it completes with status 3. -/
  | launchTimeout
    /-- R465. The trapping tile shadows its queues and buffers, sets WINB to hwinb, and starts its handler
    at TVEC.line on its own clock. -/
  | localHandlerEntry
    /-- R471. Trapping tiles post event records, and the folio is ended at once or when a pre-empt record
    arrives under hold. -/
  | trapPostToHost
    /-- R357. During the PROBE freeze the hub resolves the page through the TLB and page tables, and then
    pins it or reports no mapping. -/
  | probeResolve
    /-- R168. A granted launch record is checked and its image loaded, then placed and started at cycle 0,
    or it waits or is rejected. -/
  | launchRecord
    /-- R171. A pre-empt record sets a stop pending on every running folio of its job and function, or
    completes with status 7. -/
  | preemptRecord
  /-- R175. A resume record unfreezes a folio held in place, or places and restores an evicted folio. -/
  | resumeRecord
    /-- R414. Tiles whose clearing has finished are released, and waiting launch records and pending
    retirements are retried. -/
  | tileRelease
    /-- R421. The hub sweeps pending-clear lines of a channel to zero outside the calendar slots, and clr
    falls at the end. -/
  | channelClearSweep
  /-- R429. Service op 1 retires a free tile at once, or retires a held tile when its folio releases it. -/
  | retireTile
  /-- R429. Service op 2 restores a retired tile, and is refused for a tile in the defect map. -/
  | restoreTile
  /-- R429. Service op 3 retires an unleased channel and stops its calendar, refresh and scrub. -/
  | retireChannel
    /-- R429. Service op 4 retrains a link to its fixed latency once no running folio's job holds it, or
    retires it. -/
  | retrainGiferLink
  /-- R429. Service op 5 retires a link once no running folio's job holds it. -/
  | retireGiferLink
    /-- R447. When every rotation pass has ended, cur becomes next, armed and busy clear, and the other
    slots are erased. -/
  | keyRotationComplete
  /-- R442. A MIGDST write with go = 1 starts, or refuses, the migration of a page. -/
  | migratePage
    /-- R442. The copier moves one page line re-encrypted, and after the last line it rewrites the leaf
    and drops TLB entries. -/
  | migrationLineCopy
  /-- R452. Signet op 1 writes signed evidence with the nonce, layout generation and measurements. -/
  | signetEvidence
  /-- R452. Signet op 2 installs an imported key pair in a slot if the layout generation still matches. -/
  | signetImportKey
  /-- R452. Signet op 3 fills a key slot with keys it generates itself. -/
  | signetGenerateKey
  /-- R451. Signet op 4 returns the certificate chain to the buffer. -/
  | signetReadCertChain
  /-- R479. A new wall-time warning window starts the per-window corrected-error count afresh. -/
  | warningWindowStart
    /-- R484. CKCMD op 1 starts a checkpoint of the job, setting stops pending and holding its launch
    records. -/
  | ckptStart
  /-- R482. CKCMD op 2 arms a checkpoint to start on a warning. -/
  | ckptArm
  /-- R482. CKCMD op 3 disarms the checkpoint. -/
  | ckptDisarm
  /-- R486. CKCMD op 4 aborts the checkpoint with state 5. -/
  | ckptAbort
    /-- R484. When every folio of the job is frozen, the folios are saved, copy-before-write is armed, and
    the folios resume. -/
  | ckptSnapshot
    /-- R484. The copier moves one shard line and digests it, and after the last line the signed manifest
    is written. -/
  | ckptCopyLine
  /-- R489. DBGCMD op 1 freezes the folio at the next cycle boundary and dumps in-flight items. -/
  | debugStop
  /-- R490. DBGCMD op 2 lands the dumped items at their cycles and runs the folio from the stop cycle + 1. -/
  | debugResume
  /-- R489. DBGCMD op 3 arranges a stop after cycle DBGCYC, or is refused for a past cycle. -/
  | debugStopAtCycle
  /-- R489. The folio reaches DBGCYC and enters a debug stop. -/
  | debugCycleReached
  /-- R488. DBGCMD op 4 arms BRK to enter a debug stop. -/
  | armBrk
  /-- R488. DBGCMD op 5 disarms BRK debug stops. -/
  | disarmBrk
  /-- R493. After post entries following the trigger, capture stops and a kind 9 record is written. -/
  | traceCaptureEnd
  /-- R496. SNAPGO op 1 latches folio n's snapshot registers at the end of its current cycle. -/
  | snapshotFolio
  /-- R496. SNAPGO op 2 latches every block of the package on one wall-time edge. -/
  | snapshotPackage
    /-- R515. FWCMD op 1 copies a firmware image and has Signet verify it against signature and rollback
    counter. -/
  | fwStage
    /-- R515. FWCMD op 2 switches to the staged firmware as one step, remeasures it and raises the
    rollback counter. -/
  | fwActivate
  /-- R511. After the condition has ended, the clock rises one step per microsecond. -/
  | clockStepUp
  /-- R142. Performs nothing. -/
  | nop
  /-- R142. Cancels later entries and stops fetch so that the tile halts. -/
  | halt
  /-- R150. Stops dispatch until it issues, then refetches so that later lines reflect TIM writes. -/
  | ifence
  /-- R467. Ends a local handler, restores the shadow state and resumes the folio at TCYC + 1. -/
  | tret
    /-- R513. Loss of power-good or assertion of PERST# puts the device into DEVSTATE reset, from which
    only bring-up leads out. -/
  | perstAssertion
  deriving DecidableEq, Repr

end Sys2Proof
end

