-- ==== Sys2Proof/WellFormed.lean ====
section
/-! DEFINITION. Which terms of the instruction set are well formed: the field values that each entry's rules
allow, with the cause code (4 unassigned function, 5 reserved or illegal field, R52) that an encoding of any other
value raises when it would issue. -/

namespace Sys2Proof

/-- Bits of a width code (R53). -/
def widthBits (c : BitVec 4) : Nat :=
  match c.toNat with
  | 0 => 4 | 1 => 8 | 2 => 12 | 3 => 16 | 4 => 24 | 5 => 32 | 6 => 48 | 7 => 64
  | 8 => 96 | 9 => 128 | 10 => 192 | 11 => 256 | 12 => 384 | 13 => 512 | 14 => 768 | _ => 1024

/-- Bits of an element of a format code (R178); code 0 is INT32 (R251). -/
def elemBits (f : Nat) : Nat :=
  match f with
  | 1 => 64 | 2 => 32 | 3 => 16 | 4 => 16 | 5 => 8 | 6 => 8 | 7 => 6 | 8 => 6 | 9 => 4
  | 10 => 16 | 11 => 8 | 12 => 4 | 13 => 8 | 14 => 6 | 15 => 4 | _ => 32

/-- The set F of R257: FP64, FP32, BF16, FP16. -/
def inF (f : Nat) : Bool := 1 ≤ f && f ≤ 4

/-- The set I of R257: INT32, INT16, INT8, INT4. -/
def inI (f : Nat) : Bool := f == 0 || (10 ≤ f && f ≤ 12)

/-- The set N of R257: F, the narrow floats and Serif. -/
def inN (f : Nat) : Bool := 1 ≤ f && f ≤ 15 && !inI f

/-- The set B of R202: the element formats of Ductus blocks. -/
def inB (f : Nat) : Bool := (5 ≤ f && f ≤ 9) || (11 ≤ f && f ≤ 15)

/-- The cause of a field that must hold: none when it does, 5 otherwise (R52). -/
def need (b : Bool) : Option Nat := if b then none else some 5

/-- The cause of a function or condition that must be assigned: none when it is, 4 otherwise (R52). -/
def needFn (b : Bool) : Option Nat := if b then none else some 4

/-- The lower of two causes (R461). -/
def lower (a b : Option Nat) : Option Nat :=
  match a, b with
  | none, y => y
  | x, none => x
  | some x, some y => some (min x y)

namespace Long3

/-- Width of d in bits (R53). -/
def dBits (o : Long3) : Nat := widthBits o.wd
/-- Width of a in bits (R53). -/
def aBits (o : Long3) : Nat := widthBits o.wa
/-- Width of b in bits (R53). -/
def bBits (o : Long3) : Nat := widthBits o.wb

/-- A unary form has wb, bs and sx bit 16 zero (R58). -/
def unary (o : Long3) : Bool := o.wb == 0 && o.bs == 0 && !o.sxb

/-- Operation width wd at most a limit (R223). -/
def atMost (o : Long3) (n : Nat) : Bool := decide (o.dBits ≤ n)

/-- CRNG: one code for all three spans, whole lanes, sx zero (R250). -/
def crng (o : Long3) (lane : Nat) : Bool :=
  o.wd == o.wa && o.wa == o.wb && o.dBits % lane == 0 && !o.sxa && !o.sxb

/-- SATN: z and n in bs, the rest zero, n at most W (R245). -/
def satn (o : Long3) : Bool :=
  o.atMost 64 && o.wb == 0 && !o.sxb && decide (o.bs.toNat < 128) && decide (o.bs.toNat % 64 + 1 ≤ o.dBits)

end Long3

/-- The span widths of the vector forms (R61). -/
def LongVec.dBits (o : LongVec) : Nat := widthBits o.wd
def LongVec.aBits (o : LongVec) : Nat := widthBits o.wa
def LongVec.bBits (o : LongVec) : Nat := widthBits o.wb
/-- ef as a number (R61). -/
def LongVec.fmt (o : LongVec) : Nat := o.ef.toNat
/-- x as a number (R61). -/
def LongVec.xn (o : LongVec) : Nat := o.x.toNat
/-- Element width of ef (R251). -/
def LongVec.w (o : LongVec) : Nat := elemBits o.ef.toNat
/-- wb and bs are zero (R257). -/
def LongVec.noB (o : LongVec) : Bool := o.wb == 0 && o.bs == 0
/-- d is a whole number of lanes (R251). -/
def LongVec.lanes (o : LongVec) : Bool := o.dBits % o.w == 0
/-- All three spans of one width (R257). -/
def LongVec.same (o : LongVec) : Bool := o.wd == o.wa && o.wa == o.wb
/-- x is unused (R252). -/
def LongVec.noX (o : LongVec) : Bool := o.x == 0
/-- The source format of VSUM and VDOT: 0 means ef (R257). -/
def LongVec.srcFmt (o : LongVec) : Nat := if o.x == 0 then o.ef.toNat else o.x.toNat
/-- The source format of DQNT (R271). -/
def LongVec.dqSrc (o : LongVec) : Nat := o.x.toNat / 4 + 1

/-- W is the larger of wa and wb, at most 128 bits (R223). -/
def LongCmp.fits (o : LongCmp) : Bool := decide (widthBits o.wa ≤ 128 ∧ widthBits o.wb ≤ 128)

/-- Width code of a data span that is whole bytes (R342). -/
def LongMem.wholeBytes (o : LongMem) : Bool := o.wv != 0 && o.wv != 2

/-- The cause code that the fields of an instruction raise by themselves: none for a well-formed one. -/
def Instr.cause : Instr → Option Nat
  | .externalResultArrival _ _ _ => none
  | .fack func _ => need (decide (func < 64))
  | .lqtailWrite q _ => need (decide (q < 16384))
  | .lqownWrite q _ => need (decide (q < 16384))
  | .leaseWrite ch _ => need (decide (ch < 256))
  | .vfReset func => need (decide (0 < func) && decide (func < 64))
  | .tlbinv func _ => need (decide (func < 64))
  | .keyRotationArm func _ => need (decide (func < 64))
  | .scrubVisit ch _ => need (decide (ch < 256))
  | .ideKmKeyProgram stream _ => need (decide (stream < 65))
  | .hostCompletionArrival _ _ _ _ => none
  | .cxlMemRead _ => none
  | .cxlMemWrite _ _ _ _ => none
  | .errchWrite ch => need (decide (ch < 256))
  | .errlnkWrite link => need (decide (link < 18))
  | .traceTriggerNow n => need (decide (n < 2304))
  | .profcntLowRead func n m => need (decide (func < 64) && decide (n < 2304) && decide (m < 8))
  | .bringUp _ => none
  | .supplyDroop _ => none
  | .giferFlitReceive link _ _ _ => need (decide (link < 18))
  | .registerWrite func _ _ => need (decide (func < 64))
  | .add _ _ _ => none
  | .sub _ _ _ => none
  | .mul _ _ _ => none
  | .mulh _ _ _ => none
  | .mulhz _ _ _ => none
  | .div _ _ _ => none
  | .divz _ _ _ => none
  | .rem _ _ _ => none
  | .remz _ _ _ => none
  | .min _ _ _ => none
  | .max _ _ _ => none
  | .minz _ _ _ => none
  | .maxz _ _ _ => none
  | .and _ _ _ => none
  | .or _ _ _ => none
  | .xor _ _ _ => none
  | .andn _ _ _ => none
  | .shl _ _ _ => none
  | .shr _ _ _ => none
  | .sar _ _ _ => none
  | .rotl _ _ _ => none
  | .neg _ _ => none
  | .abs _ _ => none
  | .not _ _ => none
  | .clz _ _ => none
  | .ctz _ _ => none
  | .popc _ _ => none
  | .brev _ _ => none
  | .mov _ _ => none
  | .satn _ _ _ _ => none
  | .crng16 _ _ _ => none
  | .crng32 _ _ _ => none
  | .ext _ _ _ => none
  | .dep _ _ _ => none
  | .addi _ _ _ => none
  | .movi _ _ => none
  | .movih _ _ => none
  | .cmp _ _ _ _ => none
  | .cmpi _ _ _ _ => none
  | .tst _ _ _ _ => none
  | .sel _ _ _ _ => none
  | .pand _ _ _ => none
  | .por _ _ _ => none
  | .pxor _ _ _ => none
  | .pnot _ _ => none
  | .pmov _ _ => none
  | .ppack _ => none
  | .punpack _ => none
  | .tagset _ _ => none
  | .tagget _ _ => none
  | .addLong o => need (o.atMost 128)
  | .subLong o => need (o.atMost 128)
  | .mulLong o => need (o.atMost 64)
  | .mulhLong o => need (o.atMost 64)
  | .mulhzLong o => need (o.atMost 64)
  | .divLong o => need (o.atMost 64)
  | .divzLong o => need (o.atMost 64)
  | .remLong o => need (o.atMost 64)
  | .remzLong o => need (o.atMost 64)
  | .minLong o => need (o.atMost 128)
  | .maxLong o => need (o.atMost 128)
  | .minzLong o => need (o.atMost 128)
  | .maxzLong o => need (o.atMost 128)
  | .andLong _ => none
  | .orLong _ => none
  | .xorLong _ => none
  | .andnLong _ => none
  | .shlLong o => need (o.atMost 128 && !o.sxb)
  | .shrLong o => need (o.atMost 128 && !o.sxb)
  | .sarLong o => need (o.atMost 128 && !o.sxb)
  | .rotlLong o => need (o.atMost 128 && !o.sxb)
  | .negLong o => need (o.unary && o.atMost 128)
  | .absLong o => need (o.unary && o.atMost 128)
  | .notLong o => need o.unary
  | .clzLong o => need (o.unary && decide (o.aBits ≤ 128))
  | .ctzLong o => need (o.unary && decide (o.aBits ≤ 128))
  | .popcLong o => need (o.unary && decide (o.aBits ≤ 128))
  | .brevLong o => need (o.unary && decide (o.aBits ≤ 128))
  | .movLong o => need o.unary
  | .satnLong o => need o.satn
  | .crng16Long o => need (o.crng 16)
  | .crng32Long o => need (o.crng 32)
  | .extLong o => need (o.wb == 5 && !o.sxb)
  | .depLong o => need (o.wb == 5 && !o.sxb)
  | .moviLong _ => none
  | .movihLong o => need (decide (32 < widthBits o.wd))
  | .cmpLong _ o => need o.fits
  | .tstLong _ o => need o.fits
  | .selLong _ => none
  | .waitt _ _ => none
  | .sigt _ _ => none
  | .pfx _ => none
  | .pbr _ _ => none
  | .pbrs _ _ => none
  | .br _ p n u => need (!u || (p == 0 && !n))
  | .call _ _ => none
  | .ret _ => none
  | .loopImm _ _ lines => need (lines != 0)
  | .loopReg _ _ lines => need (lines != 0)
  | .lbrk _ _ _ => none
  | .ovl _ => none
  | .penlift _ => none
  | .waitc _ => none
  | .waitcUntil a => need (a != 127)
  | .trap _ => none
  | .rdid _ _ => none
  | .rdclk d => need (d != 127)
  | .csrrd _ d => need (d != 127)
  | .csrwr _ a => need (a != 127)
  | .brk _ => none
  | .ld size z d _ _ => need (size != 3 || (d != 127 && !z))
  | .st size d _ _ => need (size != 3 || d != 127)
  | .fence _ => none
  | .sfence _ _ => none
  | .probe _ a _ => need (a != 127)
  | .unpin _ => none
  | .ldLong o => need (o.wholeBytes && decide (o.x.toNat < 2) && (o.x == 0 || decide (widthBits o.wv < 32)))
  | .stLong o => need (o.wholeBytes && o.x == 0)
  | .spill o => need (o.x == 0 && o.bas == 0)
  | .fill o => need (o.x == 0 && o.bas == 0)
  | .ldx o => need (o.wholeBytes && decide (o.hi.toNat < 16))
  | .stx o => need (o.wholeBytes && decide (o.hi.toNat < 16))
  | .atomAdd o => need ((o.wv == 5 || o.wv == 7) && o.x == 0)
  | .atomMin o => need ((o.wv == 5 || o.wv == 7) && o.x == 0)
  | .atomMax o => need ((o.wv == 5 || o.wv == 7) && o.x == 0)
  | .atomAnd o => need ((o.wv == 5 || o.wv == 7) && o.x == 0)
  | .atomOr o => need ((o.wv == 5 || o.wv == 7) && o.x == 0)
  | .atomXor o => need ((o.wv == 5 || o.wv == 7) && o.x == 0)
  | .atomXchg o => need ((o.wv == 5 || o.wv == 7) && o.x == 0)
  | .atomCas o => need ((o.wv == 5 || o.wv == 7) && o.x == 0)
  | .atomFadd o => need ((o.wv == 5 || o.wv == 7) && o.x == 0)
  | .atomMinZ o => need ((o.wv == 5 || o.wv == 7) && o.x == 0)
  | .atomMaxZ o => need ((o.wv == 5 || o.wv == 7) && o.x == 0)
  | .ratomAdd o => need ((o.wv == 5 || o.wv == 7) && o.x == 0)
  | .ratomMin o => need ((o.wv == 5 || o.wv == 7) && o.x == 0)
  | .ratomMax o => need ((o.wv == 5 || o.wv == 7) && o.x == 0)
  | .ratomAnd o => need ((o.wv == 5 || o.wv == 7) && o.x == 0)
  | .ratomOr o => need ((o.wv == 5 || o.wv == 7) && o.x == 0)
  | .ratomXor o => need ((o.wv == 5 || o.wv == 7) && o.x == 0)
  | .ratomXchg o => need ((o.wv == 5 || o.wv == 7) && o.x == 0)
  | .ratomCas o => need ((o.wv == 5 || o.wv == 7) && o.x == 0)
  | .ratomFadd o => need ((o.wv == 5 || o.wv == 7) && o.x == 0)
  | .ratomMinZ o => need ((o.wv == 5 || o.wv == 7) && o.x == 0)
  | .ratomMaxZ o => need ((o.wv == 5 || o.wv == 7) && o.x == 0)
  | .waita _ o => need (o.wv == 7 && o.x == 0)
  | .vadd o => need (inF o.fmt && o.noX && o.same && o.lanes)
  | .vsub o => need (inF o.fmt && o.noX && o.same && o.lanes)
  | .vmul o => need (inF o.fmt && o.noX && o.same && o.lanes)
  | .vfma o => need (inF o.fmt && o.noX && o.same && o.lanes)
  | .vfms o => need (inF o.fmt && o.noX && o.same && o.lanes)
  | .vneg o => need (inN o.fmt && o.noX && o.wd == o.wa && o.noB && o.lanes)
  | .vabs o => need (inN o.fmt && o.noX && o.wd == o.wa && o.noB && o.lanes)
  | .vmin o => need (inN o.fmt && o.noX && o.same && o.lanes)
  | .vmax o => need (inN o.fmt && o.noX && o.same && o.lanes)
  | .vcmp o => lower (needFn (decide (o.xn < (if inI o.fmt then 10 else 6)))) (need (o.same && o.lanes))
  | .vsel o => need (o.noX && o.same && o.lanes)
  | .vcvt o => need (o.lanes && o.aBits % elemBits o.xn == 0 && o.dBits / o.w == o.aBits / elemBits o.xn && o.noB)
  | .vrcp o => need (inF o.fmt && o.noX && o.wd == o.wa && o.noB && o.lanes)
  | .vrsq o => need (inF o.fmt && o.noX && o.wd == o.wa && o.noB && o.lanes)
  | .vsqrt o => need (inF o.fmt && o.noX && o.wd == o.wa && o.noB && o.lanes)
  | .vexp2 o => need (inF o.fmt && o.noX && o.wd == o.wa && o.noB && o.lanes)
  | .vlog2 o => need (inF o.fmt && o.noX && o.wd == o.wa && o.noB && o.lanes)
  | .vsum o => need (inF o.fmt && inN o.srcFmt && o.dBits == o.w && o.aBits % elemBits o.srcFmt == 0 && o.noB)
  | .vmaxr o => need (inN o.fmt && o.noX && o.dBits == o.w && o.aBits % o.w == 0 && o.noB)
  | .vminr o => need (inN o.fmt && o.noX && o.dBits == o.w && o.aBits % o.w == 0 && o.noB)
  | .vdot o => need (inF o.fmt && inN o.srcFmt && o.dBits == o.w && o.wa == o.wb && o.aBits % elemBits o.srcFmt == 0)
  | .vclamp o => need (inN o.fmt && o.noX && o.wd == o.wa && o.bBits == 2 * o.w && o.lanes)
  | .vscl o => need (inF o.fmt && o.noX && o.wd == o.wa && o.wb == 5 && o.lanes)
  | .viadd o => need (inI o.fmt && decide (o.xn < 2) && o.same && o.lanes)
  | .visub o => need (inI o.fmt && decide (o.xn < 2) && o.same && o.lanes)
  | .vimul o => need (inI o.fmt && decide (o.xn < 2) && o.same && o.lanes)
  | .vshl o => need (inI o.fmt && o.noX && o.same && o.lanes)
  | .vshr o => need (inI o.fmt && decide (o.xn < 2) && o.same && o.lanes)
  | .vand o => need (inI o.fmt && o.noX && o.same && o.lanes)
  | .vor o => need (inI o.fmt && o.noX && o.same && o.lanes)
  | .vxor o => need (inI o.fmt && o.noX && o.same && o.lanes)
  | .vshuf o => need (o.noX && o.lanes && o.bBits == 8 * (o.dBits / o.w) && o.aBits % o.w == 0)
  | .vbcast o => need (o.noX && o.lanes && o.aBits == o.w && o.noB)
  | .vslide o => need (o.same && o.lanes)
  | .vzip o => need (o.noX && o.lanes && o.wa == o.wb && o.dBits == 2 * o.aBits && (o.dBits / o.w) % 2 == 0)
  | .vunzip o => need (o.noX && o.lanes && o.wa == o.wd && (o.dBits / o.w) % 2 == 0 && o.noB)
  | .dqntSurvey o => need (inB o.fmt && o.x.toNat % 4 == 0 && o.wd == 15 && o.wb == 5 && o.aBits % elemBits o.dqSrc == 0)
  | .dqntHead o => need (inB o.fmt && o.x == 1 && o.wd == 10 && o.wa == 15 && o.noB)
  | .dqntQ o => need (inB o.fmt && o.x.toNat % 4 == 2 && o.wb == 11 && o.lanes && o.aBits % elemBits o.dqSrc == 0
      && o.dBits / o.w == o.aBits / elemBits o.dqSrc)
  | .ddq o => need (inF o.fmt && o.noX && o.wb == 11 && o.lanes)
  | .dscale o => need (o.fmt == 0 && o.noX && o.wd == 10 && o.wa == 10 && o.wb == 5)
  | .mma o => need (o.n != 0 && o.acc2 == 0 && o.fa != 0 && o.fb != 0)
  | .wld o => lower (needFn (decide (o.fb.toNat < 3))) (need (o.n != 0 && o.acc == 0 && o.fa == 0 && o.acc2 == 0))
  | .accz o => need (o.fa == 0 && o.fb == 0 && o.n == 0 && o.sp == 0 && o.wb == 0 && o.acc2 == 0)
  | .accrd o => need (o.fb == 0 && o.n == 0 && o.wb == 0 && o.acc2 == 0)
  | .accwr o => need (o.fb == 0 && o.n == 0 && o.wb == 0 && o.acc2 == 0)
  | .accadd o => need (o.fa == 0 && o.fb == 0 && o.n == 0 && o.sp == 0 && o.wb == 0)
  | .accsc o => need (o.fa == 0 && o.fb == 0 && o.sp == 0 && o.wb == 0 && o.acc2 == 0)
  | .cpy o => need (o.dsc.toNat % 16 == 0 && decide (o.mod.toNat < 2))
  | .cpyh o => need (o.dsc.toNat % 16 == 0 && decide (o.mod.toNat < 2))
  | .cpyw o => need (o.dsc.toNat % 16 == 0 && decide (o.mod.toNat < 2))
  | .cpyt o => need (o.dsc.toNat % 16 == 0 && decide (o.mod.toNat < 2))
  | .gath o => need (o.dsc.toNat % 16 == 0 && decide (o.mod.toNat < 2))
  | .scat o => need (o.dsc.toNat % 16 == 0 && decide (o.mod.toNat < 2))
  | .cpysf o => need (o.dsc.toNat % 16 == 0 && o.mod == 0)
  | .sigw o => need (o.dsc.toNat % 16 == 0 && o.mod == 0 && !o.f)
  | .bcst o => need (o.dsc.toNat % 16 == 0 && o.mod == 0)
  | .coll o => need (o.dsc.toNat % 16 == 0 && o.mod == 0 && !o.f)
  | .inkc o => need (o.dsc.toNat % 16 == 0 && o.mod == 0 && !o.f)
  | .inkf o => need (o.dsc == 0 && o.mod == 0 && !o.f)
  | .timld o => need (o.dsc.toNat % 16 == 0 && o.mod == 0 && !o.f)
  | .send o => need (decide (o.wv.toNat ≤ 13))
  | .sendi o => need (o.wv == 3)
  | .recv o => need (decide (o.wv.toNat ≤ 13) && o.lat != 0)
  | .recvw o => need (decide (o.wv.toNat ≤ 13) && o.lat != 0)
  | .bar _ => none
  | .bara _ => none
  | .barw _ => none
  | .privilegedOnChipMapWrite _ size _ => need (size == 1 || size == 2 || size == 4 || size == 8)
  | .stackTemperatureRefreshDemand stack _ => need (decide (stack < 8))
  | .controlStateParityError n _ _ => need (decide (n < 2304))
  | .giferLinkDown link => need (decide (link < 18))
  | .lineDispatch => none
  | .crossingWordCompletion => none
  | .targetBufferFill => none
  | .sliceWriteLanding => none
  | .nevWindowStart => none
  | .waitcDelayExpiry => none
  | .mmaChunkStart => none
  | .mmaLanding => none
  | .ceLineRequest => none
  | .hbmSlotAccess => none
  | .hostSlotAccess => none
  | .lineLanding => none
  | .lateLandingFreeze => none
  | .postedWriteCompletion => none
  | .completionSignalWrite => none
  | .flitHop => none
  | .messageArrival => none
  | .ratomHomePerform => none
  | .ratomReplyLanding => none
  | .barrierCompletion => none
  | .collResultLanding => none
  | .inkwellFill => none
  | .inkwellCopy => none
  | .inkwellAxpby => none
  | .inkwellSgdwf => none
  | .inkwellMomwf => none
  | .inkwellRqnt => none
  | .inkwellDigest => none
  | .inkwellStatusLanding => none
  | .waitaWake => none
  | .tileHalted => none
  | .folioCommit => none
  | .folioEviction => none
  | .penliftOverdue => none
  | .launchTimeout => none
  | .localHandlerEntry => none
  | .trapPostToHost => none
  | .probeResolve => none
  | .launchRecord => none
  | .preemptRecord => none
  | .resumeRecord => none
  | .tileRelease => none
  | .channelClearSweep => none
  | .retireTile => none
  | .restoreTile => none
  | .retireChannel => none
  | .retrainGiferLink => none
  | .retireGiferLink => none
  | .keyRotationComplete => none
  | .migratePage => none
  | .migrationLineCopy => none
  | .signetEvidence => none
  | .signetImportKey => none
  | .signetGenerateKey => none
  | .signetReadCertChain => none
  | .warningWindowStart => none
  | .ckptStart => none
  | .ckptArm => none
  | .ckptDisarm => none
  | .ckptAbort => none
  | .ckptSnapshot => none
  | .ckptCopyLine => none
  | .debugStop => none
  | .debugResume => none
  | .debugStopAtCycle => none
  | .debugCycleReached => none
  | .armBrk => none
  | .disarmBrk => none
  | .traceCaptureEnd => none
  | .snapshotFolio => none
  | .snapshotPackage => none
  | .fwStage => none
  | .fwActivate => none
  | .clockStepUp => none
  | .nop => none
  | .halt => none
  | .ifence => none
  | .tret => none
  | .perstAssertion => none

/-- Well formed: the encoding raises no cause of R52 by itself. -/
def Instr.wf (i : Instr) : Bool := i.cause.isNone

/-- Whether a row of the table is an instruction of a queue, with words of its own. -/
def Instr.isQueue : Instr → Bool
  | .externalResultArrival _ _ _ => false
  | .fack _ _ => false
  | .lqtailWrite _ _ => false
  | .lqownWrite _ _ => false
  | .leaseWrite _ _ => false
  | .vfReset _ => false
  | .tlbinv _ _ => false
  | .keyRotationArm _ _ => false
  | .scrubVisit _ _ => false
  | .ideKmKeyProgram _ _ => false
  | .hostCompletionArrival _ _ _ _ => false
  | .cxlMemRead _ => false
  | .cxlMemWrite _ _ _ _ => false
  | .errchWrite _ => false
  | .errlnkWrite _ => false
  | .traceTriggerNow _ => false
  | .profcntLowRead _ _ _ => false
  | .bringUp _ => false
  | .supplyDroop _ => false
  | .giferFlitReceive _ _ _ _ => false
  | .registerWrite _ _ _ => false
  | .add _ _ _ => true
  | .sub _ _ _ => true
  | .mul _ _ _ => true
  | .mulh _ _ _ => true
  | .mulhz _ _ _ => true
  | .div _ _ _ => true
  | .divz _ _ _ => true
  | .rem _ _ _ => true
  | .remz _ _ _ => true
  | .min _ _ _ => true
  | .max _ _ _ => true
  | .minz _ _ _ => true
  | .maxz _ _ _ => true
  | .and _ _ _ => true
  | .or _ _ _ => true
  | .xor _ _ _ => true
  | .andn _ _ _ => true
  | .shl _ _ _ => true
  | .shr _ _ _ => true
  | .sar _ _ _ => true
  | .rotl _ _ _ => true
  | .neg _ _ => true
  | .abs _ _ => true
  | .not _ _ => true
  | .clz _ _ => true
  | .ctz _ _ => true
  | .popc _ _ => true
  | .brev _ _ => true
  | .mov _ _ => true
  | .satn _ _ _ _ => true
  | .crng16 _ _ _ => true
  | .crng32 _ _ _ => true
  | .ext _ _ _ => true
  | .dep _ _ _ => true
  | .addi _ _ _ => true
  | .movi _ _ => true
  | .movih _ _ => true
  | .cmp _ _ _ _ => true
  | .cmpi _ _ _ _ => true
  | .tst _ _ _ _ => true
  | .sel _ _ _ _ => true
  | .pand _ _ _ => true
  | .por _ _ _ => true
  | .pxor _ _ _ => true
  | .pnot _ _ => true
  | .pmov _ _ => true
  | .ppack _ => true
  | .punpack _ => true
  | .tagset _ _ => true
  | .tagget _ _ => true
  | .addLong _ => true
  | .subLong _ => true
  | .mulLong _ => true
  | .mulhLong _ => true
  | .mulhzLong _ => true
  | .divLong _ => true
  | .divzLong _ => true
  | .remLong _ => true
  | .remzLong _ => true
  | .minLong _ => true
  | .maxLong _ => true
  | .minzLong _ => true
  | .maxzLong _ => true
  | .andLong _ => true
  | .orLong _ => true
  | .xorLong _ => true
  | .andnLong _ => true
  | .shlLong _ => true
  | .shrLong _ => true
  | .sarLong _ => true
  | .rotlLong _ => true
  | .negLong _ => true
  | .absLong _ => true
  | .notLong _ => true
  | .clzLong _ => true
  | .ctzLong _ => true
  | .popcLong _ => true
  | .brevLong _ => true
  | .movLong _ => true
  | .satnLong _ => true
  | .crng16Long _ => true
  | .crng32Long _ => true
  | .extLong _ => true
  | .depLong _ => true
  | .moviLong _ => true
  | .movihLong _ => true
  | .cmpLong _ _ => true
  | .tstLong _ _ => true
  | .selLong _ => true
  | .waitt _ _ => true
  | .sigt _ _ => true
  | .pfx _ => true
  | .pbr _ _ => true
  | .pbrs _ _ => true
  | .br _ _ _ _ => true
  | .call _ _ => true
  | .ret _ => true
  | .loopImm _ _ _ => true
  | .loopReg _ _ _ => true
  | .lbrk _ _ _ => true
  | .ovl _ => true
  | .penlift _ => true
  | .waitc _ => true
  | .waitcUntil _ => true
  | .trap _ => true
  | .rdid _ _ => true
  | .rdclk _ => true
  | .csrrd _ _ => true
  | .csrwr _ _ => true
  | .brk _ => true
  | .ld _ _ _ _ _ => true
  | .st _ _ _ _ => true
  | .fence _ => true
  | .sfence _ _ => true
  | .probe _ _ _ => true
  | .unpin _ => true
  | .ldLong _ => true
  | .stLong _ => true
  | .spill _ => true
  | .fill _ => true
  | .ldx _ => true
  | .stx _ => true
  | .atomAdd _ => true
  | .atomMin _ => true
  | .atomMax _ => true
  | .atomAnd _ => true
  | .atomOr _ => true
  | .atomXor _ => true
  | .atomXchg _ => true
  | .atomCas _ => true
  | .atomFadd _ => true
  | .atomMinZ _ => true
  | .atomMaxZ _ => true
  | .ratomAdd _ => true
  | .ratomMin _ => true
  | .ratomMax _ => true
  | .ratomAnd _ => true
  | .ratomOr _ => true
  | .ratomXor _ => true
  | .ratomXchg _ => true
  | .ratomCas _ => true
  | .ratomFadd _ => true
  | .ratomMinZ _ => true
  | .ratomMaxZ _ => true
  | .waita _ _ => true
  | .vadd _ => true
  | .vsub _ => true
  | .vmul _ => true
  | .vfma _ => true
  | .vfms _ => true
  | .vneg _ => true
  | .vabs _ => true
  | .vmin _ => true
  | .vmax _ => true
  | .vcmp _ => true
  | .vsel _ => true
  | .vcvt _ => true
  | .vrcp _ => true
  | .vrsq _ => true
  | .vsqrt _ => true
  | .vexp2 _ => true
  | .vlog2 _ => true
  | .vsum _ => true
  | .vmaxr _ => true
  | .vminr _ => true
  | .vdot _ => true
  | .vclamp _ => true
  | .vscl _ => true
  | .viadd _ => true
  | .visub _ => true
  | .vimul _ => true
  | .vshl _ => true
  | .vshr _ => true
  | .vand _ => true
  | .vor _ => true
  | .vxor _ => true
  | .vshuf _ => true
  | .vbcast _ => true
  | .vslide _ => true
  | .vzip _ => true
  | .vunzip _ => true
  | .dqntSurvey _ => true
  | .dqntHead _ => true
  | .dqntQ _ => true
  | .ddq _ => true
  | .dscale _ => true
  | .mma _ => true
  | .wld _ => true
  | .accz _ => true
  | .accrd _ => true
  | .accwr _ => true
  | .accadd _ => true
  | .accsc _ => true
  | .cpy _ => true
  | .cpyh _ => true
  | .cpyw _ => true
  | .cpyt _ => true
  | .gath _ => true
  | .scat _ => true
  | .cpysf _ => true
  | .sigw _ => true
  | .bcst _ => true
  | .coll _ => true
  | .inkc _ => true
  | .inkf _ => true
  | .timld _ => true
  | .send _ => true
  | .sendi _ => true
  | .recv _ => true
  | .recvw _ => true
  | .bar _ => true
  | .bara _ => true
  | .barw _ => true
  | .privilegedOnChipMapWrite _ _ _ => false
  | .stackTemperatureRefreshDemand _ _ => false
  | .controlStateParityError _ _ _ => false
  | .giferLinkDown _ => false
  | .lineDispatch => false
  | .crossingWordCompletion => false
  | .targetBufferFill => false
  | .sliceWriteLanding => false
  | .nevWindowStart => false
  | .waitcDelayExpiry => false
  | .mmaChunkStart => false
  | .mmaLanding => false
  | .ceLineRequest => false
  | .hbmSlotAccess => false
  | .hostSlotAccess => false
  | .lineLanding => false
  | .lateLandingFreeze => false
  | .postedWriteCompletion => false
  | .completionSignalWrite => false
  | .flitHop => false
  | .messageArrival => false
  | .ratomHomePerform => false
  | .ratomReplyLanding => false
  | .barrierCompletion => false
  | .collResultLanding => false
  | .inkwellFill => false
  | .inkwellCopy => false
  | .inkwellAxpby => false
  | .inkwellSgdwf => false
  | .inkwellMomwf => false
  | .inkwellRqnt => false
  | .inkwellDigest => false
  | .inkwellStatusLanding => false
  | .waitaWake => false
  | .tileHalted => false
  | .folioCommit => false
  | .folioEviction => false
  | .penliftOverdue => false
  | .launchTimeout => false
  | .localHandlerEntry => false
  | .trapPostToHost => false
  | .probeResolve => false
  | .launchRecord => false
  | .preemptRecord => false
  | .resumeRecord => false
  | .tileRelease => false
  | .channelClearSweep => false
  | .retireTile => false
  | .restoreTile => false
  | .retireChannel => false
  | .retrainGiferLink => false
  | .retireGiferLink => false
  | .keyRotationComplete => false
  | .migratePage => false
  | .migrationLineCopy => false
  | .signetEvidence => false
  | .signetImportKey => false
  | .signetGenerateKey => false
  | .signetReadCertChain => false
  | .warningWindowStart => false
  | .ckptStart => false
  | .ckptArm => false
  | .ckptDisarm => false
  | .ckptAbort => false
  | .ckptSnapshot => false
  | .ckptCopyLine => false
  | .debugStop => false
  | .debugResume => false
  | .debugStopAtCycle => false
  | .debugCycleReached => false
  | .armBrk => false
  | .disarmBrk => false
  | .traceCaptureEnd => false
  | .snapshotFolio => false
  | .snapshotPackage => false
  | .fwStage => false
  | .fwActivate => false
  | .clockStepUp => false
  | .nop => true
  | .halt => true
  | .ifence => true
  | .tret => true
  | .perstAssertion => false

end Sys2Proof
end

