-- ==== Sys2Proof/Word.lean ====
section
/-! DEFINITION. The words of the machine: bytes, lanes of a fetch line, registers and fetch lines (R21, R39). -/

namespace Sys2Proof

/-- The smallest addressable unit of every store (R21). -/
abbrev Byte := BitVec 8

/-- One lane of a fetch line, and one instruction word (R39, R47). -/
abbrev Word := BitVec 32

/-- A control and status register, a signal word, a register of the hub (R18, R316). -/
abbrev Dword := BitVec 64

/-- A 256-bit fetch line (R39). -/
abbrev Line := BitVec 256

end Sys2Proof
end

