-- ==== Sys2Proof/Decode.lean ====
section
/-! DEFINITION. The decoder of each queue's opcode map (R47-R80), total on any two words and answering the cause
code of R52 for a word that is no instruction, and the encoder written from the same tables. -/

namespace Sys2Proof

/-- The field of n bits of a word that starts at bit lo. -/
def fld (w : Word) (lo n : Nat) : BitVec n := w.extractLsb' lo n

/-- The major opcode, bits 31:25 (R47). -/
def major (w : Word) : Nat := (fld w 25 7).toNat

/-- A first word whose bits 31:30 are 0b11 begins a 64-bit instruction (R47). -/
def isLong (w : Word) : Bool := fld w 30 2 == 3

/-- Cause 5 for a nonzero reserved bit (R52). -/
def resv (w : Word) (mask : Nat) : Option Nat := need (w.toNat &&& mask == 0)

/-- A decoded term, or the lowest cause its word raises (R461). -/
def finish (r : Option Nat) (i : Instr) : Except Nat Instr :=
  match lower r i.cause with
  | none => .ok i
  | some c => .error c

/-- The conditions of R67 by number. -/
def condOf (n : Nat) : Option Cond :=
  match n with
  | 0 => some .eq | 1 => some .ne | 2 => some .lt | 3 => some .le | 4 => some .gt
  | 5 => some .ge | 6 => some .ltz | 7 => some .lez | 8 => some .gtz | 9 => some .gez | _ => none

/-- The number of a condition (R67). -/
def condNum (c : Cond) : Nat :=
  match c with
  | .eq => 0 | .ne => 1 | .lt => 2 | .le => 3 | .gt => 4
  | .ge => 5 | .ltz => 6 | .lez => 7 | .gtz => 8 | .gez => 9

/-- The selectors of RDID by number (R74). -/
def idSelOf (n : Nat) : Option IdSel :=
  match n with
  | 0 => some .fx | 1 => some .fy | 2 => some .width | 3 => some .height | 4 => some .phase
  | 5 => some .package | _ => none

/-- The number of a selector of RDID (R74). -/
def idSelNum (s : IdSel) : Nat :=
  match s with
  | .fx => 0 | .fy => 1 | .width => 2 | .height => 3 | .phase => 4 | .package => 5

/-- A term that needs a condition: an unassigned one raises cause 4 (R67). -/
def withCond (n : Nat) (r : Option Nat) (k : Cond → Instr) : Except Nat Instr :=
  match condOf n with
  | some c => finish r (k c)
  | none => .error 4

/-- TST has the conditions 0 and 1 only (R67). -/
def withAny (n : Nat) (r : Option Nat) (k : Bool → Instr) : Except Nat Instr :=
  match n with
  | 0 => finish r (k false)
  | 1 => finish r (k true)
  | _ => .error 4

/-- The PFX word (R68); a field whose valid bit is 0 must be zero. -/
def decodePfx (w : Word) : Except Nat Instr :=
  let rv := w.getLsbD 24
  let sv := w.getLsbD 20
  let ov := w.getLsbD 18
  let ev := w.getLsbD 13
  let ok := (rv || fld w 21 3 == 0) && (sv || !w.getLsbD 19) && (ov || fld w 14 4 == 0)
    && (ev || fld w 11 2 == 0)
  finish (lower (resv w 0x3FF) (need ok)) (.pfx
    { rm := if rv then some (fld w 21 3) else none
      sat := if sv then some (w.getLsbD 19) else none
      ocl := if ov then some (fld w 14 4) else none
      ecl := if ev then some (fld w 11 2) else none
      wc := w.getLsbD 10 })

/-- Format L3 (R58). -/
def long3 (w0 w1 : Word) : Long3 :=
  { ecl := fld w0 18 2, sxa := w0.getLsbD 17, sxb := w0.getLsbD 16
    wd := fld w0 12 4, wa := fld w0 8 4, wb := fld w0 4 4
    ds := fld w1 20 12, as := fld w1 8 12, bs := (fld w0 0 4 ++ fld w1 0 8 : BitVec 12) }

/-- Format LC for CMP and TST (R59). -/
def longCmp (w0 w1 : Word) : LongCmp :=
  { ecl := fld w0 18 2, sxa := w0.getLsbD 17, sxb := w0.getLsbD 16
    wa := fld w0 8 4, wb := fld w0 4 4, pd := fld w1 24 4
    as := fld w1 8 12, bs := (fld w0 0 4 ++ fld w1 0 8 : BitVec 12) }

/-- Format LC for SEL (R59): the predicate is fn 3:0 and the start of d stands in w1 31:20. -/
def longSel (w0 w1 : Word) : LongSel :=
  { ecl := fld w0 18 2, sxa := w0.getLsbD 17, sxb := w0.getLsbD 16, p := fld w0 20 4
    wd := fld w0 12 4, wa := fld w0 8 4, wb := fld w0 4 4
    ds := fld w1 20 12, as := fld w1 8 12, bs := (fld w0 0 4 ++ fld w1 0 8 : BitVec 12) }

/-- Format LI (R60). -/
def longImm (w0 w1 : Word) : LongImm :=
  { ecl := fld w0 18 2, z := w0.getLsbD 17, wd := fld w0 12 4, ds := fld w0 0 12, imm := w1 }

/-- Format LV (R61). -/
def longVec (w0 w1 : Word) : LongVec :=
  { ecl := fld w0 18 2, ef := fld w0 14 4, wd := fld w0 10 4, wa := fld w0 6 4, wb := fld w0 2 4
    x := (fld w0 0 2 ++ fld w1 0 2 : BitVec 4), ds := fld w1 22 10, as := fld w1 12 10, bs := fld w1 2 10 }

/-- Format LM (R62). -/
def longMem (w0 w1 : Word) : LongMem :=
  { ecl := fld w0 18 2, ocl := fld w0 14 4, wv := fld w0 10 4, x := fld w0 8 2, hi := fld w0 0 8
    vs := fld w1 20 12, bas := fld w1 8 12, lo := fld w1 0 8 }

/-- Format MA (R63). -/
def mat (w0 w1 : Word) : Mat :=
  { ecl := fld w0 18 2, acc := fld w0 16 2, fa := fld w0 12 4, fb := fld w0 8 4, n := fld w0 0 8
    sp := fld w1 20 12, wb := fld w1 10 10, acc2 := fld w1 8 2 }

/-- Format CX (R64). -/
def copyOp (w0 w1 : Word) : CopyOp :=
  { ecl := fld w0 18 2, ocl := fld w0 14 4, f := w0.getLsbD 13, dsc := fld w0 0 12
    rmask := fld w1 16 16, mod := fld w1 12 4 }

/-- Format NX of SEND (R65). -/
def netSend (w0 w1 : Word) : NetSend :=
  { ecl := fld w0 18 2, ocl := fld w0 14 4, wv := fld w0 10 4, ch := fld w0 6 4
    dx := fld w1 24 8, dy := fld w1 16 8, vs := fld w1 4 12 }

/-- Format NX of SENDI (R65). -/
def netSendi (w0 w1 : Word) : NetSendi :=
  { ecl := fld w0 18 2, ocl := fld w0 14 4, wv := fld w0 10 4, ch := fld w0 6 4
    dx := fld w1 24 8, dy := fld w1 16 8, imm := fld w1 0 16 }

/-- Format NX of RECV and RECVW (R65). -/
def netRecv (w0 w1 : Word) : NetRecv :=
  { ecl := fld w0 18 2, ocl := fld w0 14 4, wv := fld w0 10 4, ch := fld w0 6 4
    lat := fld w1 16 16, vs := fld w1 4 12 }

/-- The common integer block's 32-bit forms (R73). -/
def decodeIntShort (w : Word) : Except Nat Instr :=
  let d := fld w 14 7
  let a := fld w 7 7
  let b := fld w 0 7
  let sub := (fld w 21 4).toNat
  match major w with
  | 0x00 => match sub with
    | 0 => finish none (.add d a b)
    | 1 => finish none (.sub d a b)
    | 2 => finish none (.mul d a b)
    | 3 => finish none (.mulh d a b)
    | 4 => finish none (.mulhz d a b)
    | 5 => finish none (.div d a b)
    | 6 => finish none (.divz d a b)
    | 7 => finish none (.rem d a b)
    | 8 => finish none (.remz d a b)
    | 9 => finish none (.min d a b)
    | 10 => finish none (.max d a b)
    | 11 => finish none (.minz d a b)
    | 12 => finish none (.maxz d a b)
    | _ => .error 4
  | 0x01 => match sub with
    | 0 => finish none (.and d a b)
    | 1 => finish none (.or d a b)
    | 2 => finish none (.xor d a b)
    | 3 => finish none (.andn d a b)
    | 4 => finish none (.shl d a b)
    | 5 => finish none (.shr d a b)
    | 6 => finish none (.sar d a b)
    | 7 => finish none (.rotl d a b)
    | _ => .error 4
  | 0x02 => match sub with
    | 0 => finish (resv w 0x7F) (.neg d a)
    | 1 => finish (resv w 0x7F) (.abs d a)
    | 2 => finish (resv w 0x7F) (.not d a)
    | 3 => finish (resv w 0x7F) (.clz d a)
    | 4 => finish (resv w 0x7F) (.ctz d a)
    | 5 => finish (resv w 0x7F) (.popc d a)
    | 6 => finish (resv w 0x7F) (.brev d a)
    | 7 => finish (resv w 0x7F) (.mov d a)
    | 8 => finish (resv w 0x20) (.satn d a (w.getLsbD 6) (fld w 0 5))
    | _ => .error 4
  | 0x03 => match sub with
    | 0 => finish none (.crng16 d a b)
    | 1 => finish none (.crng32 d a b)
    | 2 => finish none (.ext d a b)
    | 3 => finish none (.dep d a b)
    | _ => .error 4
  | 0x04 => finish none (.addi (fld w 18 7) (fld w 11 7) (fld w 0 11))
  | 0x06 => finish none (.movi (fld w 18 7) (fld w 0 18))
  | 0x07 => finish none (.movih (fld w 18 7) (fld w 0 18))
  | 0x08 => withCond sub (resv w 0x7) fun c => .cmp c (fld w 17 4) (fld w 10 7) (fld w 3 7)
  | 0x09 => withCond sub none fun c => .cmpi c (fld w 17 4) (fld w 10 7) (fld w 0 10)
  | 0x0A => withAny sub (resv w 0x7) fun c => .tst c (fld w 17 4) (fld w 10 7) (fld w 3 7)
  | 0x0B => finish none (.sel (fld w 21 4) d a b)
  | 0x0C => match sub with
    | 0 => finish (resv w 0x1FF) (.pand (fld w 17 4) (fld w 13 4) (fld w 9 4))
    | 1 => finish (resv w 0x1FF) (.por (fld w 17 4) (fld w 13 4) (fld w 9 4))
    | 2 => finish (resv w 0x1FF) (.pxor (fld w 17 4) (fld w 13 4) (fld w 9 4))
    | 3 => finish (resv w 0x1FFF) (.pnot (fld w 17 4) (fld w 13 4))
    | 4 => finish (resv w 0x1FFF) (.pmov (fld w 17 4) (fld w 13 4))
    | _ => .error 4
  | 0x0D => match sub with
    | 0 => finish (resv w 0x3FFF) (.ppack d)
    | 1 => finish (resv w 0x3FFF) (.punpack d)
    | _ => .error 4
  | 0x0E => match sub with
    | 0 => finish (resv w 0x3F83) (.tagset d (fld w 2 5))
    | 1 => finish (resv w 0x7F) (.tagget d a)
    | _ => .error 4
  | _ => .error 3

/-- The common integer block's 64-bit forms (R73). -/
def decodeIntLong (w0 w1 : Word) : Except Nat Instr :=
  let o := long3 w0 w1
  let fn := (fld w0 20 5).toNat
  match major w0 with
  | 0x60 => match fn with
    | 0 => finish none (.addLong o)
    | 1 => finish none (.subLong o)
    | 2 => finish none (.mulLong o)
    | 3 => finish none (.mulhLong o)
    | 4 => finish none (.mulhzLong o)
    | 5 => finish none (.divLong o)
    | 6 => finish none (.divzLong o)
    | 7 => finish none (.remLong o)
    | 8 => finish none (.remzLong o)
    | 9 => finish none (.minLong o)
    | 10 => finish none (.maxLong o)
    | 11 => finish none (.minzLong o)
    | 12 => finish none (.maxzLong o)
    | 16 => finish none (.andLong o)
    | 17 => finish none (.orLong o)
    | 18 => finish none (.xorLong o)
    | 19 => finish none (.andnLong o)
    | 20 => finish none (.shlLong o)
    | 21 => finish none (.shrLong o)
    | 22 => finish none (.sarLong o)
    | 23 => finish none (.rotlLong o)
    | _ => .error 4
  | 0x61 => match fn with
    | 0 => finish none (.negLong o)
    | 1 => finish none (.absLong o)
    | 2 => finish none (.notLong o)
    | 3 => finish none (.clzLong o)
    | 4 => finish none (.ctzLong o)
    | 5 => finish none (.popcLong o)
    | 6 => finish none (.brevLong o)
    | 7 => finish none (.movLong o)
    | 8 => finish none (.satnLong o)
    | 16 => finish none (.crng16Long o)
    | 17 => finish none (.crng32Long o)
    | 18 => finish none (.extLong o)
    | 19 => finish none (.depLong o)
    | _ => .error 4
  | 0x62 => match fn with
    | 0 => finish (resv w0 0x10000) (.moviLong (longImm w0 w1))
    | 1 => finish (resv w0 0x10000) (.movihLong (longImm w0 w1))
    | _ => .error 4
  | 0x63 => match fn with
    | 0 => withCond (fld w1 28 4).toNat (lower (resv w0 0xF000) (resv w1 0xF00000)) fun c =>
        .cmpLong c (longCmp w0 w1)
    | 1 => withAny (fld w1 28 4).toNat (lower (resv w0 0xF000) (resv w1 0xF00000)) fun c =>
        .tstLong c (longCmp w0 w1)
    | n => if 16 ≤ n then finish none (.selLong (longSel w0 w1)) else .error 4
  | _ => .error 3

/-- WAITT and SIGT (R80). -/
def decodeToken (w : Word) : Except Nat Instr :=
  match major w with
  | 0x5D => finish (resv w 0x3FFF00) (.waitt (fld w 22 3) (fld w 0 8))
  | _ => finish (resv w 0x3FFF00) (.sigt (fld w 22 3) (fld w 0 8))

/-- The sequencer's own forms (R74). -/
def decodeSq (w : Word) : Except Nat Instr :=
  match major w with
  | 0x20 => finish (resv w 0x1FFFFFF) .nop
  | 0x21 => finish (resv w 0x1FFFFFF) .halt
  | 0x22 => finish (resv w 0x3FE000) (.pbr (fld w 22 3) (fld w 0 13))
  | 0x23 => finish (resv w 0x3FFF80) (.pbrs (fld w 22 3) (fld w 0 7))
  | 0x24 => finish (resv w 0xFFFF) (.br (fld w 22 3) (fld w 18 4) (w.getLsbD 17) (w.getLsbD 16))
  | 0x25 => finish (resv w 0xFFFF) (.call (fld w 22 3) (fld w 16 6))
  | 0x26 => finish (resv w 0x1C0FFFF) (.ret (fld w 16 6))
  | 0x27 => if w.getLsbD 22 then finish none (.loopImm (fld w 23 2) (fld w 10 12) (fld w 0 10))
      else finish (resv w 0x3E0000) (.loopReg (fld w 23 2) (fld w 10 7) (fld w 0 10))
  | 0x28 => finish (resv w 0x3FFFF) (.lbrk (fld w 23 2) (fld w 19 4) (w.getLsbD 18))
  | 0x29 => finish (resv w 0x1FFFF) (.ovl (fld w 17 8))
  | 0x2A => finish (resv w 0x1FFFFFF) .ifence
  | 0x2C => finish (resv w 0x1FFF000) (.penlift (fld w 0 12))
  | 0x2D => if w.getLsbD 24 then finish (resv w 0xFFFF80) (.waitcUntil (fld w 0 7))
      else finish none (.waitc (fld w 0 24))
  | 0x2E => finish (resv w 0x1FF0000) (.trap (fld w 0 16))
  | 0x2F => finish (resv w 0x1FFFFFF) .tret
  | 0x30 => match idSelOf (fld w 21 4).toNat with
    | some s => finish (resv w 0x3FFF) (.rdid s (fld w 14 7))
    | none => .error 4
  | 0x31 => finish (resv w 0x1E03FFF) (.rdclk (fld w 14 7))
  | 0x32 => finish (resv w 0x3F) (.csrrd (fld w 13 12) (fld w 6 7))
  | 0x33 => finish (resv w 0x3F) (.csrwr (fld w 13 12) (fld w 6 7))
  | 0x34 => finish (resv w 0x1FF0000) (.brk (fld w 0 16))
  | _ => .error 3

/-- The access processor's own 32-bit forms (R75). -/
def decodeApShort (w : Word) : Except Nat Instr :=
  match major w with
  | 0x20 => finish none (.ld (fld w 23 2) (w.getLsbD 22) (fld w 15 7) (fld w 8 7) (fld w 0 8))
  | 0x21 => finish (resv w 0x400000) (.st (fld w 23 2) (fld w 15 7) (fld w 8 7) (fld w 0 8))
  | 0x22 => finish (resv w 0x1FF0000) (.fence (fld w 0 16))
  | 0x23 => finish (resv w 0x1FC0000) (.sfence (fld w 16 2) (fld w 0 16))
  | 0x24 => finish (resv w 0x3F) (.probe (fld w 20 5) (fld w 13 7) (fld w 6 7))
  | 0x25 => finish (resv w 0xFFFFF) (.unpin (fld w 20 5))
  | _ => .error 3

/-- The access processor's own 64-bit forms (R75). -/
def decodeApLong (w0 w1 : Word) : Except Nat Instr :=
  let o := longMem w0 w1
  let fn := (fld w0 20 5).toNat
  match major w0 with
  | 0x64 => match fn with
    | 0 => finish none (.ldLong o)
    | 1 => finish none (.stLong o)
    | 2 => finish none (.spill o)
    | 3 => finish none (.fill o)
    | 4 => finish none (.ldx o)
    | 5 => finish none (.stx o)
    | _ => .error 4
  | 0x65 => match fn with
    | 0 => finish none (.atomAdd o)
    | 1 => finish none (.atomMin o)
    | 2 => finish none (.atomMax o)
    | 3 => finish none (.atomAnd o)
    | 4 => finish none (.atomOr o)
    | 5 => finish none (.atomXor o)
    | 6 => finish none (.atomXchg o)
    | 7 => finish none (.atomCas o)
    | 8 => finish none (.atomFadd o)
    | 9 => finish none (.atomMinZ o)
    | 10 => finish none (.atomMaxZ o)
    | _ => .error 4
  | 0x66 => match fn with
    | 0 => finish none (.ratomAdd o)
    | 1 => finish none (.ratomMin o)
    | 2 => finish none (.ratomMax o)
    | 3 => finish none (.ratomAnd o)
    | 4 => finish none (.ratomOr o)
    | 5 => finish none (.ratomXor o)
    | 6 => finish none (.ratomXchg o)
    | 7 => finish none (.ratomCas o)
    | 8 => finish none (.ratomFadd o)
    | 9 => finish none (.ratomMinZ o)
    | 10 => finish none (.ratomMaxZ o)
    | _ => .error 4
  | 0x67 => withCond fn none fun c => .waita c o
  | _ => .error 3

/-- The execute unit's own forms (R76). -/
def decodeXuLong (w0 w1 : Word) : Except Nat Instr :=
  let o := longVec w0 w1
  let fn := (fld w0 20 5).toNat
  match major w0 with
  | 0x68 => match fn with
    | 0 => finish none (.vadd o)
    | 1 => finish none (.vsub o)
    | 2 => finish none (.vmul o)
    | 3 => finish none (.vfma o)
    | 4 => finish none (.vfms o)
    | 5 => finish none (.vneg o)
    | 6 => finish none (.vabs o)
    | 7 => finish none (.vmin o)
    | 8 => finish none (.vmax o)
    | 9 => finish none (.vcmp o)
    | 10 => finish none (.vsel o)
    | 11 => finish none (.vcvt o)
    | 12 => finish none (.vrcp o)
    | 13 => finish none (.vrsq o)
    | 14 => finish none (.vsqrt o)
    | 15 => finish none (.vexp2 o)
    | 16 => finish none (.vlog2 o)
    | 17 => finish none (.vsum o)
    | 18 => finish none (.vmaxr o)
    | 19 => finish none (.vminr o)
    | 20 => finish none (.vdot o)
    | 21 => finish none (.vclamp o)
    | 22 => finish none (.vscl o)
    | _ => .error 4
  | 0x69 => match fn with
    | 0 => finish none (.viadd o)
    | 1 => finish none (.visub o)
    | 2 => finish none (.vimul o)
    | 3 => finish none (.vshl o)
    | 4 => finish none (.vshr o)
    | 5 => finish none (.vand o)
    | 6 => finish none (.vor o)
    | 7 => finish none (.vxor o)
    | 8 => finish none (.vshuf o)
    | 9 => finish none (.vbcast o)
    | 10 => finish none (.vslide o)
    | 11 => finish none (.vzip o)
    | 12 => finish none (.vunzip o)
    | _ => .error 4
  | 0x6A => match fn with
    | 0 => match o.x.toNat % 4 with
      | 0 => finish none (.dqntSurvey o)
      | 1 => finish none (.dqntHead o)
      | 2 => finish none (.dqntQ o)
      | _ => .error 5
    | 1 => finish none (.ddq o)
    | 2 => finish none (.dscale o)
    | _ => .error 4
  | _ => .error 3

/-- The matrix engine's own forms (R77). -/
def decodeMxLong (w0 w1 : Word) : Except Nat Instr :=
  let o := mat w0 w1
  match major w0 with
  | 0x60 => match (fld w0 20 5).toNat with
    | 0 => finish (resv w1 0xFF) (.mma o)
    | 1 => finish (resv w1 0xFF) (.wld o)
    | 2 => finish (resv w1 0xFF) (.accz o)
    | 3 => finish (resv w1 0xFF) (.accrd o)
    | 4 => finish (resv w1 0xFF) (.accwr o)
    | 5 => finish (resv w1 0xFF) (.accadd o)
    | 6 => finish (resv w1 0xFF) (.accsc o)
    | _ => .error 4
  | _ => .error 3

/-- The copy engine's own forms (R78). -/
def decodeCeLong (w0 w1 : Word) : Except Nat Instr :=
  let o := copyOp w0 w1
  match major w0 with
  | 0x60 => match (fld w0 20 5).toNat with
    | 0 => finish (lower (resv w0 0x1000) (resv w1 0xFFF)) (.cpy o)
    | 1 => finish (lower (resv w0 0x1000) (resv w1 0xFFF)) (.cpyh o)
    | 2 => finish (lower (resv w0 0x1000) (resv w1 0xFFF)) (.cpyw o)
    | 3 => finish (lower (resv w0 0x1000) (resv w1 0xFFF)) (.cpyt o)
    | 4 => finish (lower (resv w0 0x1000) (resv w1 0xFFF)) (.gath o)
    | 5 => finish (lower (resv w0 0x1000) (resv w1 0xFFF)) (.scat o)
    | 6 => finish (lower (resv w0 0x1000) (resv w1 0xFFF)) (.cpysf o)
    | 7 => finish (lower (resv w0 0x1000) (resv w1 0xFFF)) (.sigw o)
    | 8 => finish (lower (resv w0 0x1000) (resv w1 0xFFF)) (.bcst o)
    | 9 => finish (lower (resv w0 0x1000) (resv w1 0xFFF)) (.coll o)
    | 10 => finish (lower (resv w0 0x1000) (resv w1 0xFFF)) (.inkc o)
    | 11 => finish (lower (resv w0 0x1000) (resv w1 0xFFF)) (.inkf o)
    | 12 => finish (lower (resv w0 0x1000) (resv w1 0xFFF)) (.timld o)
    | _ => .error 4
  | _ => .error 3

/-- The network interface's own 32-bit forms (R79). -/
def decodeNetShort (w : Word) : Except Nat Instr :=
  match major w with
  | 0x20 => finish (resv w 0xFFFFF) (.bar (fld w 20 5))
  | 0x21 => finish (resv w 0xFFFFF) (.bara (fld w 20 5))
  | 0x22 => finish (resv w 0xFFFFF) (.barw (fld w 20 5))
  | _ => .error 3

/-- The network interface's own 64-bit forms (R65, R79). -/
def decodeNetLong (w0 w1 : Word) : Except Nat Instr :=
  match major w0 with
  | 0x60 => match (fld w0 20 5).toNat with
    | 0 => finish (lower (resv w0 0x3F) (resv w1 0xF)) (.send (netSend w0 w1))
    | 1 => finish (resv w0 0x3F) (.sendi (netSendi w0 w1))
    | 2 => finish (lower (resv w0 0x3F) (resv w1 0xF)) (.recv (netRecv w0 w1))
    | 3 => finish (lower (resv w0 0x3F) (resv w1 0xF)) (.recvw (netRecv w0 w1))
    | _ => .error 4
  | _ => .error 3

/-- The opcode map of each queue (R72): the instruction that two words stand for in a queue, or the lowest
cause code of R52 they raise. The second word of a 32-bit instruction is ignored. -/
def decode (q : Queue) (w0 w1 : Word) : Except Nat Instr :=
  let m := major w0
  if m == 0x5F then decodePfx w0
  else if m == 0x5D || m == 0x5E then decodeToken w0
  else if m < 0x20 then
    match q with
    | .sq | .ap | .xu => decodeIntShort w0
    | .ce | .mx | .net => .error 3
  else if m < 0x60 then
    match q with
    | .sq => decodeSq w0
    | .ap => decodeApShort w0
    | .net => decodeNetShort w0
    | .xu | .ce | .mx => .error 3
  else if m < 0x64 then
    match q with
    | .sq | .ap | .xu => decodeIntLong w0 w1
    | .ce => decodeCeLong w0 w1
    | .mx => decodeMxLong w0 w1
    | .net => decodeNetLong w0 w1
  else
    match q with
    | .ap => decodeApLong w0 w1
    | .xu => decodeXuLong w0 w1
    | .sq | .ce | .mx | .net => .error 3

/-- L3 as two words (R58). -/
def enc3 (maj : BitVec 7) (fn : BitVec 5) (o : Long3) : Word × Word :=
  ((maj ++ fn ++ o.ecl ++ BitVec.ofBool o.sxa ++ BitVec.ofBool o.sxb ++ o.wd ++ o.wa ++ o.wb
      ++ o.bs.extractLsb' 8 4 : BitVec 32),
    (o.ds ++ o.as ++ o.bs.extractLsb' 0 8 : BitVec 32))

/-- LI as two words (R60). -/
def encI (fn : BitVec 5) (o : LongImm) : Word × Word :=
  ((0x62#7 ++ fn ++ o.ecl ++ BitVec.ofBool o.z ++ 0#1 ++ o.wd ++ o.ds : BitVec 32), o.imm)

/-- LC of CMP and TST as two words (R59). -/
def encC (fn : BitVec 5) (cond : BitVec 4) (o : LongCmp) : Word × Word :=
  ((0x63#7 ++ fn ++ o.ecl ++ BitVec.ofBool o.sxa ++ BitVec.ofBool o.sxb ++ 0#4 ++ o.wa ++ o.wb
      ++ o.bs.extractLsb' 8 4 : BitVec 32),
    (cond ++ o.pd ++ 0#4 ++ o.as ++ o.bs.extractLsb' 0 8 : BitVec 32))

/-- LC of SEL as two words (R59). -/
def encS (o : LongSel) : Word × Word :=
  ((0x63#7 ++ 1#1 ++ o.p ++ o.ecl ++ BitVec.ofBool o.sxa ++ BitVec.ofBool o.sxb ++ o.wd ++ o.wa ++ o.wb
      ++ o.bs.extractLsb' 8 4 : BitVec 32),
    (o.ds ++ o.as ++ o.bs.extractLsb' 0 8 : BitVec 32))

/-- LV as two words (R61). -/
def encV (maj : BitVec 7) (fn : BitVec 5) (o : LongVec) : Word × Word :=
  ((maj ++ fn ++ o.ecl ++ o.ef ++ o.wd ++ o.wa ++ o.wb ++ o.x.extractLsb' 2 2 : BitVec 32),
    (o.ds ++ o.as ++ o.bs ++ o.x.extractLsb' 0 2 : BitVec 32))

/-- LM as two words (R62). -/
def encM (maj : BitVec 7) (fn : BitVec 5) (o : LongMem) : Word × Word :=
  ((maj ++ fn ++ o.ecl ++ o.ocl ++ o.wv ++ o.x ++ o.hi : BitVec 32), (o.vs ++ o.bas ++ o.lo : BitVec 32))

/-- MA as two words (R63). -/
def encA (fn : BitVec 5) (o : Mat) : Word × Word :=
  ((0x60#7 ++ fn ++ o.ecl ++ o.acc ++ o.fa ++ o.fb ++ o.n : BitVec 32),
    (o.sp ++ o.wb ++ o.acc2 ++ 0#8 : BitVec 32))

/-- CX as two words (R64). -/
def encX (fn : BitVec 5) (o : CopyOp) : Word × Word :=
  ((0x60#7 ++ fn ++ o.ecl ++ o.ocl ++ BitVec.ofBool o.f ++ 0#1 ++ o.dsc : BitVec 32),
    (o.rmask ++ o.mod ++ 0#12 : BitVec 32))

/-- NX of SEND as two words (R65). -/
def encN (o : NetSend) : Word × Word :=
  ((0x60#7 ++ 0#5 ++ o.ecl ++ o.ocl ++ o.wv ++ o.ch ++ 0#6 : BitVec 32), (o.dx ++ o.dy ++ o.vs ++ 0#4 : BitVec 32))

/-- NX of SENDI as two words (R65). -/
def encNi (o : NetSendi) : Word × Word :=
  ((0x60#7 ++ 1#5 ++ o.ecl ++ o.ocl ++ o.wv ++ o.ch ++ 0#6 : BitVec 32), (o.dx ++ o.dy ++ o.imm : BitVec 32))

/-- NX of RECV and RECVW as two words (R65). -/
def encNr (fn : BitVec 5) (o : NetRecv) : Word × Word :=
  ((0x60#7 ++ fn ++ o.ecl ++ o.ocl ++ o.wv ++ o.ch ++ 0#6 : BitVec 32), (o.lat ++ o.vs ++ 0#4 : BitVec 32))

/-- PFX as a word (R68). -/
def encP (p : Pfx) : Word :=
  (0x5F#7 ++ BitVec.ofBool p.rm.isSome ++ p.rm.getD 0 ++ BitVec.ofBool p.sat.isSome ++ BitVec.ofBool (p.sat.getD false)
    ++ BitVec.ofBool p.ocl.isSome ++ p.ocl.getD 0 ++ BitVec.ofBool p.ecl.isSome ++ p.ecl.getD 0
    ++ BitVec.ofBool p.wc ++ 0#10 : BitVec 32)

/-- The words of a queue instruction; the second word of a 32-bit one, and both words of a row that is no
instruction, are zero. -/
def encode : Instr → Word × Word
  | .externalResultArrival _ _ _ => (0, 0)
  | .fack _ _ => (0, 0)
  | .lqtailWrite _ _ => (0, 0)
  | .lqownWrite _ _ => (0, 0)
  | .leaseWrite _ _ => (0, 0)
  | .vfReset _ => (0, 0)
  | .tlbinv _ _ => (0, 0)
  | .keyRotationArm _ _ => (0, 0)
  | .scrubVisit _ _ => (0, 0)
  | .ideKmKeyProgram _ _ => (0, 0)
  | .hostCompletionArrival _ _ _ _ => (0, 0)
  | .cxlMemRead _ => (0, 0)
  | .cxlMemWrite _ _ _ _ => (0, 0)
  | .errchWrite _ => (0, 0)
  | .errlnkWrite _ => (0, 0)
  | .traceTriggerNow _ => (0, 0)
  | .profcntLowRead _ _ _ => (0, 0)
  | .bringUp _ => (0, 0)
  | .supplyDroop _ => (0, 0)
  | .giferFlitReceive _ _ _ _ => (0, 0)
  | .registerWrite _ _ _ => (0, 0)
  | .add d a b => ((0x00#7 ++ 0#4 ++ d ++ a ++ b : BitVec 32), 0)
  | .sub d a b => ((0x00#7 ++ 1#4 ++ d ++ a ++ b : BitVec 32), 0)
  | .mul d a b => ((0x00#7 ++ 2#4 ++ d ++ a ++ b : BitVec 32), 0)
  | .mulh d a b => ((0x00#7 ++ 3#4 ++ d ++ a ++ b : BitVec 32), 0)
  | .mulhz d a b => ((0x00#7 ++ 4#4 ++ d ++ a ++ b : BitVec 32), 0)
  | .div d a b => ((0x00#7 ++ 5#4 ++ d ++ a ++ b : BitVec 32), 0)
  | .divz d a b => ((0x00#7 ++ 6#4 ++ d ++ a ++ b : BitVec 32), 0)
  | .rem d a b => ((0x00#7 ++ 7#4 ++ d ++ a ++ b : BitVec 32), 0)
  | .remz d a b => ((0x00#7 ++ 8#4 ++ d ++ a ++ b : BitVec 32), 0)
  | .min d a b => ((0x00#7 ++ 9#4 ++ d ++ a ++ b : BitVec 32), 0)
  | .max d a b => ((0x00#7 ++ 10#4 ++ d ++ a ++ b : BitVec 32), 0)
  | .minz d a b => ((0x00#7 ++ 11#4 ++ d ++ a ++ b : BitVec 32), 0)
  | .maxz d a b => ((0x00#7 ++ 12#4 ++ d ++ a ++ b : BitVec 32), 0)
  | .and d a b => ((0x01#7 ++ 0#4 ++ d ++ a ++ b : BitVec 32), 0)
  | .or d a b => ((0x01#7 ++ 1#4 ++ d ++ a ++ b : BitVec 32), 0)
  | .xor d a b => ((0x01#7 ++ 2#4 ++ d ++ a ++ b : BitVec 32), 0)
  | .andn d a b => ((0x01#7 ++ 3#4 ++ d ++ a ++ b : BitVec 32), 0)
  | .shl d a b => ((0x01#7 ++ 4#4 ++ d ++ a ++ b : BitVec 32), 0)
  | .shr d a b => ((0x01#7 ++ 5#4 ++ d ++ a ++ b : BitVec 32), 0)
  | .sar d a b => ((0x01#7 ++ 6#4 ++ d ++ a ++ b : BitVec 32), 0)
  | .rotl d a b => ((0x01#7 ++ 7#4 ++ d ++ a ++ b : BitVec 32), 0)
  | .neg d a => ((0x02#7 ++ 0#4 ++ d ++ a ++ 0#7 : BitVec 32), 0)
  | .abs d a => ((0x02#7 ++ 1#4 ++ d ++ a ++ 0#7 : BitVec 32), 0)
  | .not d a => ((0x02#7 ++ 2#4 ++ d ++ a ++ 0#7 : BitVec 32), 0)
  | .clz d a => ((0x02#7 ++ 3#4 ++ d ++ a ++ 0#7 : BitVec 32), 0)
  | .ctz d a => ((0x02#7 ++ 4#4 ++ d ++ a ++ 0#7 : BitVec 32), 0)
  | .popc d a => ((0x02#7 ++ 5#4 ++ d ++ a ++ 0#7 : BitVec 32), 0)
  | .brev d a => ((0x02#7 ++ 6#4 ++ d ++ a ++ 0#7 : BitVec 32), 0)
  | .mov d a => ((0x02#7 ++ 7#4 ++ d ++ a ++ 0#7 : BitVec 32), 0)
  | .satn d a z n => ((0x02#7 ++ 8#4 ++ d ++ a ++ BitVec.ofBool z ++ 0#1 ++ n : BitVec 32), 0)
  | .crng16 d a b => ((0x03#7 ++ 0#4 ++ d ++ a ++ b : BitVec 32), 0)
  | .crng32 d a b => ((0x03#7 ++ 1#4 ++ d ++ a ++ b : BitVec 32), 0)
  | .ext d a b => ((0x03#7 ++ 2#4 ++ d ++ a ++ b : BitVec 32), 0)
  | .dep d a b => ((0x03#7 ++ 3#4 ++ d ++ a ++ b : BitVec 32), 0)
  | .addi d a imm => ((0x04#7 ++ d ++ a ++ imm : BitVec 32), 0)
  | .movi d imm => ((0x06#7 ++ d ++ imm : BitVec 32), 0)
  | .movih d imm => ((0x07#7 ++ d ++ imm : BitVec 32), 0)
  | .cmp c pd a b => ((0x08#7 ++ BitVec.ofNat 4 (condNum c) ++ pd ++ a ++ b ++ 0#3 : BitVec 32), 0)
  | .cmpi c pd a imm => ((0x09#7 ++ BitVec.ofNat 4 (condNum c) ++ pd ++ a ++ imm : BitVec 32), 0)
  | .tst c pd a b => ((0x0A#7 ++ 0#3 ++ BitVec.ofBool c ++ pd ++ a ++ b ++ 0#3 : BitVec 32), 0)
  | .sel p d a b => ((0x0B#7 ++ p ++ d ++ a ++ b : BitVec 32), 0)
  | .pand pd pa pb => ((0x0C#7 ++ 0#4 ++ pd ++ pa ++ pb ++ 0#9 : BitVec 32), 0)
  | .por pd pa pb => ((0x0C#7 ++ 1#4 ++ pd ++ pa ++ pb ++ 0#9 : BitVec 32), 0)
  | .pxor pd pa pb => ((0x0C#7 ++ 2#4 ++ pd ++ pa ++ pb ++ 0#9 : BitVec 32), 0)
  | .pnot pd pa => ((0x0C#7 ++ 3#4 ++ pd ++ pa ++ 0#13 : BitVec 32), 0)
  | .pmov pd pa => ((0x0C#7 ++ 4#4 ++ pd ++ pa ++ 0#13 : BitVec 32), 0)
  | .ppack d => ((0x0D#7 ++ 0#4 ++ d ++ 0#14 : BitVec 32), 0)
  | .punpack d => ((0x0D#7 ++ 1#4 ++ d ++ 0#14 : BitVec 32), 0)
  | .tagset d tag => ((0x0E#7 ++ 0#4 ++ d ++ 0#7 ++ tag ++ 0#2 : BitVec 32), 0)
  | .tagget d a => ((0x0E#7 ++ 1#4 ++ d ++ a ++ 0#7 : BitVec 32), 0)
  | .addLong o => enc3 0x60 0 o
  | .subLong o => enc3 0x60 1 o
  | .mulLong o => enc3 0x60 2 o
  | .mulhLong o => enc3 0x60 3 o
  | .mulhzLong o => enc3 0x60 4 o
  | .divLong o => enc3 0x60 5 o
  | .divzLong o => enc3 0x60 6 o
  | .remLong o => enc3 0x60 7 o
  | .remzLong o => enc3 0x60 8 o
  | .minLong o => enc3 0x60 9 o
  | .maxLong o => enc3 0x60 10 o
  | .minzLong o => enc3 0x60 11 o
  | .maxzLong o => enc3 0x60 12 o
  | .andLong o => enc3 0x60 16 o
  | .orLong o => enc3 0x60 17 o
  | .xorLong o => enc3 0x60 18 o
  | .andnLong o => enc3 0x60 19 o
  | .shlLong o => enc3 0x60 20 o
  | .shrLong o => enc3 0x60 21 o
  | .sarLong o => enc3 0x60 22 o
  | .rotlLong o => enc3 0x60 23 o
  | .negLong o => enc3 0x61 0 o
  | .absLong o => enc3 0x61 1 o
  | .notLong o => enc3 0x61 2 o
  | .clzLong o => enc3 0x61 3 o
  | .ctzLong o => enc3 0x61 4 o
  | .popcLong o => enc3 0x61 5 o
  | .brevLong o => enc3 0x61 6 o
  | .movLong o => enc3 0x61 7 o
  | .satnLong o => enc3 0x61 8 o
  | .crng16Long o => enc3 0x61 16 o
  | .crng32Long o => enc3 0x61 17 o
  | .extLong o => enc3 0x61 18 o
  | .depLong o => enc3 0x61 19 o
  | .moviLong o => encI 0 o
  | .movihLong o => encI 1 o
  | .cmpLong c o => encC 0 (BitVec.ofNat 4 (condNum c)) o
  | .tstLong c o => encC 1 (0#3 ++ BitVec.ofBool c) o
  | .selLong o => encS o
  | .waitt t n => ((0x5D#7 ++ t ++ 0#14 ++ n : BitVec 32), 0)
  | .sigt t n => ((0x5E#7 ++ t ++ 0#14 ++ n : BitVec 32), 0)
  | .pfx p => (encP p, 0)
  | .pbr b disp => ((0x22#7 ++ b ++ 0#9 ++ disp : BitVec 32), 0)
  | .pbrs b a => ((0x23#7 ++ b ++ 0#15 ++ a : BitVec 32), 0)
  | .br b p n u => ((0x24#7 ++ b ++ p ++ BitVec.ofBool n ++ BitVec.ofBool u ++ 0#16 : BitVec 32), 0)
  | .call b slide => ((0x25#7 ++ b ++ slide ++ 0#16 : BitVec 32), 0)
  | .ret slide => ((0x26#7 ++ 0#3 ++ slide ++ 0#16 : BitVec 32), 0)
  | .loopImm l count lines => ((0x27#7 ++ l ++ 1#1 ++ count ++ lines : BitVec 32), 0)
  | .loopReg l a lines => ((0x27#7 ++ l ++ 0#6 ++ a ++ lines : BitVec 32), 0)
  | .lbrk l p n => ((0x28#7 ++ l ++ p ++ BitVec.ofBool n ++ 0#18 : BitVec 32), 0)
  | .ovl n => ((0x29#7 ++ n ++ 0#17 : BitVec 32), 0)
  | .penlift m => ((0x2C#7 ++ 0#13 ++ m : BitVec 32), 0)
  | .waitc n => ((0x2D#7 ++ 0#1 ++ n : BitVec 32), 0)
  | .waitcUntil a => ((0x2D#7 ++ 1#1 ++ 0#17 ++ a : BitVec 32), 0)
  | .trap a => ((0x2E#7 ++ 0#9 ++ a : BitVec 32), 0)
  | .rdid s d => ((0x30#7 ++ BitVec.ofNat 4 (idSelNum s) ++ d ++ 0#14 : BitVec 32), 0)
  | .rdclk d => ((0x31#7 ++ 0#4 ++ d ++ 0#14 : BitVec 32), 0)
  | .csrrd c d => ((0x32#7 ++ c ++ d ++ 0#6 : BitVec 32), 0)
  | .csrwr c a => ((0x33#7 ++ c ++ a ++ 0#6 : BitVec 32), 0)
  | .brk c => ((0x34#7 ++ 0#9 ++ c : BitVec 32), 0)
  | .ld sz z d base disp => ((0x20#7 ++ sz ++ BitVec.ofBool z ++ d ++ base ++ disp : BitVec 32), 0)
  | .st sz d base disp => ((0x21#7 ++ sz ++ 0#1 ++ d ++ base ++ disp : BitVec 32), 0)
  | .fence m => ((0x22#7 ++ 0#9 ++ m : BitVec 32), 0)
  | .sfence s m => ((0x23#7 ++ 0#7 ++ s ++ m : BitVec 32), 0)
  | .probe s a d => ((0x24#7 ++ s ++ a ++ d ++ 0#6 : BitVec 32), 0)
  | .unpin s => ((0x25#7 ++ s ++ 0#20 : BitVec 32), 0)
  | .ldLong o => encM 0x64 0 o
  | .stLong o => encM 0x64 1 o
  | .spill o => encM 0x64 2 o
  | .fill o => encM 0x64 3 o
  | .ldx o => encM 0x64 4 o
  | .stx o => encM 0x64 5 o
  | .atomAdd o => encM 0x65 0 o
  | .atomMin o => encM 0x65 1 o
  | .atomMax o => encM 0x65 2 o
  | .atomAnd o => encM 0x65 3 o
  | .atomOr o => encM 0x65 4 o
  | .atomXor o => encM 0x65 5 o
  | .atomXchg o => encM 0x65 6 o
  | .atomCas o => encM 0x65 7 o
  | .atomFadd o => encM 0x65 8 o
  | .atomMinZ o => encM 0x65 9 o
  | .atomMaxZ o => encM 0x65 10 o
  | .ratomAdd o => encM 0x66 0 o
  | .ratomMin o => encM 0x66 1 o
  | .ratomMax o => encM 0x66 2 o
  | .ratomAnd o => encM 0x66 3 o
  | .ratomOr o => encM 0x66 4 o
  | .ratomXor o => encM 0x66 5 o
  | .ratomXchg o => encM 0x66 6 o
  | .ratomCas o => encM 0x66 7 o
  | .ratomFadd o => encM 0x66 8 o
  | .ratomMinZ o => encM 0x66 9 o
  | .ratomMaxZ o => encM 0x66 10 o
  | .waita c o => encM 0x67 (BitVec.ofNat 5 (condNum c)) o
  | .vadd o => encV 0x68 0 o
  | .vsub o => encV 0x68 1 o
  | .vmul o => encV 0x68 2 o
  | .vfma o => encV 0x68 3 o
  | .vfms o => encV 0x68 4 o
  | .vneg o => encV 0x68 5 o
  | .vabs o => encV 0x68 6 o
  | .vmin o => encV 0x68 7 o
  | .vmax o => encV 0x68 8 o
  | .vcmp o => encV 0x68 9 o
  | .vsel o => encV 0x68 10 o
  | .vcvt o => encV 0x68 11 o
  | .vrcp o => encV 0x68 12 o
  | .vrsq o => encV 0x68 13 o
  | .vsqrt o => encV 0x68 14 o
  | .vexp2 o => encV 0x68 15 o
  | .vlog2 o => encV 0x68 16 o
  | .vsum o => encV 0x68 17 o
  | .vmaxr o => encV 0x68 18 o
  | .vminr o => encV 0x68 19 o
  | .vdot o => encV 0x68 20 o
  | .vclamp o => encV 0x68 21 o
  | .vscl o => encV 0x68 22 o
  | .viadd o => encV 0x69 0 o
  | .visub o => encV 0x69 1 o
  | .vimul o => encV 0x69 2 o
  | .vshl o => encV 0x69 3 o
  | .vshr o => encV 0x69 4 o
  | .vand o => encV 0x69 5 o
  | .vor o => encV 0x69 6 o
  | .vxor o => encV 0x69 7 o
  | .vshuf o => encV 0x69 8 o
  | .vbcast o => encV 0x69 9 o
  | .vslide o => encV 0x69 10 o
  | .vzip o => encV 0x69 11 o
  | .vunzip o => encV 0x69 12 o
  | .dqntSurvey o => encV 0x6A 0 o
  | .dqntHead o => encV 0x6A 0 o
  | .dqntQ o => encV 0x6A 0 o
  | .ddq o => encV 0x6A 1 o
  | .dscale o => encV 0x6A 2 o
  | .mma o => encA 0 o
  | .wld o => encA 1 o
  | .accz o => encA 2 o
  | .accrd o => encA 3 o
  | .accwr o => encA 4 o
  | .accadd o => encA 5 o
  | .accsc o => encA 6 o
  | .cpy o => encX 0 o
  | .cpyh o => encX 1 o
  | .cpyw o => encX 2 o
  | .cpyt o => encX 3 o
  | .gath o => encX 4 o
  | .scat o => encX 5 o
  | .cpysf o => encX 6 o
  | .sigw o => encX 7 o
  | .bcst o => encX 8 o
  | .coll o => encX 9 o
  | .inkc o => encX 10 o
  | .inkf o => encX 11 o
  | .timld o => encX 12 o
  | .send o => encN o
  | .sendi o => encNi o
  | .recv o => encNr 2 o
  | .recvw o => encNr 3 o
  | .bar n => ((0x20#7 ++ n ++ 0#20 : BitVec 32), 0)
  | .bara n => ((0x21#7 ++ n ++ 0#20 : BitVec 32), 0)
  | .barw n => ((0x22#7 ++ n ++ 0#20 : BitVec 32), 0)
  | .privilegedOnChipMapWrite _ _ _ => (0, 0)
  | .stackTemperatureRefreshDemand _ _ => (0, 0)
  | .controlStateParityError _ _ _ => (0, 0)
  | .giferLinkDown _ => (0, 0)
  | .lineDispatch => (0, 0)
  | .crossingWordCompletion => (0, 0)
  | .targetBufferFill => (0, 0)
  | .sliceWriteLanding => (0, 0)
  | .nevWindowStart => (0, 0)
  | .waitcDelayExpiry => (0, 0)
  | .mmaChunkStart => (0, 0)
  | .mmaLanding => (0, 0)
  | .ceLineRequest => (0, 0)
  | .hbmSlotAccess => (0, 0)
  | .hostSlotAccess => (0, 0)
  | .lineLanding => (0, 0)
  | .lateLandingFreeze => (0, 0)
  | .postedWriteCompletion => (0, 0)
  | .completionSignalWrite => (0, 0)
  | .flitHop => (0, 0)
  | .messageArrival => (0, 0)
  | .ratomHomePerform => (0, 0)
  | .ratomReplyLanding => (0, 0)
  | .barrierCompletion => (0, 0)
  | .collResultLanding => (0, 0)
  | .inkwellFill => (0, 0)
  | .inkwellCopy => (0, 0)
  | .inkwellAxpby => (0, 0)
  | .inkwellSgdwf => (0, 0)
  | .inkwellMomwf => (0, 0)
  | .inkwellRqnt => (0, 0)
  | .inkwellDigest => (0, 0)
  | .inkwellStatusLanding => (0, 0)
  | .waitaWake => (0, 0)
  | .tileHalted => (0, 0)
  | .folioCommit => (0, 0)
  | .folioEviction => (0, 0)
  | .penliftOverdue => (0, 0)
  | .launchTimeout => (0, 0)
  | .localHandlerEntry => (0, 0)
  | .trapPostToHost => (0, 0)
  | .probeResolve => (0, 0)
  | .launchRecord => (0, 0)
  | .preemptRecord => (0, 0)
  | .resumeRecord => (0, 0)
  | .tileRelease => (0, 0)
  | .channelClearSweep => (0, 0)
  | .retireTile => (0, 0)
  | .restoreTile => (0, 0)
  | .retireChannel => (0, 0)
  | .retrainGiferLink => (0, 0)
  | .retireGiferLink => (0, 0)
  | .keyRotationComplete => (0, 0)
  | .migratePage => (0, 0)
  | .migrationLineCopy => (0, 0)
  | .signetEvidence => (0, 0)
  | .signetImportKey => (0, 0)
  | .signetGenerateKey => (0, 0)
  | .signetReadCertChain => (0, 0)
  | .warningWindowStart => (0, 0)
  | .ckptStart => (0, 0)
  | .ckptArm => (0, 0)
  | .ckptDisarm => (0, 0)
  | .ckptAbort => (0, 0)
  | .ckptSnapshot => (0, 0)
  | .ckptCopyLine => (0, 0)
  | .debugStop => (0, 0)
  | .debugResume => (0, 0)
  | .debugStopAtCycle => (0, 0)
  | .debugCycleReached => (0, 0)
  | .armBrk => (0, 0)
  | .disarmBrk => (0, 0)
  | .traceCaptureEnd => (0, 0)
  | .snapshotFolio => (0, 0)
  | .snapshotPackage => (0, 0)
  | .fwStage => (0, 0)
  | .fwActivate => (0, 0)
  | .clockStepUp => (0, 0)
  | .nop => ((0x20#7 ++ 0#25 : BitVec 32), 0)
  | .halt => ((0x21#7 ++ 0#25 : BitVec 32), 0)
  | .ifence => ((0x2a#7 ++ 0#25 : BitVec 32), 0)
  | .tret => ((0x2f#7 ++ 0#25 : BitVec 32), 0)
  | .perstAssertion => (0, 0)

/-- Whether a queue's opcode map holds the instruction (R72-R80). -/
def Instr.inQueue : Instr → Queue → Bool
  | .externalResultArrival _ _ _, _ => false
  | .fack _ _, _ => false
  | .lqtailWrite _ _, _ => false
  | .lqownWrite _ _, _ => false
  | .leaseWrite _ _, _ => false
  | .vfReset _, _ => false
  | .tlbinv _ _, _ => false
  | .keyRotationArm _ _, _ => false
  | .scrubVisit _ _, _ => false
  | .ideKmKeyProgram _ _, _ => false
  | .hostCompletionArrival _ _ _ _, _ => false
  | .cxlMemRead _, _ => false
  | .cxlMemWrite _ _ _ _, _ => false
  | .errchWrite _, _ => false
  | .errlnkWrite _, _ => false
  | .traceTriggerNow _, _ => false
  | .profcntLowRead _ _ _, _ => false
  | .bringUp _, _ => false
  | .supplyDroop _, _ => false
  | .giferFlitReceive _ _ _ _, _ => false
  | .registerWrite _ _ _, _ => false
  | .add _ _ _, q => q == .sq || q == .ap || q == .xu
  | .sub _ _ _, q => q == .sq || q == .ap || q == .xu
  | .mul _ _ _, q => q == .sq || q == .ap || q == .xu
  | .mulh _ _ _, q => q == .sq || q == .ap || q == .xu
  | .mulhz _ _ _, q => q == .sq || q == .ap || q == .xu
  | .div _ _ _, q => q == .sq || q == .ap || q == .xu
  | .divz _ _ _, q => q == .sq || q == .ap || q == .xu
  | .rem _ _ _, q => q == .sq || q == .ap || q == .xu
  | .remz _ _ _, q => q == .sq || q == .ap || q == .xu
  | .min _ _ _, q => q == .sq || q == .ap || q == .xu
  | .max _ _ _, q => q == .sq || q == .ap || q == .xu
  | .minz _ _ _, q => q == .sq || q == .ap || q == .xu
  | .maxz _ _ _, q => q == .sq || q == .ap || q == .xu
  | .and _ _ _, q => q == .sq || q == .ap || q == .xu
  | .or _ _ _, q => q == .sq || q == .ap || q == .xu
  | .xor _ _ _, q => q == .sq || q == .ap || q == .xu
  | .andn _ _ _, q => q == .sq || q == .ap || q == .xu
  | .shl _ _ _, q => q == .sq || q == .ap || q == .xu
  | .shr _ _ _, q => q == .sq || q == .ap || q == .xu
  | .sar _ _ _, q => q == .sq || q == .ap || q == .xu
  | .rotl _ _ _, q => q == .sq || q == .ap || q == .xu
  | .neg _ _, q => q == .sq || q == .ap || q == .xu
  | .abs _ _, q => q == .sq || q == .ap || q == .xu
  | .not _ _, q => q == .sq || q == .ap || q == .xu
  | .clz _ _, q => q == .sq || q == .ap || q == .xu
  | .ctz _ _, q => q == .sq || q == .ap || q == .xu
  | .popc _ _, q => q == .sq || q == .ap || q == .xu
  | .brev _ _, q => q == .sq || q == .ap || q == .xu
  | .mov _ _, q => q == .sq || q == .ap || q == .xu
  | .satn _ _ _ _, q => q == .sq || q == .ap || q == .xu
  | .crng16 _ _ _, q => q == .sq || q == .ap || q == .xu
  | .crng32 _ _ _, q => q == .sq || q == .ap || q == .xu
  | .ext _ _ _, q => q == .sq || q == .ap || q == .xu
  | .dep _ _ _, q => q == .sq || q == .ap || q == .xu
  | .addi _ _ _, q => q == .sq || q == .ap || q == .xu
  | .movi _ _, q => q == .sq || q == .ap || q == .xu
  | .movih _ _, q => q == .sq || q == .ap || q == .xu
  | .cmp _ _ _ _, q => q == .sq || q == .ap || q == .xu
  | .cmpi _ _ _ _, q => q == .sq || q == .ap || q == .xu
  | .tst _ _ _ _, q => q == .sq || q == .ap || q == .xu
  | .sel _ _ _ _, q => q == .sq || q == .ap || q == .xu
  | .pand _ _ _, q => q == .sq || q == .ap || q == .xu
  | .por _ _ _, q => q == .sq || q == .ap || q == .xu
  | .pxor _ _ _, q => q == .sq || q == .ap || q == .xu
  | .pnot _ _, q => q == .sq || q == .ap || q == .xu
  | .pmov _ _, q => q == .sq || q == .ap || q == .xu
  | .ppack _, q => q == .sq || q == .ap || q == .xu
  | .punpack _, q => q == .sq || q == .ap || q == .xu
  | .tagset _ _, q => q == .sq || q == .ap || q == .xu
  | .tagget _ _, q => q == .sq || q == .ap || q == .xu
  | .addLong _, q => q == .sq || q == .ap || q == .xu
  | .subLong _, q => q == .sq || q == .ap || q == .xu
  | .mulLong _, q => q == .sq || q == .ap || q == .xu
  | .mulhLong _, q => q == .sq || q == .ap || q == .xu
  | .mulhzLong _, q => q == .sq || q == .ap || q == .xu
  | .divLong _, q => q == .sq || q == .ap || q == .xu
  | .divzLong _, q => q == .sq || q == .ap || q == .xu
  | .remLong _, q => q == .sq || q == .ap || q == .xu
  | .remzLong _, q => q == .sq || q == .ap || q == .xu
  | .minLong _, q => q == .sq || q == .ap || q == .xu
  | .maxLong _, q => q == .sq || q == .ap || q == .xu
  | .minzLong _, q => q == .sq || q == .ap || q == .xu
  | .maxzLong _, q => q == .sq || q == .ap || q == .xu
  | .andLong _, q => q == .sq || q == .ap || q == .xu
  | .orLong _, q => q == .sq || q == .ap || q == .xu
  | .xorLong _, q => q == .sq || q == .ap || q == .xu
  | .andnLong _, q => q == .sq || q == .ap || q == .xu
  | .shlLong _, q => q == .sq || q == .ap || q == .xu
  | .shrLong _, q => q == .sq || q == .ap || q == .xu
  | .sarLong _, q => q == .sq || q == .ap || q == .xu
  | .rotlLong _, q => q == .sq || q == .ap || q == .xu
  | .negLong _, q => q == .sq || q == .ap || q == .xu
  | .absLong _, q => q == .sq || q == .ap || q == .xu
  | .notLong _, q => q == .sq || q == .ap || q == .xu
  | .clzLong _, q => q == .sq || q == .ap || q == .xu
  | .ctzLong _, q => q == .sq || q == .ap || q == .xu
  | .popcLong _, q => q == .sq || q == .ap || q == .xu
  | .brevLong _, q => q == .sq || q == .ap || q == .xu
  | .movLong _, q => q == .sq || q == .ap || q == .xu
  | .satnLong _, q => q == .sq || q == .ap || q == .xu
  | .crng16Long _, q => q == .sq || q == .ap || q == .xu
  | .crng32Long _, q => q == .sq || q == .ap || q == .xu
  | .extLong _, q => q == .sq || q == .ap || q == .xu
  | .depLong _, q => q == .sq || q == .ap || q == .xu
  | .moviLong _, q => q == .sq || q == .ap || q == .xu
  | .movihLong _, q => q == .sq || q == .ap || q == .xu
  | .cmpLong _ _, q => q == .sq || q == .ap || q == .xu
  | .tstLong _ _, q => q == .sq || q == .ap || q == .xu
  | .selLong _, q => q == .sq || q == .ap || q == .xu
  | .waitt _ _, _ => true
  | .sigt _ _, _ => true
  | .pfx _, _ => true
  | .pbr _ _, q => q == .sq
  | .pbrs _ _, q => q == .sq
  | .br _ _ _ _, q => q == .sq
  | .call _ _, q => q == .sq
  | .ret _, q => q == .sq
  | .loopImm _ _ _, q => q == .sq
  | .loopReg _ _ _, q => q == .sq
  | .lbrk _ _ _, q => q == .sq
  | .ovl _, q => q == .sq
  | .penlift _, q => q == .sq
  | .waitc _, q => q == .sq
  | .waitcUntil _, q => q == .sq
  | .trap _, q => q == .sq
  | .rdid _ _, q => q == .sq
  | .rdclk _, q => q == .sq
  | .csrrd _ _, q => q == .sq
  | .csrwr _ _, q => q == .sq
  | .brk _, q => q == .sq
  | .ld _ _ _ _ _, q => q == .ap
  | .st _ _ _ _, q => q == .ap
  | .fence _, q => q == .ap
  | .sfence _ _, q => q == .ap
  | .probe _ _ _, q => q == .ap
  | .unpin _, q => q == .ap
  | .ldLong _, q => q == .ap
  | .stLong _, q => q == .ap
  | .spill _, q => q == .ap
  | .fill _, q => q == .ap
  | .ldx _, q => q == .ap
  | .stx _, q => q == .ap
  | .atomAdd _, q => q == .ap
  | .atomMin _, q => q == .ap
  | .atomMax _, q => q == .ap
  | .atomAnd _, q => q == .ap
  | .atomOr _, q => q == .ap
  | .atomXor _, q => q == .ap
  | .atomXchg _, q => q == .ap
  | .atomCas _, q => q == .ap
  | .atomFadd _, q => q == .ap
  | .atomMinZ _, q => q == .ap
  | .atomMaxZ _, q => q == .ap
  | .ratomAdd _, q => q == .ap
  | .ratomMin _, q => q == .ap
  | .ratomMax _, q => q == .ap
  | .ratomAnd _, q => q == .ap
  | .ratomOr _, q => q == .ap
  | .ratomXor _, q => q == .ap
  | .ratomXchg _, q => q == .ap
  | .ratomCas _, q => q == .ap
  | .ratomFadd _, q => q == .ap
  | .ratomMinZ _, q => q == .ap
  | .ratomMaxZ _, q => q == .ap
  | .waita _ _, q => q == .ap
  | .vadd _, q => q == .xu
  | .vsub _, q => q == .xu
  | .vmul _, q => q == .xu
  | .vfma _, q => q == .xu
  | .vfms _, q => q == .xu
  | .vneg _, q => q == .xu
  | .vabs _, q => q == .xu
  | .vmin _, q => q == .xu
  | .vmax _, q => q == .xu
  | .vcmp _, q => q == .xu
  | .vsel _, q => q == .xu
  | .vcvt _, q => q == .xu
  | .vrcp _, q => q == .xu
  | .vrsq _, q => q == .xu
  | .vsqrt _, q => q == .xu
  | .vexp2 _, q => q == .xu
  | .vlog2 _, q => q == .xu
  | .vsum _, q => q == .xu
  | .vmaxr _, q => q == .xu
  | .vminr _, q => q == .xu
  | .vdot _, q => q == .xu
  | .vclamp _, q => q == .xu
  | .vscl _, q => q == .xu
  | .viadd _, q => q == .xu
  | .visub _, q => q == .xu
  | .vimul _, q => q == .xu
  | .vshl _, q => q == .xu
  | .vshr _, q => q == .xu
  | .vand _, q => q == .xu
  | .vor _, q => q == .xu
  | .vxor _, q => q == .xu
  | .vshuf _, q => q == .xu
  | .vbcast _, q => q == .xu
  | .vslide _, q => q == .xu
  | .vzip _, q => q == .xu
  | .vunzip _, q => q == .xu
  | .dqntSurvey _, q => q == .xu
  | .dqntHead _, q => q == .xu
  | .dqntQ _, q => q == .xu
  | .ddq _, q => q == .xu
  | .dscale _, q => q == .xu
  | .mma _, q => q == .mx
  | .wld _, q => q == .mx
  | .accz _, q => q == .mx
  | .accrd _, q => q == .mx
  | .accwr _, q => q == .mx
  | .accadd _, q => q == .mx
  | .accsc _, q => q == .mx
  | .cpy _, q => q == .ce
  | .cpyh _, q => q == .ce
  | .cpyw _, q => q == .ce
  | .cpyt _, q => q == .ce
  | .gath _, q => q == .ce
  | .scat _, q => q == .ce
  | .cpysf _, q => q == .ce
  | .sigw _, q => q == .ce
  | .bcst _, q => q == .ce
  | .coll _, q => q == .ce
  | .inkc _, q => q == .ce
  | .inkf _, q => q == .ce
  | .timld _, q => q == .ce
  | .send _, q => q == .net
  | .sendi _, q => q == .net
  | .recv _, q => q == .net
  | .recvw _, q => q == .net
  | .bar _, q => q == .net
  | .bara _, q => q == .net
  | .barw _, q => q == .net
  | .privilegedOnChipMapWrite _ _ _, _ => false
  | .stackTemperatureRefreshDemand _ _, _ => false
  | .controlStateParityError _ _ _, _ => false
  | .giferLinkDown _, _ => false
  | .lineDispatch, _ => false
  | .crossingWordCompletion, _ => false
  | .targetBufferFill, _ => false
  | .sliceWriteLanding, _ => false
  | .nevWindowStart, _ => false
  | .waitcDelayExpiry, _ => false
  | .mmaChunkStart, _ => false
  | .mmaLanding, _ => false
  | .ceLineRequest, _ => false
  | .hbmSlotAccess, _ => false
  | .hostSlotAccess, _ => false
  | .lineLanding, _ => false
  | .lateLandingFreeze, _ => false
  | .postedWriteCompletion, _ => false
  | .completionSignalWrite, _ => false
  | .flitHop, _ => false
  | .messageArrival, _ => false
  | .ratomHomePerform, _ => false
  | .ratomReplyLanding, _ => false
  | .barrierCompletion, _ => false
  | .collResultLanding, _ => false
  | .inkwellFill, _ => false
  | .inkwellCopy, _ => false
  | .inkwellAxpby, _ => false
  | .inkwellSgdwf, _ => false
  | .inkwellMomwf, _ => false
  | .inkwellRqnt, _ => false
  | .inkwellDigest, _ => false
  | .inkwellStatusLanding, _ => false
  | .waitaWake, _ => false
  | .tileHalted, _ => false
  | .folioCommit, _ => false
  | .folioEviction, _ => false
  | .penliftOverdue, _ => false
  | .launchTimeout, _ => false
  | .localHandlerEntry, _ => false
  | .trapPostToHost, _ => false
  | .probeResolve, _ => false
  | .launchRecord, _ => false
  | .preemptRecord, _ => false
  | .resumeRecord, _ => false
  | .tileRelease, _ => false
  | .channelClearSweep, _ => false
  | .retireTile, _ => false
  | .restoreTile, _ => false
  | .retireChannel, _ => false
  | .retrainGiferLink, _ => false
  | .retireGiferLink, _ => false
  | .keyRotationComplete, _ => false
  | .migratePage, _ => false
  | .migrationLineCopy, _ => false
  | .signetEvidence, _ => false
  | .signetImportKey, _ => false
  | .signetGenerateKey, _ => false
  | .signetReadCertChain, _ => false
  | .warningWindowStart, _ => false
  | .ckptStart, _ => false
  | .ckptArm, _ => false
  | .ckptDisarm, _ => false
  | .ckptAbort, _ => false
  | .ckptSnapshot, _ => false
  | .ckptCopyLine, _ => false
  | .debugStop, _ => false
  | .debugResume, _ => false
  | .debugStopAtCycle, _ => false
  | .debugCycleReached, _ => false
  | .armBrk, _ => false
  | .disarmBrk, _ => false
  | .traceCaptureEnd, _ => false
  | .snapshotFolio, _ => false
  | .snapshotPackage, _ => false
  | .fwStage, _ => false
  | .fwActivate, _ => false
  | .clockStepUp, _ => false
  | .nop, q => q == .sq
  | .halt, q => q == .sq
  | .ifence, q => q == .sq
  | .tret, q => q == .sq
  | .perstAssertion, _ => false

/-- The first queue, in the order of R41, whose map gives two words an instruction (log 4). -/
def decodeFirst (w0 w1 : Word) : Option (Queue × Instr) :=
  let go (q : Queue) (rest : Option (Queue × Instr)) : Option (Queue × Instr) :=
    match decode q w0 w1 with
    | .ok i => some (q, i)
    | .error _ => rest
  go .sq (go .ap (go .xu (go .ce (go .mx (go .net none)))))

/-- The instruction of the table's bits: bit 0 is the least significant bit of the first word (log 4). -/
def decodeTableWord (nbits w : Nat) : Option Instr :=
  let v := w % 2 ^ nbits
  let w0 : Word := BitVec.ofNat 32 v
  let w1 : Word := BitVec.ofNat 32 (v >>> 32)
  (decodeFirst w0 w1).map Prod.snd

end Sys2Proof
end

