-- ==== Sys2Proof/Config.lean ====
section
/-! DEFINITION. What an implementation fixes and the free values: constants without a body, so that no
statement can rest on their values (log 7, 8). -/

namespace Sys2Proof.Config

/-- Tiles that the fuses name as defective (R15); at most 64 of them count (log 8). -/
opaque fuseDefects : List (Nat × Nat)

/-- The Falcon-1024 signature of a message under the key with the given identifier (R449, log 8). -/
opaque falconSign : Nat → List Byte → List Byte

/-- Whether a firmware image's Falcon-1024 signature verifies (R515, log 8). -/
opaque firmwareSigned : List Byte → Bool

/-- The version a firmware image carries (R515, log 8). -/
opaque firmwareVersion : List Byte → BitVec 32

/-- The alias key that Signet derives from a measurement (R449), as a key identifier (log 8). -/
opaque aliasKey : List Byte → Nat

/-- The identity public key of Signet (R449, log 8). -/
opaque identityKey : List Byte

/-- The certificate chain that Signet op 4 returns (R451, log 8). -/
opaque certChain : Nat → List Byte

/-- The key pair that a key import buffer holds, where it decrypts under the session of R448: the encryption key in the low half,
the key of the integrity tag in the high half (log 8). -/
opaque importedKey : List Byte → Option (BitVec 512)

/-- The n-th key pair that Signet makes (R452, R453), laid out alike (log 8). -/
opaque freshKey : Nat → BitVec 512

/-- One-way latency that a Gifer Link measures at bring-up (R507, log 8). -/
opaque linkLatency : Nat → Nat

/-- The larger of the two ends' GPAD for a link (R507): the peer's own value (log 8). -/
opaque peerPad : Nat → Nat

/-- The firmware image that the boot ROM loads (R513, log 8). -/
opaque bootFirmware : List Byte

/-- Bytes of a firmware image in host memory (R515, log 8). -/
opaque firmwareBytes : Nat

/-- The physical package at the far end of a link, as its training reports it (R508, log 8). -/
opaque peerPackage : Nat → BitVec 16

/-- What a host makes of a line that reaches it as a poisoned write: its 64 bytes as the host then holds them (R476, log 25). -/
opaque poisonedWrite : Nat → Nat

/-- Whether a retrained link meets the latency it has carried (R429), by a counter of free values (log 7). -/
opaque retrainOk : Nat → Bool

/-- Which of the three block sizes a block-form copy takes for a header whose format code is no block format (R373, log 22):
the number modulo 3. -/
opaque strayBlock : Nat → Nat

/-- Which of two colliding writers of cause 18 the trap state names first, in bits 15:12 of TINFO and 63:32 of TINFO2
(R473, log 24): whether it is the one of the higher number, by the two writers and their issue cycles. -/
opaque higherWriterLow : Nat → Nat → Nat → Nat → Bool

end Sys2Proof.Config
end

