-- ==== Sys2Proof/Machine/State.lean ====
section
/-! DEFINITION. The state of the machine as plain data: the stores of a tile (R18), the folio that runs on one
clock-enable (R120), the hub with its registers (R160-R170, R419-R453, R469-R515), and the reset state. Every
number that counts, indexes or names a cycle is a natural number; what software sees as a word is a bit vector. -/

namespace Sys2Proof.Machine

/-- Bytes by address: strictly rising addresses, no listed zero (log 2). -/
abbrev Memory := List Host.Cell

/-- Why a step stops without a next state. -/
inductive Fault where
  /-- Raised by the meaning of a tile's step when the cursor names no tile of a running folio: no such step exists
  on the hardware (R120). Safe: the hardware takes no such step. -/
  | noTile
  deriving DecidableEq, Repr

/-- Why a step is refused. -/
inductive Refusal where
  /-- An instruction of the table that the model gives no meaning. Safe. -/
  | notModelled (mnemonic : String)
  deriving DecidableEq, Repr

/-- The ten rounding choices of an instruction: mode 0-5 and saturation (R189). -/
structure Rnd where
  rm : Nat
  sat : Bool
  deriving DecidableEq, Repr, Inhabited

/-- A target register: the line it holds (outside 0-4095 when marked invalid, R143), the cycle in which its buffer began
to fill, and whether the buffer has been filled (R138). -/
structure Target where
  line : Int
  filled : Int
  full : Bool
  deriving DecidableEq, Repr, Inhabited

/-- A hardware loop level (R146): opened is the issue cycle of its LOOP (R147). -/
structure Loop where
  act : Bool
  count : Nat
  first : Nat
  last : Nat
  opened : Nat
  deriving DecidableEq, Repr, Inhabited

/-- A fault marker in an entry: its cause, the fault information and the PFX-independent position (R51). -/
structure Marker where
  cause : Nat
  info : Nat
  deriving DecidableEq, Repr, Inhabited

/-- One queue entry (R17): where its first word stands, its place in fetch order (R44), its raw words, the cycle of
its dispatch (R137), and the places in fetch order of the CE instructions whose follow-on flag armed it (R296). -/
structure Entry where
  line : Nat
  lane : Nat
  seq : Nat
  w0 : Word
  w1 : Word
  disp : Nat
  marker : Option Marker
  arms : List Nat
  deriving DecidableEq, Repr, Inhabited

/-- A line of the sequential prefetch buffer (R137), with the cycle of its read and whether TIM's protection found it
uncorrectable (R475). -/
structure PreLine where
  line : Nat
  bits : Line
  readAt : Nat
  bad : Bool
  deriving DecidableEq, Repr, Inhabited

/-- A 64-bit instruction whose second word the next sequential line owes (R48). -/
structure Owe where
  q : Queue
  line : Nat
  lane : Nat
  seq : Nat
  w0 : Word
  arms : List Nat
  deriving DecidableEq, Repr, Inhabited

/-- A crossing word that a redirect left (R50): the word, the cycle in which the next sequential line is read for its
second half, and that line once it has been read. -/
structure Cross where
  owe : Owe
  from_ : Nat
  got : Option PreLine
  deriving DecidableEq, Repr, Inhabited

/-- The fetch unit (R137-R150). direct: lines still to be dispatched from a target, loop or exit buffer, not before
directAt; buf: the prefetch buffer; nextRead: the next sequential line to read, not before readFrom; ahead: that line as
TIM held it before the writes of this cycle (R28), which a read in cycle renewAt, an IFENCE's, does not use (R150); cross:
words whose second half lane 1 of the next sequential line completes (R50); ifence: dispatched IFENCEs that await issue
(R150); flags: CE entries with a follow-on flag since the last MX entry (R296). -/
structure Fetch where
  seqCtr : Nat
  direct : List Nat
  directAt : Nat
  buf : List PreLine
  nextRead : Nat
  running : Bool
  owe : Option Owe
  cross : List Cross
  readFrom : Nat
  ahead : Option PreLine
  renewAt : Nat
  ifence : Nat
  flags : List Nat
  deriving DecidableEq, Repr, Inhabited

/-- What a pending write changes when it lands (R86, R99, R156). -/
inductive PendDest where
  | slices (start count value : Nat) (tag : BitVec 5)
  | preds (mask value : BitVec 16)
  | tag (granule : Nat) (tag : BitVec 5)
  | csr (num : Nat) (value : Dword)
  | target (i : Nat) (t : Target)
  | winb (base : Nat)
  | slot (i : Nat) (v w : Bool) (size : Nat) (host : Bool) (vpn : Nat) (pa : Nat)
  | nothing
  deriving DecidableEq, Repr, Inhabited

/-- A write that has been issued and has not landed (R88). writer: 1-6 a queue of the tile, 7 the CE of another
tile, 8 message delivery (R473, cause 18); src tells the outside tiles apart (R91), 0 for a writer of the tile itself.
hand: counted in handler cycles (R465). events: numerical events of the landing cycle by class (R199). -/
structure PendWrite where
  land : Nat
  issue : Nat
  writer : Nat
  hand : Bool
  dest : PendDest
  events : List (Nat × Nat)
  src : Nat := 0
  deriving DecidableEq, Repr, Inhabited

/-- The operations of ATOM and RATOM (R346). -/
inductive AtomOp where
  | add | min | max | and | or | xor | xchg | cas | fadd | minz | maxz
  deriving DecidableEq, Repr, Inhabited

/-- A pending access of the AP (R334). A load writes width bits from its first slice on; an atomic carries its operand or
CAS's expected and new values, its rounding and its draw (R193). -/
inductive ApKind where
  | load (addr nb vs width : Nat) (sign : Bool)
  | store (addr nb value : Nat)
  | atom (op : AtomOp) (addr w vs opA opB : Nat) (rnd : Rnd) (u : Nat)
  deriving DecidableEq, Repr, Inhabited

/-- An AP access between its issue and its performing cycle (R334), with its class and position. -/
structure ApAcc where
  perf : Nat
  issue : Nat
  cls : Nat
  line : Nat
  lane : Nat
  hand : Bool
  kind : ApKind
  deriving DecidableEq, Repr, Inhabited

/-- What the home answered to a remote atomic: the old word, or poison; the events to count (R350, R352). -/
structure RatomReply where
  value : Nat
  poison : Bool
  events : List (Nat × Nat)
  bad : Bool := false
  deriving DecidableEq, Repr, Inhabited

/-- A remote atomic between issue and landing (R350, R351); homed is the cycle in which its home has performed it. -/
structure Ratom where
  id : Nat
  issue : Nat
  land : Nat
  cls : Nat
  own : Bool
  addr : Nat
  w : Nat
  vs : Nat
  reply : Option RatomReply
  homed : Option Nat := none
  deriving DecidableEq, Repr, Inhabited

/-- A sleeping WAITA (R353). -/
structure Sleep where
  line : Nat
  lane : Nat
  w0 : Word
  w1 : Word
  issue : Nat
  cond : Cond
  addr : Nat
  cmp : Nat
  cls : Nat
  deriving DecidableEq, Repr, Inhabited

/-- The access processor's own state: accesses in flight and the cycle before which nothing more issues (R353). -/
structure Ap where
  accs : List ApAcc
  ratoms : List Ratom
  sleep : Option Sleep
  notBefore : Nat
  deriving DecidableEq, Repr, Inhabited

/-- What a mesh flit carries (R131): a line of a CE command, a message, a remote atomic's request or reply. -/
inductive Payload where
  | line (cmd idx : Nat)
  | message (ch width value issue cls : Nat)
  | request (id : Nat) (op : AtomOp) (addr w opA opB u : Nat) (rnd : Rnd)
  | reply (id value : Nat) (poison : Bool) (events : List (Nat × Nat))
  | share (num line : Nat)
  deriving DecidableEq, Repr, Inhabited

/-- A flit: sender and remaining targets in the abstract frame, the cycle from which it may move (R131), its payload;
bad marks an uncorrectable flit (R475). -/
structure Flit where
  srcX : Nat
  srcY : Nat
  tgts : List (Nat × Nat)
  born : Nat
  pay : Payload
  bad : Bool
  deriving DecidableEq, Repr, Inhabited

/-- A tile's router: four input buffers by the side a flit came from, the injection queue, and the flits that the
ejection output granted in the last cycle (R132). -/
structure Router where
  negX : List Flit
  posX : List Flit
  negY : List Flit
  posY : List Flit
  inj : List Flit
  out : List Flit
  deriving DecidableEq, Repr, Inhabited

/-- One direction of a row's seam link: twenty stages, the last one nearest the far router (R132). -/
structure SeamLane where
  row : Nat
  east : Bool
  stages : List (Option Flit)
  deriving DecidableEq, Repr, Inhabited

/-- A message that has arrived on a channel; ord counts the channel's messages (R391), came is the cycle of its arrival
(R172), bad marks its flit as uncorrectable (R475). -/
structure Msg where
  ord : Nat
  width : Nat
  value : Nat
  srcX : Nat
  srcY : Nat
  came : Nat := 0
  bad : Bool := false
  deriving DecidableEq, Repr, Inhabited

/-- A message channel (R391): arrivals and receives so far, the messages that wait, and how many stood in it when the
cycle's arrivals had joined and none had been received (R132). -/
structure Channel where
  arrived : Nat
  taken : Nat
  msgs : List Msg
  held : Nat
  deriving DecidableEq, Repr, Inhabited

/-- A receive between issue and landing (R391). -/
structure Recv where
  ch : Nat
  ord : Nat
  vs : Nat
  w : Nat
  cls : Nat
  issue : Nat
  land : Nat
  deriving DecidableEq, Repr, Inhabited

/-- The network interface's own state (R389-R392): bars holds, per barrier, the cycle of an arrival not yet completed, hold
the barrier of a BAR that later entries wait for. -/
structure Net where
  router : Router
  chans : Vector Channel 16
  recvs : List Recv
  bars : Vector (Option Nat) 32
  hold : Option Nat
  deriving DecidableEq, Repr, Inhabited

/-- The completion signal word of a descriptor (R369, R370). -/
structure Signal where
  fx : Nat
  fy : Nat
  off : Nat
  value : Nat
  deriving DecidableEq, Repr, Inhabited

/-- A signal word under way on the signal lane (R370), with the tile and unit that sent it (R495). -/
structure SignalFlight where
  land : Nat
  sig : Signal
  srcX : Nat
  srcY : Nat
  unit : Nat
  deriving DecidableEq, Repr, Inhabited

/-- How a line of a CE command moves: on the mesh, from or to a virtual address, into the buffer of a block copy, or in
an Inkwell lane (R364, R373, R385). -/
inductive Route where
  | mesh | read | write | blockRead | inkRead | inkWrite
  deriving DecidableEq, Repr, Inhabited

/-- A line of a command under way (R362-R365). start: its request cycle on the mesh, else the start of its slot; land:
when it lands or completes; pa: the physical address of its virtual side; off: the window offset of its on-chip side;
poison: marked 8-byte words; targets: tiles in the abstract frame; got: those whose flit has arrived; outside: the
number under which a host read awaits its completion; bad: the targets whose landing buffer holds it uncorrectable (R475). -/
structure CeLine where
  cmd : Nat
  idx : Nat
  route : Route
  start : Nat
  land : Nat
  pa : Nat
  off : Nat
  len : Nat
  data : Nat
  poison : Nat
  targets : List (Nat × Nat)
  got : List (Nat × Nat)
  outside : Option Nat
  bad : List (Nat × Nat) := []
  deriving DecidableEq, Repr, Inhabited

/-- Bytes that an access touches (R311): place 0 is virtual memory by physical address, place n + 1 tile n of the folio. read: a
copy reads them from virtual memory; lane: they are lines of an Inkwell command (R326). -/
structure Extent where
  place : Nat
  first : Nat
  len : Nat
  read : Bool := false
  lane : Bool := false
  deriving DecidableEq, Repr, Inhabited

/-- A block of a block-form copy: its first line in the command, its lines, its source address and the format that its
header named at issue (R373). -/
structure BlockAt where
  first : Nat
  lines : Nat
  addr : Nat
  fmt : Nat
  deriving DecidableEq, Repr, Inhabited

/-- A block-form copy under way (R373, R374). rnext: the next line of a chained read and its ready cycle; buf: lines read;
wq: lines to write in writer order with the first cycle in which each may be ready; wnext: the cycle after the last
write's slot. -/
structure BlockCopy where
  blocks : List BlockAt
  virtSrc : Bool
  virtDst : Bool
  transpose : Bool
  rnext : Option (Nat × Nat)
  buf : List (Nat × Nat × Nat)
  wq : List (Nat × Nat × Nat × Nat)
  wnext : Nat
  deriving DecidableEq, Repr, Inhabited

/-- An item of an Inkwell command (R384, R385): a line index, a block or the whole digest; data read so far, latest read
slot, reads still to perform, and how many of its writes have been requested. -/
structure InkItem where
  item : Nat
  got : List (Nat × Nat)
  latest : Nat
  left : Nat
  sent : Nat := 0
  deriving DecidableEq, Repr, Inhabited

/-- An Inkwell command (R383-R388): items under way, the first item that is not written with its
result, the latest performed read and write slots, the classes of events that arose. -/
structure Ink where
  items : List InkItem
  fail : Option (Nat × Nat)
  lastRead : Option Nat
  lastWrite : Option Nat
  ev : List Nat
  deriving DecidableEq, Repr, Inhabited

/-- What a CE command is beside its lines. -/
inductive CeKind where
  | plain
  | block (b : BlockCopy)
  | ink (i : Ink)
  | coll (num : Nat)
  deriving DecidableEq, Repr, Inhabited

/-- A CE command between issue and the end of its completion cycle (R361-R388). desc: its descriptor; q0 and total: its
requests (R362); left: lines whose last cycle is not yet known; perf: the latest performing cycle known; fin: the latest
end known; e: the completion cycle once known; stop: the first line that does not move; fault: the faults of blocks to
raise at e with their addresses (R373, R461); dstart: the first slice of its descriptor (R489); sland: the landing cycle of
its completion signal word once it has been sent (R370). -/
structure CeCmd where
  id : Nat
  seq : Nat
  line : Nat
  lane : Nat
  issue : Nat
  fn : Nat
  cls : Nat
  mod : Nat
  desc : Nat
  q0 : Nat
  total : Nat
  own : Bool
  sig : Option Signal
  targets : List (Nat × Nat)
  exts : List Extent
  left : Nat
  perf : Nat
  fin : Nat
  e : Option Nat
  stop : Option Nat
  fault : List (Nat × Nat)
  kind : CeKind
  dstart : Nat := 0
  sland : Option Nat := none
  deriving DecidableEq, Repr, Inhabited

/-- A member's share of a collective (R381, R382): its number, what must agree, its issue and landing cycles, the cycle
of its read, its bytes with their marks, its rounding and the seed of its draws. -/
structure Share where
  num : Nat
  key : Nat
  issue : Nat
  land : Nat
  q0 : Nat
  dst : Nat
  data : Nat
  marks : List Nat
  read : Bool
  rnd : Rnd
  isat : Bool
  seed : Dword
  deriving DecidableEq, Repr, Inhabited

/-- A slot cursor: the absolute number (rotation by 512 or 32, plus slot) of the last slot bound on an abstract channel
(R363); 0xFFFF names the host slots. No cursor: before slot 0 of rotation 0. -/
structure SlotCursor where
  ch : Nat
  last : Nat
  deriving DecidableEq, Repr, Inhabited

/-- The copy engine (R361-R388): nextId numbers commands, lastReq is the first cycle in which the request stage is free,
collSeq counts collectives, sigFree is the first cycle in which a signal word may be sent, sigLand the cycle in which the
latest completion signal lands (R370); parts are the lines of other members' contributions that have arrived, as number of
the collective, sender's coordinates and line (R122, R382). -/
structure Ce where
  nextId : Nat
  lastReq : Nat
  cmds : List CeCmd
  lines : List CeLine
  cursors : List SlotCursor
  collSeq : Nat
  shares : List Share
  sigFree : Nat
  sigLand : Nat
  parts : List (Nat × Nat × Nat × Nat) := []
  deriving DecidableEq, Repr, Inhabited

/-- A located record of operand B (R517). -/
structure Rec where
  start : Nat
  size : Nat
  form : Nat
  deriving DecidableEq, Repr, Inhabited

/-- What one chunk of an MMA read at its start (R289): operand bytes, or the fault found (R294). -/
structure Chunk where
  a : Nat
  b : Nat
  form : Nat
  fault : Option (Nat × Nat × Nat)
  deriving DecidableEq, Repr, Inhabited

/-- A running MMA (R289): chunks already started hold what they read; t is the chunk time, path that of R277 (0 narrow
float, 1 integer, 2 FP32, 3 FP64, 4 none); recs the records located at issue, noSize the first without a size (R517). -/
structure Mma where
  line : Nat
  lane : Nat
  w0 : Word
  w1 : Word
  issue : Nat
  cls : Nat
  debit : Nat
  acc : Nat
  fa : Nat
  fb : Nat
  n : Nat
  sp : Nat
  wb : Nat
  ablk : Bool
  path : Nat
  sat : Bool
  t : Nat
  recs : List Rec
  noSize : Option Nat
  chunks : List Chunk
  lastStart : Nat
  deriving DecidableEq, Repr, Inhabited

/-- A pending write of MX (R297): into an accumulator, into SPAD or into WBUF with its form. -/
inductive MxDest where
  | acc (k value : Nat)
  | spad (off len value : Nat)
  | wbuf (off len value form : Nat)
  deriving DecidableEq, Repr, Inhabited

/-- A pending MX instruction's landing (R295); poison: the cause and offset that it raises instead (R294). -/
structure MxPend where
  land : Nat
  issue : Nat
  cls : Nat
  dest : MxDest
  events : List (Nat × Nat)
  poison : Option (Nat × Nat)
  deriving DecidableEq, Repr, Inhabited

/-- The matrix engine (R276-R306): the ports are free from a cycle on, the array when no MMA runs. -/
structure Mx where
  mma : Option Mma
  pend : List MxPend
  wportFree : Nat
  aportFree : Nat
  deriving DecidableEq, Repr, Inhabited

/-- A slot of the window table with the page's physical address, which no program sees (R356). -/
structure Window where
  v : Bool
  w : Bool
  size : Nat
  host : Bool
  vpn : Nat
  pa : Nat
  deriving DecidableEq, Repr, Inhabited

/-- An entry of an L2 TLB slice (R437). -/
structure Tlb where
  vpn : Nat
  pa : Nat
  size : Nat
  w : Bool
  host : Bool
  deriving DecidableEq, Repr, Inhabited

/-- A raised trap before it is recorded (R460, R461). -/
structure Raise where
  cause : Nat
  inst : Bool
  line : Nat
  lane : Nat
  queue : Nat
  info : Nat
  info2 : Nat
  arg : Nat
  cls : Nat
  deriving DecidableEq, Repr, Inhabited

/-- The trap CSRs of R464; ret: TRET has issued in this cycle of the handler. -/
structure TrapCsrs where
  tcause : Dword
  tcyc : Dword
  tpos : Dword
  targ : Dword
  tinfo : Dword
  tinfo2 : Dword
  tvec : Dword
  tloc0 : Dword
  tloc1 : Dword
  act : Bool
  skip : Bool
  hcyc : Nat
  ret : Bool
  deriving DecidableEq, Repr, Inhabited

/-- The remaining CSRs of a tile (R102, R133, R158, R198, R287, R350, R392). -/
structure Csrs where
  sbmode : Bool
  sp : BitVec 20
  splim : BitVec 20
  ebal : Nat
  erate : Nat
  ecap : Nat
  hlat : Nat
  ovcur : Nat
  ovbase : Dword
  ovt : Vector Dword 256
  fpctl : BitVec 4
  rseed : Dword
  nevcfg : Vector Dword 6
  nevcnt : Vector Dword 6
  mxctl : BitVec 12
  ralat : Nat
  barph : BitVec 32
  deriving DecidableEq, Repr, Inhabited

/-- The slice file with its tags, and the predicates (R82, R94, R99). -/
structure Slices where
  sf : BitVec 16384
  tags : BitVec 1280
  preds : BitVec 16
  bad : List Nat
  deriving DecidableEq, Repr, Inhabited

/-- The byte stores of a tile by window offset (R22), the marks of their protection words (R339, R474) and the form
map of WBUF (R281). poison, bad and soft (correctable) list word numbers (offset div 8), badTim lists lines; cor counts the
corrected errors of SPAD (R474). -/
structure Stores where
  mem : Memory
  poison : List Nat
  bad : List Nat
  badTim : List Nat
  forms : BitVec 2048
  soft : List Nat := []
  cor : Nat := 0
  deriving DecidableEq, Repr, Inhabited

/-- What the image gives a tile beside its stores: live maps, pen-lift lines with their maps, the halt map and the
trailer masks of overlays (R112, R113, R153). An item is store, accumulator, start, length. -/
structure TileTables where
  livemaps : List (Nat × List (Nat × Nat × Nat × Nat))
  penlifts : List (Nat × Nat × Nat)
  haltMap : Option Nat
  trailers : List (Nat × Nat)
  deriving DecidableEq, Repr, Inhabited

/-- The control state of a tile that a local handler shadows (R465). lost numbers the flagged copies that have trapped: an
entry that they arm never issues (R296). -/
structure Control where
  queues : Vector (List Entry) 6
  headAt : Vector (Option Nat) 6
  fetch : Fetch
  btgt : Vector Target 8
  loops : Vector Loop 4
  winb : Nat
  pfx : Option (Queue × Pfx)
  notBefore : Nat
  lost : List Nat := []
  deriving DecidableEq, Repr, Inhabited

/-- Counters of snapshots and profiles (R496, R497): issues per queue, holds for scoreboard, energy, token and fence, slots
used and missed per channel, late landings, flits per port, grants lost to contention, the totals at the last cycle's end,
and the eight selected counters. -/
structure Prof where
  issues : Vector Nat 6
  holdSb : Nat
  holdEnergy : Nat
  holdToken : Nat
  holdFence : Nat
  slots : List (Nat × Nat × Nat)
  late : Nat
  flits : Vector Nat 5
  lost : Nat
  last : Vector Nat 12
  cnt : Vector Dword 8
  deriving DecidableEq, Repr, Inhabited

/-- Bytes written by an agent, for the wait log (R495): first offset, length, the writer's tile and unit. -/
structure Wrote where
  first : Nat
  len : Nat
  fx : Nat
  fy : Nat
  unit : Nat
  deriving DecidableEq, Repr, Inhabited

/-- A tile of a folio (R16). halting: HALT has issued; halted: R142; penNow: a PENLIFT of this cycle with its map, line and lane; brkNow: an armed
BRK (R488) with its line, lane and code; raises: causes of this cycle; avail, blocked and granted: the cycle's energy and
tokens (R135, R151); apGo: a fence or UNPIN at the head of AP may issue; sigs: SIGT of this cycle; evNow: numerical events of
this cycle by queue and issue cycle (R199); note: classes, queue and issue cycle of a notification to be written (R472); probe: slot, address, destination and issue cycle of a PROBE that the hub has not resolved; wrote: program
SPAD bytes written in this cycle, setters: the last writers while the wait log is on, sigBy: the queue of each token's last
SIGT (R494, R495); fenced: queues before AP that hold for a fence which may issue in this cycle (R354). -/
structure Tile where
  ctl : Control
  slices : Slices
  stores : Stores
  tok : Vector Nat 8
  csr : Csrs
  trap : TrapCsrs
  wins : Vector Window 32
  tlb : List Tlb
  pend : List PendWrite
  ap : Ap
  ce : Ce
  mx : Mx
  net : Net
  tables : TileTables
  shadow : Option Control
  halting : Bool
  halted : Bool
  penNow : Option (Nat × Nat × Nat)
  brkNow : Option (Nat × Nat × Nat)
  raises : List Raise
  avail : Nat
  blocked : Bool
  granted : List Queue
  apGo : Bool
  sigs : List (Nat × Nat × Nat)
  evNow : List (Nat × Nat × List (Nat × Nat))
  note : Option (Nat × Nat × Nat)
  prof : Prof
  probe : Option (Nat × Nat × Nat × Nat)
  wrote : List Wrote
  setters : List Wrote
  sigBy : Vector Nat 8
  fenced : List Queue := []
  deriving DecidableEq, Repr, Inhabited

/-- The freeze causes of R121, and the freeze of a folio whose trap is posted (R471). -/
structure Freeze where
  late : Bool
  probe : Bool
  preempt : Bool
  debug : Bool
  handler : Bool
  posted : Bool
  deriving DecidableEq, Repr, Inhabited

/-- A calendar entry (R112, type 9): a channel or host (0xFFFF), first and last slot, tile. -/
structure CalEntry where
  ch : Nat
  first : Nat
  last : Nat
  fx : Nat
  fy : Nat
  deriving DecidableEq, Repr, Inhabited

/-- Where a folio stands and whose it is (R411, R423, R427). chans: the job's leased channels as abstract and physical
number (R420). -/
structure Place where
  idx : Nat
  w : Nat
  h : Nat
  seam : Nat
  orient : Nat
  px0 : Nat
  py0 : Nat
  func : Nat
  chans : List (Nat × Nat)
  deriving DecidableEq, Repr, Inhabited

/-- What the launch record gave (R162), with the epoch of its queue. -/
structure Launch where
  queue : Nat
  recNo : Nat
  irq : Bool
  job : BitVec 32
  image : Dword
  length : Nat
  domain : Nat
  phase : BitVec 32
  members : Nat
  hmask : BitVec 32
  lpkg : BitVec 16
  save : Dword
  timeout : Nat
  epoch : Nat := 0
  deriving DecidableEq, Repr, Inhabited

/-- A pending stop by a pre-empt record of a queue, with its evict flag (R171). -/
structure Stop where
  evict : Bool
  queue : Nat
  recNo : Nat
  irq : Bool
  phase : BitVec 32
  epoch : Nat := 0
  acted : Bool := false
  deriving DecidableEq, Repr, Inhabited

/-- Where an in-flight item's data stand in the state (R489): a pending write, a line, a reply, an access of the AP, a pending
write of MX or a signal word by its place in its list, or a message by its channel and number; fixed, what a resume does not put
back. -/
inductive ItemRef where
  | pend (n : Nat)
  | line (n : Nat)
  | reply (n : Nat)
  | acc (n : Nat)
  | mx (n : Nat)
  | msg (ch ord : Nat)
  | signal (n : Nat)
  | fixed
  deriving DecidableEq, Repr

/-- The debug state of a folio (R488-R491); items: what the dump entries of each tile stand for, as the stop found it. -/
structure Debug where
  brkArmed : Bool
  stopAt : Option Nat
  stopReq : Option Nat
  source : Nat
  state : Nat
  cnt : Nat
  ovf : Bool
  items : List (List ItemRef) := []
  deriving DecidableEq, Repr, Inhabited

/-- The capture block of a folio (R492-R495): written counts the trace's entries, left those still to be written after
the trigger, logged the entries of the wait log. -/
structure Capture where
  trbase : Dword
  trsel : Dword
  trtrig : Dword
  wp : Vector Dword 8
  wlbase : Dword
  wlmin : Dword
  written : Nat
  left : Option Nat
  trigAt : Nat
  logged : Nat
  done : Bool
  deriving DecidableEq, Repr, Inhabited

/-- The profiling block of a folio (R497). -/
structure ProfBlock where
  cfg : Dword
  sel : Dword
  tile : BitVec 16
  newCfg : Option Dword
  newSel : Option Dword
  newTile : Option (BitVec 16)
  deriving DecidableEq, Repr, Inhabited

/-- A folio (R30, R120): its tiles in the order fy*W + fx and its cycle; stops: pre-empt records that have not acted; held: held in place after a pen-lift point; ckStop: a checkpoint's
stop is pending or has acted (R484); lastPen:
the last pen-lift point; penDue: a stop of that point waits for local handlers (R468); barLast: the tile of each barrier's last arrival; barFlips: barriers that completed in this cycle;
trapped: its trap has been posted (R471), with cause; turns: flits sent to each other package, whose links take turns (R509). -/
structure Folio where
  place : Place
  launch : Launch
  calendar : List CalEntry
  tiles : List Tile
  seams : List SeamLane
  cycle : Nat
  freeze : Freeze
  stops : List Stop
  ckStop : Bool
  held : Bool
  lastPen : Nat
  penDue : Bool := false
  turns : List (Nat × Nat) := []
  barLast : Vector (Nat × Nat) 32
  barFlips : List Nat
  signals : List SignalFlight
  dbg : Debug
  cap : Capture
  prof : ProfBlock
  trapped : Bool
  cause : Nat := 0
  deriving DecidableEq, Repr, Inhabited

/-- Which folio (by placement index), tile and queue the next step acts on (log 3). -/
structure Cursor where
  folio : Nat
  tile : Nat
  queue : Queue
  func : Nat
  deriving DecidableEq, Repr, Inhabited

/-- The stages of a cycle that are no row of the opcode table (log 3), in the order of a folio's cycle, then those of a
handler's cycle (R465). -/
inductive Stage where
  | start | grant | writes | finish | settle | hand | handWrites | handEnd
  deriving DecidableEq, Repr

/-- What is still to be done in the current cycle (log 3): a row of the table at a cursor, the issue of a queue's head, the same for one
that a fence held before AP's turn (R354), a
stage of a folio's cycle, a service command that still waits (R414), or the hub's part of a tick. -/
inductive Slot where
  | act (c : Cursor) (i : Instr)
  | issue (c : Cursor)
  | reissue (c : Cursor)
  | stage (p : Stage) (f : Nat)
  | service
  | hub
  deriving DecidableEq, Repr

/-- A launch queue's registers (R160) with its owner (R161); since is when its head became eligible
(R165); early holds completions that wait for their order, with the interrupt flag and the phase domain to count; epoch counts
the times that its records have begun anew from 0 (R160, R161). -/
structure LaunchQueue where
  q : Nat
  owner : Nat
  base : Dword
  log : Nat
  tail : BitVec 32
  head : BitVec 32
  weight : Nat
  level : Nat
  cbase : Dword
  done : BitVec 32
  en : Bool
  since : Option Nat
  early : List (Nat × BitVec 256 × Bool × Nat)
  epoch : Nat := 0
  deriving DecidableEq, Repr, Inhabited

/-- The arbiter of R166: ptr per level, run per level and queue, the queue that a level-7 launch record blocks for (R167), the record
granted last. -/
structure Arbiter where
  ptr : Vector Nat 8
  run : List (Nat × Nat × Nat)
  wait7 : Option Nat
  granted : Option Nat
  failed : List Nat
  deriving DecidableEq, Repr, Inhabited

/-- A phase domain of a function (R169): its current phase, the member count of that phase and how many completed. -/
structure Domain where
  func : Nat
  num : Nat
  phase : BitVec 32
  members : Option Nat
  count : Nat
  deriving DecidableEq, Repr, Inhabited

/-- A folio that a pre-empt record has evicted and that no resume record has brought back (R173, R175): where its save region
stands. -/
structure Saved where
  func : Nat
  job : BitVec 32
  save : Dword
  deriving DecidableEq, Repr, Inhabited

/-- A fault record (R439): its number and the tile that probes; again: it has been answered with res 0, and the second walk
waits for a migration. -/
structure OpenFault where
  func : Nat
  seq : Nat
  folio : Nat
  tile : Nat
  again : Bool := false
  deriving DecidableEq, Repr, Inhabited

/-- A key slot (R444, R452): loaded with an encryption key and a key of the integrity tag. -/
structure KeySlot where
  loaded : Bool
  enc : BitVec 256
  mac : BitVec 256
  deriving DecidableEq, Repr, Inhabited

/-- A run of lines that a checkpoint copies (R484): its shard, the number of its first line there, physical source and
destination, bytes. -/
structure Seg where
  shard : Nat
  base : Nat
  src : Nat
  dst : Nat
  len : Nat
  deriving DecidableEq, Repr, Inhabited

/-- A checkpoint under way (R484): its shards as source, length and destination, the runs of lines to copy, the shard and
line next in order, lines copied ahead of order with their data, the bytes of the current shard so far, the digests made. -/
structure Ckpt where
  job : BitVec 32
  shards : List (Nat × Nat × Nat)
  stride : Nat
  manifest : Nat
  folios : Nat
  gen : Nat
  saveDigest : List Byte
  segs : List Seg
  shard : Nat
  line : Nat
  kept : List (Nat × Nat)
  acc : Nat
  digests : List (List Byte)
  deriving DecidableEq, Repr, Inhabited

/-- An entry of the MSI-X table (R502, R503): message address and data, and whether the vector is masked. -/
structure Vect where
  addr : Dword
  data : BitVec 32
  masked : Bool
  deriving DecidableEq, Repr, Inhabited

/-- The registers that each function holds (R434, R451, R469, R482), with its MSI-X table and pending bits (R502, R503); ckwait:
jobs whose checkpoints warnings have called for (R479). -/
structure FuncRegs where
  func : Nat
  ptroot : Dword
  hostbase : Dword
  frbase : Dword
  frtail : BitVec 32
  fack : Dword := 0
  tlbinv : Dword := 0
  keycur : Nat
  keynext : Nat
  keyarmed : Bool
  keybusy : Bool
  keys : Vector KeySlot 4
  sgncmd : Dword
  sgnbuf : Dword
  sgnstat : Nat
  evbase : Dword
  evtail : BitVec 32
  evctl : BitVec 2
  ckcmd : Dword
  cklist : Dword
  cksave : Dword
  ckdone : Nat
  ckstate : Nat
  ckarmed : List (BitVec 32)
  ckgo : Option (BitVec 32)
  ckwait : List (BitVec 32) := []
  cknum : Nat
  ckpt : Option Ckpt
  pending : List Nat
  msix : Vector Vect 4 := Vector.replicate 4 ⟨0, 0, true⟩
  deriving DecidableEq, Repr, Inhabited

/-- A channel of HBM (R419, R421, R478, R481): its lease entry, its counters, its scrub pass and rotation pass
(0 none, 1 awaited, 2 under way, 3 ended), and the line marks: pending-clear from a line up (clearFrom) except those
written since (cleared), poison, uncorrectable (bad) and correctable (soft) lines, and the metadata of the lines that have been
written: line, key version, integrity tag (R444). -/
structure Chan where
  v : Bool
  ret : Bool
  clr : Bool
  func : Nat
  index : Nat
  job : BitVec 32
  unc : Nat
  cor : Nat
  winCor : Nat
  warned : Bool
  scrubAt : Nat
  rot : Nat
  clearFrom : Nat
  cleared : List Nat
  poison : List Nat
  bad : List Nat
  soft : List Nat := []
  tags : List (Nat × Nat × Nat) := []
  deriving DecidableEq, Repr, Inhabited

/-- A flit of a collective's contribution that has entered a link (R507, R509): the wall tick of its entry, the job, the number of
the collective, the sender's logical package and tile, its line, what the members' COLLs must share (R381), the bytes and the
marks of its words. -/
structure FarSend where
  wall : Nat
  job : BitVec 32
  num : Nat
  pkg : Nat
  fx : Nat
  fy : Nat
  line : Nat
  key : Nat
  data : Nat
  poison : Nat
  deriving DecidableEq, Repr, Inhabited

/-- A Gifer Link (R506-R509); out holds the flits that it carries away and that have not left its padded length. -/
structure Link where
  v : Bool
  func : Nat
  peer : BitVec 16
  job : BitVec 32
  state : Nat
  pad : Nat
  ppkg : BitVec 16
  lm : Nat
  unc : Nat
  cor : Nat
  winCor : Nat
  warned : Bool
  out : List FarSend := []
  deriving DecidableEq, Repr, Inhabited

/-- What a job has at Signet and at the Folio Manager (R450, R452): layout generation, digest of the first image. -/
structure Job where
  func : Nat
  job : BitVec 32
  gen : Nat
  image : List Byte
  deriving DecidableEq, Repr, Inhabited

/-- The DRAM and its channels (R432, R444). hbm holds the stored ciphertext by physical address. -/
structure Dram where
  hbm : Memory
  chans : Vector Chan 256
  scrubPer : Nat
  errcfg : Dword
  deriving DecidableEq, Repr, Inhabited

/-- A request under way in a host slot (R505): its number, the folio it serves with its world (R423), its host address, the
bytes that stand there as a read reaches the host (R324; none while the host-slot engine holds it back, R425), the
completion's data with their marks once they have come, and what a write stores that is held back, with whether it is marked. -/
structure HostRead where
  id : Nat
  folio : Nat
  world : Nat
  addr : Nat
  data : Option Nat
  got : Option (Nat × Nat)
  write : Option (Nat × Bool) := none
  deriving DecidableEq, Repr, Inhabited

/-- A line of a collective's contribution that has arrived from another package (R382); id names folio, collective,
package, tile and line, and what the sender's COLL must share with the receiver's (R381). -/
structure FarPart where
  id : Nat
  data : Nat
  poison : Nat
  deriving DecidableEq, Repr, Inhabited

/-- The migration registers and the copy under way (R441-R443). -/
structure Mig where
  va : Dword
  dst : Dword
  line : Nat
  state : Nat
  srcPa : Nat
  leafPa : Nat
  lines : Nat
  deriving DecidableEq, Repr, Inhabited

/-- Signet and the firmware (R449, R514, R515). activating: an activation awaits the requests that the hub units had when it came,
host reads by their number. -/
structure Trust where
  firmware : List Byte
  fwver : BitVec 32
  aliasId : Nat
  staged : Option (List Byte)
  fwcmd : Dword
  fwverStaged : BitVec 32
  fwstate : Nat
  rollback : BitVec 32
  made : Nat
  ide : List (Nat × Bool)
  jobs : List Job
  activating : Option Nat := none
  deriving DecidableEq, Repr, Inhabited

/-- The device's own registers (R428, R488, R496, R511-R513). steps: steps of 1/16 by which the clock is lowered, since
wall tick stepAt; phase: sixteenths of a clock cycle passed; the HDM decoder's base, size and commitment, and the global control of its capability (R502, R504); copier:
the world that the copier serves (R425); ep: host addresses of lines that were sent poisoned and not written since (R476). -/
structure Device where
  devstate : Nat
  code : Nat
  defects : List (Nat × Nat)
  retired : List (Nat × Nat)
  svccmd : Dword
  svcstat : Nat
  dbgcmd : Dword
  dbgcyc : Dword
  snapgo : Dword
  snaps : List (Nat × Nat × Prof)
  ebud : BitVec 32
  steps : Nat
  phase : Nat
  stepAt : Nat
  slows : BitVec 32
  droop : Bool
  hot : List Nat
  hdmBase : Nat
  hdmSize : Nat := 0
  hdmOn : Bool := false
  hdmCtl : BitVec 2 := 0
  copier : Option Nat := none
  ep : List Nat := []
  agei : Nat
  errlog : List (Nat × Nat)
  reply : Nat
  replyPoison : Bool
  latched : List (Nat × Nat × Nat × Nat)
  deriving DecidableEq, Repr, Inhabited

/-- What a completion record says beside its sequence number and time (R163); dom is the phase domain that it counts in, epoch
that of the record's queue. -/
structure Done where
  status : Nat
  detail : Nat
  job : BitVec 32
  phase : BitVec 32
  cycle : Nat
  irq : Bool
  dom : Nat
  epoch : Nat := 0
  deriving DecidableEq, Repr, Inhabited

/-- A folio's footprint between its clearing and its release (R176, R413, R414), with the completion record that the release
writes, by queue and record number (R170, R471), and the pre-empt records that the folio held open (R173). -/
structure Release where
  place : Place
  job : BitVec 32
  cycle : Nat
  done : Option (Nat × Nat × Done)
  stops : List Stop
  queue : Nat := 0
  deriving DecidableEq, Repr, Inhabited

/-- What comes from outside: a row of the table, and whether its MAC passes (R448). -/
structure Input where
  row : Instr
  mac : Bool := true
  deriving DecidableEq, Repr

/-- The whole machine. saved: evicted folios; releasing: footprints that are being cleared (R413, R414). -/
structure State where
  folios : List Folio
  saved : List Saved
  idle : List (Nat × Memory)
  dram : Dram
  hostMem : Memory
  queues : List LaunchQueue
  arb : Arbiter
  domains : List Domain
  funcs : Vector FuncRegs 64
  faults : List OpenFault
  hostReads : List HostRead
  readCtr : Nat
  far : List FarPart
  links : Vector Link 18
  mig : Mig
  trust : Trust
  dev : Device
  wall : Nat
  releasing : List Release
  agenda : List Slot
  inputs : List Input
  cursor : Cursor
  freeCtr : Nat
  deriving DecidableEq, Repr

/-- A channel after reset: not leased, nothing marked (log 1). -/
def Chan.reset : Chan :=
  { v := false, ret := false, clr := false, func := 0, index := 0, job := 0, unc := 0, cor := 0, winCor := 0
    warned := false, scrubAt := 0, rot := 0, clearFrom := 0x1800000, cleared := [], poison := [], bad := [] }

/-- A link after reset: down, not granted (log 1). -/
def Link.reset : Link :=
  { v := false, func := 0, peer := 0, job := 0, state := 0, pad := 0, ppkg := 0, lm := 0, unc := 0, cor := 0
    winCor := 0, warned := false }

/-- A function's registers after reset (log 1). -/
def FuncRegs.reset (f : Nat) : FuncRegs :=
  { func := f, ptroot := 0, hostbase := 0, frbase := 0, frtail := 0, keycur := 0, keynext := 0, keyarmed := false
    keybusy := false, keys := Vector.replicate 4 ⟨false, 0, 0⟩, sgncmd := 0, sgnbuf := 0, sgnstat := 0, evbase := 0
    evtail := 0, evctl := 0, ckcmd := 0, cklist := 0, cksave := 0, ckdone := 0, ckstate := 0, ckarmed := []
    ckgo := none, cknum := 0, ckpt := none, pending := [] }

/-- The machine right after reset (R513: DEVSTATE 0; R161: AGEI 100; R512: EBUD 0xFFFF_FFFF; the rest log 1). -/
def State.reset : State :=
  { folios := [], saved := [], idle := []
    dram := { hbm := [], chans := Vector.replicate 256 Chan.reset, scrubPer := 0, errcfg := 0 }
    hostMem := [], queues := []
    arb := { ptr := Vector.replicate 8 16383, run := [], wait7 := none, granted := none, failed := [] }
    domains := [], funcs := Vector.ofFn fun i => FuncRegs.reset i.val
    faults := [], hostReads := [], readCtr := 0, far := [], links := Vector.replicate 18 Link.reset
    mig := { va := 0, dst := 0, line := 0, state := 0, srcPa := 0, leafPa := 0, lines := 0 }
    trust := { firmware := [], fwver := 0, aliasId := 0, staged := none, fwcmd := 0, fwverStaged := 0, fwstate := 0
               rollback := 0, made := 0, ide := [], jobs := [] }
    dev := { devstate := 0, code := 0, defects := [], retired := [], svccmd := 0, svcstat := 0, dbgcmd := 0
             dbgcyc := 0, snapgo := 0, snaps := [], ebud := 0xFFFFFFFF, steps := 0, phase := 0, stepAt := 0
             slows := 0, droop := false, hot := [], hdmBase := 0, agei := 100, errlog := [], reply := 0, replyPoison := false, latched := [] }
    wall := 0, releasing := [], agenda := [], inputs := [], cursor := ⟨0, 0, .sq, 0⟩, freeCtr := 0 }

end Sys2Proof.Machine
end

