-- ==== Sys2Proof/Machine/Memory.lean ====
section
/-! DEFINITION. Memory in one canonical form: cells in strictly rising order of address, none of them zero, an
unlisted address reading as zero (log 2). Wider accesses are little-endian (R21) and are built here once. -/

namespace Sys2Proof.Machine

/-- The canonical form: addresses rise strictly and no listed byte is zero. -/
abbrev Memory.wf (m : Memory) : Prop :=
  m.Pairwise (fun x y => x.1 < y.1) ∧ ∀ c ∈ m, c.2 ≠ 0

/-- The byte at an address (R307). -/
def Memory.read (m : Memory) (a : Nat) : Byte :=
  match m with
  | [] => 0
  | c :: r => if c.1 = a then c.2 else Memory.read r a

/-- Cells below an address. -/
def Memory.below (m : Memory) (a : Nat) : Memory := m.filter fun c => decide (c.1 < a)

/-- Cells at or above an address. -/
def Memory.above (m : Memory) (a : Nat) : Memory := m.filter fun c => decide (a ≤ c.1)

/-- The n bytes from an address, little-endian (R21). -/
def Memory.readN (m : Memory) (a n : Nat) : Nat :=
  m.foldl (fun v c => if a ≤ c.1 ∧ c.1 < a + n then v + c.2.toNat <<< (8 * (c.1 - a)) else v) 0

/-- The nonzero bytes of a value as cells from an address on (R21). -/
def bytesOf (a n v : Nat) : Memory :=
  match n with
  | 0 => []
  | n + 1 =>
    let rest := bytesOf (a + 1) n (v / 256)
    if v % 256 = 0 then rest else (a, BitVec.ofNat 8 v) :: rest

/-- Stores the n bytes of a value from an address on (R21). -/
def Memory.writeN (m : Memory) (a n v : Nat) : Memory :=
  m.below a ++ bytesOf a n v ++ m.above (a + n)

/-- Stores one byte. -/
def Memory.write (m : Memory) (a : Nat) (b : Byte) : Memory := m.writeN a 1 b.toNat

/-- Sets n bytes to zero. -/
def Memory.clear (m : Memory) (a n : Nat) : Memory := m.writeN a 0 0 |>.filter fun c => !(decide (a ≤ c.1) && decide (c.1 < a + n))

/-- The bytes of a little-endian value that a mask of bytes selects, over those of another (R364). -/
def mixBytes (n mask new old : Nat) : Nat :=
  match n with
  | 0 => 0
  | n + 1 =>
    (if mask % 2 = 1 then new % 256 else old % 256) + 256 * mixBytes n (mask / 2) (new / 256) (old / 256)

/-- Stores those of n bytes that a mask selects. -/
def Memory.writeMask (m : Memory) (a n mask v : Nat) : Memory :=
  m.writeN a n (mixBytes n mask v (m.readN a n))

/-- The list of n bytes from an address. -/
def Memory.bytes (m : Memory) (a n : Nat) : List Byte :=
  let v := m.readN a n
  (List.range n).map fun i => BitVec.ofNat 8 (v >>> (8 * i))

/-- A list of bytes as a little-endian value. -/
def ofBytes (l : List Byte) : Nat := l.foldr (fun b v => b.toNat + 256 * v) 0

/-- A value as n bytes. -/
def toBytes (n v : Nat) : List Byte := (List.range n).map fun i => BitVec.ofNat 8 (v >>> (8 * i))

/-- A mark set without repeats: a word, line or granule number joins it. -/
def addMark (l : List Nat) (n : Nat) : List Nat := if l.contains n then l else n :: l

/-- A mark leaves the set. -/
def dropMark (l : List Nat) (n : Nat) : List Nat := l.filter fun x => x != n

end Sys2Proof.Machine
end

