-- ==== Sys2Proof/Machine/Numeric.lean ====
section
/-! DEFINITION. Number formats, exact values and the one rounding function (R178-R197), with the correctly rounded
functions of R265. Every value is exact: a sign, a natural significand and a power of two. -/

namespace Sys2Proof.Machine

/-- A decoded element (R181-R183, R186). A finite value is (-1)^neg * m * 2^e; zero has m = 0. -/
inductive Num where
  | nan
  | inf (neg : Bool)
  | fin (neg : Bool) (m : Nat) (e : Int)
  deriving DecidableEq, Repr, Inhabited

/-- Codes 0 and 10-12 are the integer formats (R178, R251). -/
def fmtIsInt (f : Nat) : Bool := inI f

/-- Codes 13-15 are the Serif formats (R183). -/
def fmtIsSerif (f : Nat) : Bool := decide (13 ≤ f)

/-- Fraction bits of a binary floating format (R178). -/
def fmtFrac (f : Nat) : Nat :=
  match f with
  | 1 => 52 | 2 => 23 | 3 => 7 | 4 => 10 | 5 => 2 | 6 => 3 | 7 => 2 | 8 => 3 | 9 => 1 | _ => 0

/-- Exponent bits of a binary floating format (R178). -/
def fmtExp (f : Nat) : Nat :=
  match f with
  | 1 => 11 | 2 => 8 | 3 => 8 | 4 => 5 | 5 => 5 | 6 => 4 | 7 => 3 | 8 => 2 | 9 => 2 | _ => 0

/-- Bias of a binary floating format (R180). -/
def fmtBias (f : Nat) : Nat :=
  match f with
  | 1 => 1023 | 2 => 127 | 3 => 127 | 4 => 15 | 5 => 15 | 6 => 7 | 7 => 3 | 8 => 1 | 9 => 1 | _ => 0

/-- The formats whose all-ones exponent holds infinity and NaN (R180). -/
def fmtHasInf (f : Nat) : Bool := decide (1 ≤ f ∧ f ≤ 5)

/-- The canonical NaN (R180, R183); the formats without one never use it. -/
def fmtNan (f : Nat) : Nat :=
  match f with
  | 1 => 0x7FF8000000000000 | 2 => 0x7FC00000 | 3 => 0x7FC0 | 4 => 0x7E00 | 5 => 0x7E | 6 => 0x7F
  | 13 => 0x80 | 14 => 0x20 | 15 => 0x8 | _ => 0

/-- The exponent bits es of a Serif format (R178). -/
def serifEs (f : Nat) : Nat := if f = 15 then 0 else 1

/-- The run of bits equal to b at the top of the low n bits of v (R183). -/
def runLen (v : Nat) (b : Bool) (n : Nat) : Nat :=
  match n with
  | 0 => 0
  | n + 1 => if v.testBit n = b then runLen v b n + 1 else 0

/-- The value of a nonzero Serif magnitude as significand and exponent (R183). -/
def serifMag (f mag : Nat) : Nat × Int :=
  let n := elemBits f - 1
  let b := mag.testBit (n - 1)
  let k := runLen mag b n
  let r : Int := if b then (k : Int) - 1 else -(k : Int)
  let rest := n - (k + 1)
  let es := serifEs f
  let eb := min es rest
  let e : Nat := ((mag >>> (rest - eb)) % 2 ^ eb) * 2 ^ (es - eb)
  let fb := rest - eb
  (2 ^ fb + mag % 2 ^ fb, (2 ^ es : Int) * r + e - fb)

/-- The value of a magnitude code: the encoding without its sign; integers count by one (R181-R184). -/
def magValue (f code : Nat) : Nat × Int :=
  if fmtIsInt f then (code, 0)
  else if fmtIsSerif f then (if code = 0 then (0, 0) else serifMag f code)
  else
    let m := fmtFrac f
    let ex := code >>> m
    let fr := code % 2 ^ m
    if ex = 0 then (fr, 1 - (fmtBias f : Int) - m) else (2 ^ m + fr, (ex : Int) - fmtBias f - m)

/-- The code of Max (R190). -/
def maxCode (f : Nat) (neg : Bool) : Nat :=
  match f with
  | 1 => 0x7FEFFFFFFFFFFFFF | 2 => 0x7F7FFFFF | 3 => 0x7F7F | 4 => 0x7BFF | 5 => 0x7B | 6 => 0x7E
  | 7 => 0x1F | 8 => 0x1F | 9 => 0x7 | 13 => 0x7F | 14 => 0x1F | 15 => 0x7
  | _ => 2 ^ (elemBits f - 1) - (if neg then 0 else 1)

/-- N: the first magnitude beyond Max (R190). -/
def beyondMax (f : Nat) (neg : Bool) : Nat × Int :=
  match f with
  | 1 => (1, 1024) | 2 => (1, 128) | 3 => (1, 128) | 4 => (1, 16) | 5 => (1, 16) | 6 => (480, 0)
  | 7 => (1, 5) | 8 => (1, 3) | 9 => (1, 3) | 13 => (1, 14) | 14 => (1, 10) | 15 => (1, 3)
  | _ => (maxCode f neg + 1, 0)

/-- The exponent of minnorm, a power of two (R190). -/
def minNormExp (f : Nat) : Int :=
  match f with
  | 1 => -1022 | 2 => -126 | 3 => -126 | 4 => -14 | 5 => -14 | 6 => -6 | 7 => -2 | 8 => 0 | 9 => 0
  | 13 => -12 | 14 => -8 | 15 => -2 | _ => 0

/-- Decodes an element of a format (R181, R182, R183). -/
def decodeElem (f bits : Nat) : Num :=
  let w := elemBits f
  let neg := bits.testBit (w - 1)
  let mag := bits % 2 ^ (w - 1)
  if fmtIsInt f then
    (if neg then .fin true (2 ^ (w - 1) - mag) 0 else .fin false mag 0)
  else if fmtIsSerif f then
    (if mag = 0 then (if neg then .nan else .fin false 0 0)
     else let v := serifMag f mag; .fin neg v.1 v.2)
  else
    let top := 2 ^ fmtExp f - 1
    let ex := mag >>> fmtFrac f
    let fr := mag % 2 ^ fmtFrac f
    if fmtHasInf f && ex == top then (if fr = 0 then .inf neg else .nan)
    else if f == 6 && mag == 0x7F then .nan
    else let v := magValue f mag; .fin neg v.1 v.2

/-- Compares m1 * 2^e1 with m2 * 2^e2. -/
def cmpDyadic (m1 : Nat) (e1 : Int) (m2 : Nat) (e2 : Int) : Ordering :=
  if e1 ≤ e2 then compare m1 (m2 <<< (e2 - e1).toNat) else compare (m1 <<< (e1 - e2).toNat) m2

/-- What the rounding function knows of the exact magnitude a: how it compares with m * 2^e. -/
abbrev Oracle := Nat → Int → Ordering

/-- The largest code whose value is at most a, found bit by bit (R191). -/
def floorCode (f : Nat) (top : Nat) (o : Oracle) (n c : Nat) : Nat :=
  match n with
  | 0 => c
  | n + 1 =>
    let c' := c + 2 ^ n
    let v := magValue f c'
    floorCode f top o n (if c' ≤ top ∧ o v.1 v.2 ≠ .lt then c' else c)

/-- m1 * 2^e1 + k * (m2 * 2^e2 - m1 * 2^e1) / 2^s, as a significand and exponent. -/
def between (lo hi : Nat × Int) (k s : Nat) : Nat × Int :=
  let e := min lo.2 hi.2
  let l := lo.1 <<< (lo.2 - e).toNat
  let h := hi.1 <<< (hi.2 - e).toNat
  (l * 2 ^ s + k * (h - l), e - s)

/-- The zero of a format with a sign (R187). -/
def zeroOf (f : Nat) (neg : Bool) : Nat :=
  if fmtIsInt f || fmtIsSerif f || !neg then 0 else 2 ^ (elemBits f - 1)

/-- The encoding of a sign and a magnitude code (R184). -/
def encodeMag (f : Nat) (neg : Bool) (code : Nat) : Nat :=
  let w := elemBits f
  if code = 0 then zeroOf f neg
  else if fmtIsInt f then (if neg then (2 ^ w - code) % 2 ^ w else code)
  else if neg then 2 ^ (w - 1) + code else code

/-- The infinity of a format that has one (R180). -/
def infOf (f : Nat) (neg : Bool) : Nat :=
  (if neg then 2 ^ (elemBits f - 1) else 0) + (2 ^ fmtExp f - 1) * 2 ^ fmtFrac f

/-- An encoding and the class of the numerical event it counts, if any (R197). -/
abbrev Rounded := Nat × Option Nat

/-- An overflowed result (R192); a value that carries a Ductus scale goes to infinity with class 5 (R212). -/
def overflowOf (f : Nat) (neg sat scaled : Bool) : Rounded :=
  if scaled then (infOf f neg, some 5)
  else if fmtIsInt f then
    (if sat then (encodeMag f neg (maxCode f neg), some 3) else (2 ^ (elemBits f - 1), some 0))
  else if sat || (decide (7 ≤ f) && decide (f ≤ 9)) then (encodeMag f neg (maxCode f neg), some 3)
  else if fmtHasInf f then (infOf f neg, some 1)
  else (fmtNan f, some 1)

/-- Whether an inexact magnitude goes up to hi (R191): by mode, sign, the comparison with the midpoint, the evenness
of lo's code, and for the stochastic mode the comparison with the threshold of u. -/
def goesUp (rm : Nat) (neg : Bool) (mid : Ordering) (tieUp : Bool) (drawUp : Bool) : Bool :=
  match rm with
  | 0 => match mid with
    | .lt => false
    | .gt => true
    | .eq => tieUp
  | 1 => false
  | 2 => !neg
  | 3 => neg
  | 4 => mid != .lt
  | _ => drawUp

/-- round of R191 for a nonzero magnitude given by its comparisons. -/
def roundMag (f : Nat) (r : Rnd) (u : Nat) (scaled neg : Bool) (o : Oracle) : Rounded :=
  let top := maxCode f neg
  let bey := beyondMax f neg
  if o bey.1 bey.2 ≠ .lt then
    (if goesUp r.rm neg .gt true true then overflowOf f neg r.sat scaled else (encodeMag f neg top, none))
  else
    let c := floorCode f top o (elemBits f) 0
    let lo := magValue f c
    if o lo.1 lo.2 = .eq then (encodeMag f neg c, none)
    else
      let hi := if c = top then bey else magValue f (c + 1)
      let mid := between lo hi 1 1
      let thr := between lo hi (u + 1) 32
      let up := goesUp r.rm neg (o mid.1 mid.2) (c == top || c % 2 == 1) (o thr.1 thr.2 != .lt)
      if up && c == top then overflowOf f neg r.sat scaled
      else
        let small := !fmtIsInt f && o 1 (minNormExp f) == .lt
        (encodeMag f neg (if up then c + 1 else c), if small then some 2 else none)

/-- round of R191 for an exact value. -/
def roundFin (f : Nat) (r : Rnd) (u : Nat) (scaled neg : Bool) (m : Nat) (e : Int) : Rounded :=
  if m = 0 then (zeroOf f neg, none)
  else roundMag f r u scaled neg fun m2 e2 => cmpDyadic m e m2 e2

/-- A NaN result (R186, R195): the canonical NaN; the formats without one receive the value of R195. -/
def nanOf (f : Nat) (sat : Bool) : Rounded :=
  if fmtIsInt f then ((if sat then 0 else 2 ^ (elemBits f - 1)), some 0)
  else if 7 ≤ f ∧ f ≤ 9 then (0, some 0)
  else (fmtNan f, none)

/-- An infinity converted into a format (R195). -/
def convInf (f : Nat) (neg sat : Bool) : Rounded :=
  if fmtHasInf f then (infOf f neg, none)
  else if fmtIsInt f then
    (if sat then (encodeMag f neg (maxCode f neg), some 3) else (2 ^ (elemBits f - 1), some 0))
  else if 7 ≤ f ∧ f ≤ 9 then (encodeMag f neg (maxCode f neg), some 3)
  else if sat then (encodeMag f neg (maxCode f neg), some 3)
  else (fmtNan f, some 0)

/-- The two's complement reading of w bits. -/
def toSigned (w v : Nat) : Int := if v.testBit (w - 1) then (v % 2 ^ w : Int) - 2 ^ w else (v % 2 ^ w : Int)

/-- The low w bits of an integer. -/
def ofSigned (w : Nat) (x : Int) : Nat := (x % (2 ^ w : Int)).toNat

/-- A conversion of one element from format x to format f (R194-R196, R266). -/
def convert (x f : Nat) (r : Rnd) (u bits : Nat) : Rounded :=
  if fmtIsInt x && fmtIsInt f then
    let v := toSigned (elemBits x) bits
    let w := elemBits f
    let lo : Int := -(2 ^ (w - 1) : Int)
    let hi : Int := 2 ^ (w - 1) - 1
    if lo ≤ v ∧ v ≤ hi then (ofSigned w v, none)
    else if r.sat then ((if v < lo then ofSigned w lo else ofSigned w hi), some 3)
    else (ofSigned w v, none)
  else
    match decodeElem x bits with
    | .nan => nanOf f r.sat
    | .inf neg => convInf f neg r.sat
    | .fin neg m e => roundFin f r u false neg m e

/-- Negation of a decoded value. -/
def Num.neg : Num → Num
  | .nan => .nan
  | .inf n => .inf (!n)
  | .fin n m e => .fin (!n) m e

/-- The exact product of two values that are not NaN; none when it is 0 times infinity (R186). -/
def Num.mul (a b : Num) : Option Num :=
  match a, b with
  | .nan, _ => some .nan
  | _, .nan => some .nan
  | .inf s, .inf t => some (.inf (s != t))
  | .inf s, .fin t m _ => if m = 0 then none else some (.inf (s != t))
  | .fin s m _, .inf t => if m = 0 then none else some (.inf (s != t))
  | .fin s m e, .fin t n g => some (.fin (s != t) (m * n) (e + g))

/-- Multiplication of a value by a power of two. -/
def Num.scale (a : Num) (k : Int) : Num :=
  match a with
  | .fin s m e => .fin s m (e + k)
  | x => x

/-- Whether a value is NaN. -/
def Num.isNan : Num → Bool
  | .nan => true
  | _ => false

/-- An exact sum under way: an integer significand and its exponent. -/
def addTerm (acc : Int × Int) (t : Num) : Int × Int :=
  match t with
  | .fin s m e =>
    if m = 0 then acc
    else
      let v : Int := if s then -(m : Int) else m
      let e' := min acc.2 e
      (acc.1 * 2 ^ (acc.2 - e').toNat + v * 2 ^ (e - e').toNat, e')
  | _ => acc

/-- Whether a term is an infinity of the given sign. -/
def Num.isInf (neg : Bool) : Num → Bool
  | .inf s => s == neg
  | _ => false

/-- Whether a term is minus zero. -/
def Num.isNegZero : Num → Bool
  | .fin s m _ => s && m == 0
  | _ => false

/-- Whether a term is plus zero. -/
def Num.isPosZero : Num → Bool
  | .fin s m _ => !s && m == 0
  | _ => false

/-- The sum of terms rounded once: the common rule of R259, R264, R290 and R382. A term none is an invalid product. -/
def accumulate (f : Nat) (r : Rnd) (u : Nat) (scaled : Bool) (factors : Bool) (terms : List (Option Num)) : Rounded :=
  let ts := terms.filterMap id
  if factors || ts.any Num.isNan then (fmtNan f, none)
  else if terms.any Option.isNone || (ts.any (Num.isInf true) && ts.any (Num.isInf false)) then (fmtNan f, some 0)
  else if ts.any (Num.isInf true) then (infOf f true, none)
  else if ts.any (Num.isInf false) then (infOf f false, none)
  else if ts.all Num.isNegZero then (zeroOf f true, none)
  else
    let s := ts.foldl addTerm (0, 0)
    if s.1 = 0 then (zeroOf f (r.rm == 3 && !ts.all Num.isPosZero), none)
    else roundFin f r u scaled (decide (s.1 < 0)) s.1.natAbs s.2

/-- Floor of the base-2 logarithm of a nonzero value (R214). -/
def floorLog (m : Nat) (e : Int) : Int := (Nat.log2 m : Int) + e

/-- Bits that the digit algorithm of logarithms carries (log 12). -/
def logBits : Nat := 2560

/-- Compares log2 of a number between 1 and 2, known to lie in [lo, hi] / 2^logBits, with a fraction below one whose
binary digits are the low n bits of t: digits come by squaring (R265, log 12). -/
def cmpLogDigits (n t lo hi : Nat) : Ordering :=
  match n with
  | 0 => if lo ≤ 2 ^ logBits ∧ hi ≤ 2 ^ logBits then .eq else .gt
  | n + 1 =>
    let one := 2 ^ logBits
    let l := lo * lo / one
    let h := (hi * hi + one - 1) / one
    let d := t.testBit n
    if 2 * one ≤ l then (if d then cmpLogDigits n t (l / 2) ((h + 1) / 2) else .gt)
    else if d then .lt
    else cmpLogDigits n t l h

/-- Compares log2 (m * 2^e), m not zero, with the integer t times 2^s, s at most zero (R265, log 12). -/
def cmpLog (m : Nat) (e : Int) (t : Int) (s : Int) : Ordering :=
  let k := Nat.log2 m
  let n := (-s).toNat
  let whole : Int := (k : Int) + e
  let frac := t - whole * 2 ^ n
  if frac < 0 then .gt
  else if (2 ^ n : Int) ≤ frac then .lt
  else
    let lo := if k ≤ logBits then m <<< (logBits - k) else m >>> (k - logBits)
    let hi := if k ≤ logBits then lo else lo + 1
    cmpLogDigits n frac.toNat lo hi

/-- The functions of R265. -/
inductive Transc where
  | rcp | rsq | sqrt | exp2 | log2
  deriving DecidableEq, Repr

/-- Flips a comparison. -/
def flipOrd (o : Ordering) : Ordering :=
  match o with
  | .lt => .gt
  | .gt => .lt
  | .eq => .eq

/-- How 2^A compares with a dyadic value: A against its logarithm (R265). -/
def exp2Oracle (neg : Bool) (m : Nat) (e : Int) : Oracle := fun m2 e2 =>
  if m2 = 0 then .gt
  else
    let s := min e 0
    let v : Int := (m <<< (e - s).toNat : Nat)
    flipOrd (cmpLog m2 e2 (if neg then -v else v) s)

/-- How |log2 A| compares with a dyadic value (R265). -/
def log2Oracle (neg : Bool) (m : Nat) (e : Int) : Oracle := fun m2 e2 =>
  let s := min e2 0
  let v : Int := (m2 <<< (e2 - s).toNat : Nat)
  if neg then flipOrd (cmpLog m e (-v) s) else cmpLog m e v s

/-- A function of R265 on one element, rounded once; the exponents of exp2 are bounded so that a far result stays a
small computation: beyond 2^1100 in magnitude every format has overflowed or rounds from below its least value. -/
def transcElem (fn : Transc) (f : Nat) (r : Rnd) (u bits : Nat) : Rounded :=
  match fn, decodeElem f bits with
  | _, .nan => (fmtNan f, none)
  | .rcp, .inf s => (zeroOf f s, none)
  | .rsq, .inf s => if s then (fmtNan f, some 0) else (0, none)
  | .sqrt, .inf s => if s then (fmtNan f, some 0) else (infOf f false, none)
  | .exp2, .inf s => if s then (0, none) else (infOf f false, none)
  | .log2, .inf s => if s then (fmtNan f, some 0) else (infOf f false, none)
  | .rcp, .fin s m e =>
    if m = 0 then (infOf f s, none)
    else roundMag f r u false s fun m2 e2 => cmpDyadic 1 0 (m2 * m) (e2 + e)
  | .rsq, .fin s m e =>
    if m = 0 then (infOf f s, none)
    else if s then (fmtNan f, some 0)
    else roundMag f r u false false fun m2 e2 => cmpDyadic 1 0 (m2 * m2 * m) (2 * e2 + e)
  | .sqrt, .fin s m e =>
    if m = 0 then (zeroOf f s, none)
    else if s then (fmtNan f, some 0)
    else roundMag f r u false false fun m2 e2 => cmpDyadic m e (m2 * m2) (2 * e2)
  | .exp2, .fin s m e =>
    if m = 0 then roundFin f r u false false 1 0
    else if 11 ≤ floorLog m e then
      (if s then roundFin f r u false false 1 (-1200) else roundFin f r u false false 1 1200)
    else roundMag f r u false false (exp2Oracle s m e)
  | .log2, .fin s m e =>
    if m = 0 then (infOf f true, none)
    else if s then (fmtNan f, some 0)
    else
      match cmpDyadic m e 1 0 with
      | .eq => (0, none)
      | .gt => roundMag f r u false false (log2Oracle false m e)
      | .lt => roundMag f r u false true (log2Oracle true m e)

/-- The 16-bit generator (R248). -/
def crng16 (ctr key : Nat) : Nat :=
  let x0 := ctr ^^^ key
  let x1 := x0 * 0x006F % 2 ^ 16
  let x2 := x1 ^^^ (x1 >>> 7)
  let x3 := x2 * 0x002B % 2 ^ 16
  x3 ^^^ (x3 >>> 8)

/-- The 32-bit generator (R249). -/
def crng32 (ctr key : Nat) : Nat :=
  let x0 := ctr ^^^ key
  let x1 := x0 * 0x2C1B3C6D % 2 ^ 32
  let x2 := x1 ^^^ (x1 >>> 15)
  let x3 := x2 * 0x297A2D39 % 2 ^ 32
  x3 ^^^ (x3 >>> 16)

/-- The draw of R193: base and key of RSEED, cycle term, element index. -/
def draw (rseed : Dword) (cyc i : Nat) : Nat :=
  crng32 ((rseed.toNat / 2 ^ 32 + 4096 * (cyc % 2 ^ 20) + i) % 2 ^ 32) (rseed.toNat % 2 ^ 32)

/-- fit of R226: the encoding and whether saturation is counted. -/
def fit (x : Int) (w : Nat) (signed sat : Bool) : Rounded :=
  let lo : Int := if signed then -(2 ^ (w - 1) : Int) else 0
  let hi : Int := if signed then 2 ^ (w - 1) - 1 else 2 ^ w - 1
  if sat && decide (x < lo) then (ofSigned w lo, some 3)
  else if sat && decide (hi < x) then (ofSigned w hi, some 3)
  else (ofSigned w x, none)

end Sys2Proof.Machine
end

