-- ==== Sys2Proof/Machine/Ops.lean ====
section
/-! DEFINITION. The named operations over registers, spans, tags, pending writes and marks of a tile, over the folios
of the state, and taking a trap and returning from it (R460-R467). -/

namespace Sys2Proof.Machine

/-- Element i of a fixed row of values. -/
def vget {α : Type} {n : Nat} [Inhabited α] (v : Vector α n) (i : Nat) : α := v[i]?.getD default

/-- Sets element i of a fixed row of values; no element i, no change. -/
def vset {α : Type} {n : Nat} (v : Vector α n) (i : Nat) (a : α) : Vector α n := v.setIfInBounds i a

/-- Changes element i of a list. -/
def lmap {α : Type} (l : List α) (i : Nat) (f : α → α) : List α :=
  match l, i with
  | [], _ => []
  | a :: r, 0 => f a :: r
  | a :: r, i + 1 => a :: lmap r i f

/-- The number of a queue: its nibble (R41), its number in TPOS (R464). -/
def queueNum (q : Queue) : Nat :=
  match q with
  | .sq => 1 | .ap => 2 | .xu => 3 | .ce => 4 | .mx => 5 | .net => 6

/-- The queue of a nibble (R41). -/
def queueOf (n : Nat) : Option Queue :=
  match n with
  | 1 => some .sq | 2 => some .ap | 3 => some .xu | 4 => some .ce | 5 => some .mx | 6 => some .net | _ => none

/-- The queues in the order of R41. -/
def allQueues : List Queue := [.sq, .ap, .xu, .ce, .mx, .net]

/-- The bits pos .. pos+w-1 of a number. -/
def bitsAt (v pos w : Nat) : Nat := (v >>> pos) % 2 ^ w

/-- The bits of a value that a mask of fields keeps (R6): each field as lowest bit and width. -/
def keepFields (l : List (Nat × Nat)) (v : BitVec 64) : BitVec 64 :=
  BitVec.ofNat 64 (l.map fun x => bitsAt v.toNat x.1 x.2 * 2 ^ x.1).sum

/-- A number with the bits pos .. pos+w-1 replaced by the low w bits of x. -/
def putBits (v pos w x : Nat) : Nat :=
  (v >>> (pos + w)) <<< (pos + w) + (x % 2 ^ w) <<< pos + v % 2 ^ pos

/-- The value of the span of n slices from a start (R82). -/
def Slices.span (s : Slices) (start n : Nat) : Nat := bitsAt s.sf.toNat (4 * start) (4 * n)

/-- Writes a span of n slices (R82). -/
def Slices.put (s : Slices) (start n v : Nat) : Slices :=
  { s with sf := BitVec.ofNat 16384 (putBits s.sf.toNat (4 * start) (4 * n) v) }

/-- The tag of a granule (R94). -/
def Slices.tag (s : Slices) (g : Nat) : Nat := bitsAt s.tags.toNat (5 * g) 5

/-- Sets the tag of a granule (R94). -/
def Slices.setTag (s : Slices) (g tag : Nat) : Slices :=
  { s with tags := BitVec.ofNat 1280 (putBits s.tags.toNat (5 * g) 5 tag) }

/-- The tag rule of R96 for a write of slices [start, start+n) with tag T, on the granules from g on. -/
def tagGranules (s : Slices) (start n tag g : Nat) (count : Nat) : Slices :=
  match count with
  | 0 => s
  | count + 1 =>
    let whole := decide (start ≤ 16 * g) && decide (16 * g + 16 ≤ start + n)
    let s' := if whole || s.tag g == tag then s.setTag g tag else s.setTag g 0x10
    tagGranules s' start n tag (g + 1) count

/-- Lands a slice write with its tag (R86, R96). -/
def Slices.land (s : Slices) (start n v tag : Nat) : Slices :=
  if n = 0 then s
  else
    let s := tagGranules (s.put start n v) start n tag (start / 16) ((start + n - 1) / 16 + 1 - start / 16)
    { s with bad := s.bad.filter fun g => !(decide (start ≤ 16 * g) && decide (16 * g + 16 ≤ start + n)) }

/-- Granules that a span of n slices touches. -/
def granules (start n : Nat) : List Nat :=
  if n = 0 then [] else (List.range ((start + n - 1) / 16 + 1 - start / 16)).map fun i => start / 16 + i

/-- The common tag of the granules of some spans, zero when they differ (R95, MOV and SEL). -/
def Slices.commonTag (s : Slices) (spans : List (Nat × Nat)) : Nat :=
  match spans.flatMap fun p => granules p.1 p.2 with
  | [] => 0
  | g :: r => if r.all fun h => s.tag h == s.tag g then s.tag g else 0

/-- The first granule of a span whose tag is none of the accepted ones (R97). -/
def Slices.badTag (s : Slices) (start n : Nat) (ok : List Nat) : Option Nat :=
  (granules start n).find? fun g => !ok.contains (s.tag g)

/-- What an instruction knows when it issues: its folio's place and launch, its cycle (the handler's own inside a
handler), the folio's cycle, its tile, its entry and the PFX before it, and the first eight bytes of an HBM line as they
stand (R373, log 22). -/
structure Ctx where
  place : Place
  launch : Launch
  cal : List CalEntry
  reach : List Nat
  k : Nat
  cyc : Nat
  hand : Bool
  q : Queue
  fx : Nat
  fy : Nat
  e : Entry
  pe : Option Entry
  pfx : Option Pfx
  brk : Bool
  header : Nat → Nat

/-- The instruction words as TINFO holds them by default (R464). -/
def Entry.words (e : Entry) : Nat := e.w0.toNat + e.w1.toNat * 2 ^ 32

/-- The default trap of an entry at its issue (R460, R464). -/
def Ctx.raise (c : Ctx) (cause : Nat) : Raise :=
  { cause := cause, inst := true, line := c.e.line, lane := c.e.lane, queue := queueNum c.q
    info := c.e.words, info2 := 0, arg := 0, cls := 0 }

/-- A trap of an entry with information of its own (R473). -/
def Ctx.raiseInfo (c : Ctx) (cause info info2 : Nat) : Raise :=
  { c.raise cause with info := info, info2 := info2 }

/-- A trap at the end of a cycle that names no entry (R460). -/
def raiseEnd (cause info info2 : Nat) : Raise :=
  { cause := cause, inst := false, line := 0, lane := 0, queue := 0, info := info, info2 := info2, arg := 0, cls := 0 }

/-- A trap at the end of a cycle that names an instruction (R460). -/
def raiseNamed (cause line lane queue info info2 : Nat) : Raise :=
  { cause := cause, inst := false, line := line, lane := lane, queue := queue, info := info, info2 := info2, arg := 0
    cls := 0 }

/-- Adds a raised trap to the tile's causes of this cycle (R461). -/
def Tile.addRaise (t : Tile) (r : Raise) : Tile := { t with raises := t.raises ++ [r] }

/-- Adds a pending write; writes of one queue stand in program order (R90). -/
def Tile.post (t : Tile) (p : PendWrite) : Tile := { t with pend := t.pend ++ [p] }

/-- Posts a write of the issuing queue that lands L cycles after issue (R86). -/
def Tile.later (t : Tile) (c : Ctx) (lat : Nat) (d : PendDest) (ev : List (Nat × Nat)) : Tile :=
  t.post { land := c.k + lat, issue := c.k, writer := queueNum c.q, hand := c.hand, dest := d, events := ev }

/-- The spans that pending writes and pending loads of the tile's own queues cover, with their landing cycles (R88):
cycle, first slice, count. hand picks the clock they are counted on. -/
def Tile.pendSpans (t : Tile) (hand : Bool) : List (Nat × Nat × Nat) :=
  (t.pend.filterMap fun p =>
    if p.hand != hand || p.writer > 6 then none
    else match p.dest with
      | .slices s n _ _ => some (p.land, s, n)
      | .tag g _ => some (p.land, 16 * g, 16)
      | _ => none)
  ++ (t.ap.accs.filterMap fun a =>
    if a.hand != hand then none
    else match a.kind with
      | .load _ _ vs w _ => some (a.issue + 4, vs, w / 4)
      | .atom _ _ w vs _ _ _ _ => some (a.issue + 6, vs, w / 4)
      | .store _ _ _ => none)
  ++ (if hand then [] else
    (t.ap.ratoms.map fun r => (r.land, r.vs, r.w / 4))
    ++ (t.net.recvs.map fun r => (r.land, r.vs, r.w / 4))
    ++ (t.ce.cmds.filterMap fun m =>
        if m.fn == 6 && m.own && m.stop.isNone then some (m.perf, 2 * bitsAt m.desc 64 11 + bitsAt m.desc 160 1, bitsAt m.desc 128 16)
        else none))

/-- Whether two ranges meet. -/
def meets (a n b m : Nat) : Bool := decide (a < b + m) && decide (b < a + n)

/-- The latest landing cycle above k of pending writes to any of n slices from a start (R88). -/
def Tile.pendingUntil (t : Tile) (hand : Bool) (k start n : Nat) : Option Nat :=
  (t.pendSpans hand).foldl (fun m p =>
    if k < p.1 && meets start n p.2.1 p.2.2 then some (max p.1 (m.getD 0)) else m) none

/-- The pending predicate writes of the tile's own queues: cycle and mask (R88). -/
def Tile.pendPreds (t : Tile) (hand : Bool) : List (Nat × Nat) :=
  t.pend.filterMap fun p =>
    if p.hand != hand then none
    else match p.dest with
      | .preds m _ => some (p.land, m.toNat)
      | _ => none

/-- The latest landing cycle above k of pending writes to predicate n (R88). -/
def Tile.predPendingUntil (t : Tile) (hand : Bool) (k n : Nat) : Option Nat :=
  (t.pendPreds hand).foldl (fun m p => if k < p.1 && p.2.testBit n then some (max p.1 (m.getD 0)) else m) none

/-- A predicate's value (R99). -/
def Tile.pred (t : Tile) (n : Nat) : Bool := t.slices.preds.getLsbD n

/-- The start slice of window word n (R55). -/
def Tile.win (t : Tile) (n : BitVec 7) : Nat := 16 * t.ctl.winb + 8 * n.toNat

/-- The value of window word n (R55). -/
def Tile.word (t : Tile) (n : BitVec 7) : Nat := t.slices.span (t.win n) 8

/-- The value of the pair of window words n and n+1 (R55). -/
def Tile.pair (t : Tile) (n : BitVec 7) : Nat := t.slices.span (t.win n) 16

/-- Whether the handler of a trap runs (R465). -/
def Tile.inHandler (t : Tile) : Bool := t.trap.act

/-- The first slice and slice count of a span of w bits. -/
def spanOf (start w : Nat) : Nat × Nat := (start, w / 4)

/-- A queue's entries. -/
def Control.entries (c : Control) (q : Queue) : List Entry := vget c.queues (queueNum q - 1)

/-- Replaces a queue's entries. -/
def Control.setEntries (c : Control) (q : Queue) (l : List Entry) : Control :=
  { c with queues := vset c.queues (queueNum q - 1) l }

/-- The cycle since which a queue's head is at its head. -/
def Control.since (c : Control) (q : Queue) : Option Nat := vget c.headAt (queueNum q - 1)

/-- Takes n entries off a queue; the next head has not been at the head before. -/
def Control.drop (c : Control) (q : Queue) (n : Nat) : Control :=
  { c.setEntries q ((c.entries q).drop n) with headAt := vset c.headAt (queueNum q - 1) none, pfx := none }

/-- The folio with a placement index. -/
def State.folio? (s : State) (idx : Nat) : Option Folio := s.folios.find? fun f => f.place.idx == idx

/-- Replaces the folio that has the same placement index. -/
def State.setFolio (s : State) (f : Folio) : State :=
  { s with folios := s.folios.map fun g => if g.place.idx == f.place.idx then f else g }

/-- Changes the folio with a placement index. -/
def State.onFolio (s : State) (idx : Nat) (h : Folio → Folio) : State :=
  { s with folios := s.folios.map fun g => if g.place.idx == idx then h g else g }

/-- Changes tile number t of a folio. -/
def Folio.onTile (f : Folio) (t : Nat) (h : Tile → Tile) : Folio := { f with tiles := lmap f.tiles t h }

/-- The tile at abstract coordinates. -/
def Folio.tileAt (f : Folio) (x y : Nat) : Nat := y * f.place.w + x

/-- Whether the folio's clock runs (R121). -/
def Folio.running (f : Folio) : Bool :=
  !(f.freeze.late || f.freeze.probe || f.freeze.preempt || f.freeze.debug || f.freeze.handler || f.freeze.posted)

/-- The byte of memory a tile holds at a window offset (R22). -/
def Tile.byte (t : Tile) (a : Nat) : Byte := t.stores.mem.read a

/-- Bytes of a tile's stores as a value (R21). -/
def Tile.bytes (t : Tile) (a n : Nat) : Nat := t.stores.mem.readN a n

/-- Words of eight bytes that n bytes from an offset touch. -/
def wordsOf (a n : Nat) : List Nat :=
  if n = 0 then [] else (List.range ((a + n - 1) / 8 + 1 - a / 8)).map fun i => a / 8 + i

/-- The first poisoned or uncorrectable word among those that n bytes touch (R339). -/
def Tile.badWord (t : Tile) (a n : Nat) : Option Nat :=
  if t.stores.poison.isEmpty && t.stores.bad.isEmpty then none
  else (wordsOf a n).find? fun w => t.stores.poison.contains w || t.stores.bad.contains w

/-- Every poisoned or uncorrectable word among those that n bytes touch (R339). -/
def Tile.badWords (t : Tile) (a n : Nat) : List Nat :=
  if t.stores.poison.isEmpty && t.stores.bad.isEmpty then []
  else (wordsOf a n).filter fun w => t.stores.poison.contains w || t.stores.bad.contains w

/-- Marks a word poisoned (R339). -/
def Tile.poisonWord (t : Tile) (w : Nat) : Tile :=
  { t with stores := { t.stores with poison := addMark t.stores.poison w, bad := dropMark t.stores.bad w } }

/-- Marks words poisoned (R339). -/
def Tile.poisonWords (t : Tile) (l : List Nat) : Tile := l.foldl Tile.poisonWord t

/-- Counts the words with a correctable error that a read of n bytes of SPAD finds (R339, R474). -/
def Tile.corrects (t : Tile) (a n : Nat) : Tile :=
  if t.stores.soft.isEmpty || decide (0xF8000 ≤ a) then t
  else { t with stores := { t.stores with cor := t.stores.cor + ((wordsOf a n).filter fun w => t.stores.soft.contains w).length } }

/-- Drops the marks of the words that n bytes cover whole (R477). -/
def Stores.clean (s : Stores) (a n : Nat) : Stores :=
  if s.poison.isEmpty && s.bad.isEmpty && s.soft.isEmpty then s
  else
    let keep (w : Nat) : Bool := !(decide (a ≤ 8 * w) && decide (8 * w + 8 ≤ a + n))
    { s with poison := s.poison.filter keep, bad := s.bad.filter keep, soft := s.soft.filter keep }

/-- Stores bytes in a tile and writes fresh protection of the words covered whole (R477); a line of TIM covered whole is
sound again. -/
def Tile.store (t : Tile) (a n v : Nat) : Tile :=
  let s := t.stores.clean a n
  { t with stores := { s with
      mem := s.mem.writeN a n v
      badTim := s.badTim.filter fun l => !(decide (a ≤ 0x180000 + 32 * l) && decide (0x180000 + 32 * l + 32 ≤ a + n)) } }

/-- Notes bytes of program SPAD written in this cycle, with the writer's tile and unit (R495); 255 names the tile itself. -/
def Tile.wroteBy (t : Tile) (first len fx fy unit : Nat) : Tile :=
  if first < 0xF8000 then { t with wrote := t.wrote ++ [⟨first, len, fx, fy, unit⟩] } else t

/-- The form of a WBUF line (R281). -/
def Stores.form (s : Stores) (l : Nat) : Nat := bitsAt s.forms.toNat (2 * l) 2

/-- Sets the form of count WBUF lines from l on (R281). -/
def Stores.setForms (s : Stores) (l count form : Nat) : Stores :=
  match count with
  | 0 => s
  | count + 1 => Stores.setForms { s with forms := BitVec.ofNat 2048 (putBits s.forms.toNat (2 * l) 2 form) } (l + 1) count form

/-- A line of TIM (R22, R39). -/
def Tile.timLine (t : Tile) (l : Nat) : Line := BitVec.ofNat 256 (t.bytes (0x180000 + 32 * l) 32)

/-- Lane n of a line (R39). -/
def lane (l : Line) (n : Nat) : Word := l.extractLsb' (32 * n) 32

/-- The seam-crossing cost of a route between two columns (R131). -/
def seamCost (p : Place) (x0 x1 : Nat) : Nat :=
  if p.seam = 0 then 0
  else if (x0 < p.seam ∧ p.seam ≤ x1) ∨ (x1 < p.seam ∧ p.seam ≤ x0) then 20 else 0

/-- The distance of two coordinates. -/
def dist (a b : Nat) : Nat := (a - b) + (b - a)

/-- Cycles of an uncontended message between two tiles (R131). -/
def hops (p : Place) (x0 y0 x1 y1 : Nat) : Nat := 2 + dist x0 x1 + dist y0 y1 + seamCost p x0 x1

/-- A coordinate plus a signed 8-bit offset. -/
def shift (x : Nat) (d : Nat) : Int := (x : Int) + toSigned 8 d

/-- The tile that offsets name, when it lies in the rectangle (R26, R27). -/
def Place.target (p : Place) (fx fy dx dy : Nat) : Option (Nat × Nat) :=
  let x := shift fx dx
  let y := shift fy dy
  if 0 ≤ x ∧ x < p.w ∧ 0 ≤ y ∧ y < p.h then some (x.toNat, y.toNat) else none

/-- The trap information of the outward-word fence: the abstract destination (R418). -/
def fenceInfo (fx fy dx dy : Nat) : Nat :=
  ofSigned 16 (shift fx dx) * 2 ^ 16 + ofSigned 16 (shift fy dy)

/-- Stores of a window that a program may name: SPAD below the drain area, WBUF, accumulators, slice file, TIM; with
their ends (R20, R22, R27). -/
def windowStore (off : Nat) : Option (Nat × Nat) :=
  if off < 0xF8000 then some (0, 0xF8000)
  else if 0x100000 ≤ off ∧ off < 0x140000 then some (0x100000, 0x140000)
  else if 0x140000 ≤ off ∧ off < 0x150000 then some (0x140000, 0x150000)
  else if 0x150000 ≤ off ∧ off < 0x150800 then some (0x150000, 0x150800)
  else if 0x180000 ≤ off ∧ off < 0x1A0000 then some (0x180000, 0x1A0000)
  else none

/-- The checks of R27 on a folio-relative window address, in their order: the target tile and offset, or the cause with
its information. wide lifts the reserved field for BCST (R377). -/
def checkWindow (p : Place) (fx fy a : Nat) (wide : Bool) : Except (Nat × Nat) (Nat × Nat × Nat) :=
  let dx := bitsAt a 32 8
  let dy := bitsAt a 24 8
  let off := bitsAt a 0 22
  if (!wide && bitsAt a 40 24 != 0) || (wide && bitsAt a 56 8 != 0) || bitsAt a 22 2 != 0 then .error (5, a)
  else
    match p.target fx fy dx dy with
    | none => .error (66, fenceInfo fx fy dx dy)
    | some (x, y) => if (windowStore off).isNone then .error (45, a) else .ok (x, y, off)

/-- Numerical events of one element, as counts by class. -/
def evOf (o : Option Nat) : List (Nat × Nat) :=
  match o with
  | none => []
  | some c => [(c, 1)]

/-- Adds event counts of one class to a list of counts. -/
def addEv (l : List (Nat × Nat)) (c n : Nat) : List (Nat × Nat) :=
  match l with
  | [] => if n = 0 then [] else [(c, n)]
  | p :: r => if p.1 = c then (c, p.2 + n) :: r else p :: addEv r c n

/-- Sums two lists of event counts. -/
def sumEv (a b : List (Nat × Nat)) : List (Nat × Nat) := b.foldl (fun l p => addEv l p.1 p.2) a

/-- The rounding and saturation of an instruction (R189): the PFX where it supplies them, FPCTL otherwise. -/
def Ctx.rnd (c : Ctx) (t : Tile) : Rnd :=
  { rm := match c.pfx.bind (·.rm) with
      | some m => m.toNat
      | none => t.csr.fpctl.toNat % 8
    sat := match c.pfx.bind (·.sat) with
      | some b => b
      | none => t.csr.fpctl.getLsbD 3 }

/-- The saturation of an instruction that does not read FPCTL (R224): the PFX's, else none. -/
def Ctx.sat (c : Ctx) : Bool := (c.pfx.bind (·.sat)).getD false

/-- The ordering class of an access (R310): the PFX's where it overrides. -/
def Ctx.cls (c : Ctx) (enc : Nat) : Nat :=
  match c.pfx.bind (·.ocl) with
  | some o => o.toNat
  | none => enc

/-- The draw of element i of an instruction (R193), by the folio's region-local cycle, which stands still in a handler. -/
def Ctx.drawAt (c : Ctx) (t : Tile) (i : Nat) : Nat := draw t.csr.rseed c.cyc i

/-- The control state an entry to a local handler starts from (R465). -/
def Control.handler (line hwinb : Nat) : Control :=
  { queues := Vector.replicate 6 [], headAt := Vector.replicate 6 none
    fetch := { seqCtr := 0, direct := [line, line + 1], directAt := 0, buf := [], nextRead := line + 2, running := true
               owe := none, cross := [], readFrom := 0, ahead := none, renewAt := 0, ifence := 0
               flags := [] }
    btgt := Vector.replicate 8 ⟨0, -5, true⟩, loops := Vector.replicate 4 ⟨false, 0, 0, 0, 0⟩
    winb := hwinb, pfx := none, notBefore := 0 }

/-- The handling class of a cause (R462, R473): L may run a local handler, F is fatal, every other is posted. -/
def causeLocal (c : Nat) : Bool :=
  [3, 4, 5, 17, 20, 21, 32, 33, 34, 35, 36, 37, 46, 47, 88, 90, 91].contains c

/-- The fatal causes (R473). -/
def causeFatal (c : Nat) : Bool := [50, 51, 85, 94].contains c

/-- Writes the trap CSRs for the causes a tile raised in one cycle: the lowest code, then the queue order (R461). -/
def recordTrap (cyc : Nat) (raises : List Raise) (old : TrapCsrs) : TrapCsrs :=
  match raises with
  | [] => old
  | r0 :: rest =>
    let r := rest.foldl (fun m x =>
      if x.cause < m.cause || (x.cause == m.cause && x.inst && m.inst && x.queue < m.queue) then x else m) r0
    { old with
      tcause := BitVec.ofNat 64 (r.cause + (if rest.isEmpty then 0 else 128) + 256 * raises.foldl (fun m x => m ||| x.cls) 0)
      tcyc := BitVec.ofNat 64 cyc
      tpos := BitVec.ofNat 64 (r.line * 4096 + r.lane * 256 + (if r.inst then 128 else 0) + r.queue)
      targ := BitVec.ofNat 64 r.arg
      tinfo := BitVec.ofNat 64 r.info
      tinfo2 := BitVec.ofNat 64 r.info2 }

/-- The cause a tile has recorded (R464). -/
def TrapCsrs.cause (t : TrapCsrs) : Nat := t.tcause.toNat % 128

/-- Whether the recorded cause runs a local handler at this tile (R462). -/
def TrapCsrs.runsLocal (t : TrapCsrs) : Bool :=
  let c := t.cause
  causeLocal c && t.tvec.getLsbD 31 && (if c < 64 then t.tloc0.getLsbD c else t.tloc1.getLsbD (c - 64))

/-- Taking a trap in the tile (R465): the control state moves into the shadow set and the handler starts at TVEC.line
with WINB hwinb, HCYC 0, act 1 and skip 0. -/
def Tile.enterHandler (t : Tile) : Tile :=
  { t with
    shadow := some t.ctl
    ctl := Control.handler (t.trap.tvec.toNat % 4096) (t.trap.tvec.toNat / 2 ^ 16 % 256)
    trap := { t.trap with act := true, skip := false, hcyc := 0 }
    raises := [] }

/-- The queue that TPOS names. -/
def TrapCsrs.posQueue (t : TrapCsrs) : Option Queue := queueOf (t.tpos.toNat % 8)

/-- Whether a word begins a CE instruction with its follow-on flag set (R296). -/
def followFlag (w0 : Word) : Bool := major w0 == 0x60 && w0.getLsbD 13

/-- The flagged copies among some entries have trapped: what they arm never issues (R296). -/
def Control.lose (c : Control) (l : List Entry) : Control :=
  { c with lost := c.lost ++ (l.filter fun e => followFlag e.w0).map (·.seq) }

/-- Discards the faulting entry that TPOS names, with the PFX paired with it (R467); where TPOS names a PFX, that entry alone. -/
def Control.discard (c : Control) (tr : TrapCsrs) : Control :=
  match tr.posQueue with
  | none => c
  | some q =>
    let l := c.entries q
    let here (e : Entry) : Bool := e.line == tr.tpos.toNat / 4096 % 4096 && e.lane == tr.tpos.toNat / 256 % 8
    match l with
    | e :: r =>
      if here e then (c.lose [e]).drop q 1
      else (match r with
        | e' :: _ => if here e' then (c.lose [e']).drop q 2 else c
        | [] => c)
    | [] => c

/-- Returning from a handler (R467): the shadow set is restored, the faulting entry is discarded when skip is 1 and the
trap is at an entry, and act falls. The folio resumes once every handler has returned. -/
def Tile.leaveHandler (t : Tile) : Tile :=
  match t.shadow with
  | none => t
  | some c =>
    let c' := if t.trap.skip && t.trap.tpos.getLsbD 7 then c.discard t.trap else c
    { t with ctl := c', shadow := none, trap := { t.trap with act := false } }

end Sys2Proof.Machine
end

