-- ==== Sys2Proof/Machine/Operands.lean ====
section
/-! DEFINITION. Operand forms: sources extended or truncated to the operation width (R54, R85), window words (R55),
spans of the long formats (R58-R65), lanes of vector operands (R251). -/

namespace Sys2Proof.Machine

/-- A source of sw bits at an operation width: truncated, sign-extended or zero-extended (R85). -/
def extendTo (sw w : Nat) (zero : Bool) (v : Nat) : Nat :=
  if w ≤ sw then v % 2 ^ w
  else if zero then v % 2 ^ sw else ofSigned w (toSigned sw v)

/-- The value of a span of w bits at a start slice. -/
def Tile.spanBits (t : Tile) (start w : Nat) : Nat := t.slices.span start (w / 4)

/-- The window word n as a span. -/
def Tile.wSpan (t : Tile) (n : BitVec 7) : Nat × Nat := (t.win n, 8)

/-- The pair of window words n, n+1 as a span (R55). -/
def Tile.pairSpan (t : Tile) (n : BitVec 7) : Nat × Nat := (t.win n, 16)

/-- Lane i of a span's value for elements of w bits (R179, R251). -/
def laneOf (w v i : Nat) : Nat := bitsAt v (w * i) w

/-- Elements of w bits packed from element 0 on (R179). -/
def packLanes (w : Nat) (l : List Nat) : Nat := l.foldr (fun x v => x % 2 ^ w + v * 2 ^ w) 0

/-- An address formed modulo 2^32 (R332). -/
def addr32 (base : Nat) (d : Int) : Nat := ofSigned 32 (base + d)

end Sys2Proof.Machine

namespace Sys2Proof

/-- Source a of a long form at an operation width (R58, R85). -/
def Long3.srcA (o : Long3) (t : Machine.Tile) (w : Nat) : Nat := Machine.extendTo o.aBits w o.sxa (Machine.Tile.spanBits t o.as.toNat o.aBits)

/-- Source b of a long form at an operation width (R58, R85). -/
def Long3.srcB (o : Long3) (t : Machine.Tile) (w : Nat) : Nat := Machine.extendTo o.bBits w o.sxb (Machine.Tile.spanBits t o.bs.toNat o.bBits)

/-- Spans of a long form as first slice and slice count. -/
def Long3.dSpan (o : Long3) : Nat × Nat := Machine.spanOf o.ds.toNat o.dBits
def Long3.aSpan (o : Long3) : Nat × Nat := Machine.spanOf o.as.toNat o.aBits
def Long3.bSpan (o : Long3) : Nat × Nat := Machine.spanOf o.bs.toNat o.bBits

/-- Spans of a vector form; starts count four slices (R61). -/
def LongVec.dSpan (o : LongVec) : Nat × Nat := Machine.spanOf (4 * o.ds.toNat) o.dBits
def LongVec.aSpan (o : LongVec) : Nat × Nat := Machine.spanOf (4 * o.as.toNat) o.aBits
def LongVec.bSpan (o : LongVec) : Nat × Nat := Machine.spanOf (4 * o.bs.toNat) o.bBits

/-- Values of the vector operands. -/
def LongVec.dVal (o : LongVec) (t : Machine.Tile) : Nat := Machine.Tile.spanBits t (4 * o.ds.toNat) o.dBits
def LongVec.aVal (o : LongVec) (t : Machine.Tile) : Nat := Machine.Tile.spanBits t (4 * o.as.toNat) o.aBits
def LongVec.bVal (o : LongVec) (t : Machine.Tile) : Nat := Machine.Tile.spanBits t (4 * o.bs.toNat) o.bBits

/-- The data span of a memory form (R62). -/
def LongMem.bits (o : LongMem) : Nat := widthBits o.wv
def LongMem.vSpan (o : LongMem) : Nat × Nat := Machine.spanOf o.vs.toNat o.bits

/-- The signed 16-bit displacement (R62). -/
def LongMem.disp (o : LongMem) : Int := Machine.toSigned 16 (o.hi.toNat * 256 + o.lo.toNat)

/-- The 32-bit base span (R62). -/
def LongMem.baseSpan (o : LongMem) : Nat × Nat := (o.bas.toNat, 8)

/-- The index span of LDX and STX (R343). -/
def LongMem.indexStart (o : LongMem) : Nat := o.hi.toNat % 16 * 256 + o.lo.toNat

end Sys2Proof
end

