-- ==== Sys2Proof/Machine/Flags.lean ====
section
/-! DEFINITION. What the spec has for flags: conditions on values (R67), predicates, numerical event counts and their
windows (R199, R200). -/

namespace Sys2Proof.Machine

/-- A condition of R67 on two values at width w, signed or, under .z, unsigned (R241). -/
def condHolds (c : Cond) (w a b : Nat) : Bool :=
  let sa := toSigned w a
  let sb := toSigned w b
  match c with
  | .eq => a == b
  | .ne => a != b
  | .lt => decide (sa < sb)
  | .le => decide (sa ≤ sb)
  | .gt => decide (sb < sa)
  | .ge => decide (sb ≤ sa)
  | .ltz => decide (a < b)
  | .lez => decide (a ≤ b)
  | .gtz => decide (b < a)
  | .gez => decide (b ≤ a)

/-- Whether a condition reads its values as unsigned (R67). -/
def condZero (c : Cond) : Bool :=
  match c with
  | .ltz | .lez | .gtz | .gez => true
  | _ => false

/-- A write of one predicate (R99). -/
def predWrite (n : Nat) (v : Bool) : PendDest :=
  .preds (BitVec.ofNat 16 (2 ^ n)) (if v then BitVec.ofNat 16 (2 ^ n) else 0)

/-- The window length of a class's NEVCFG (R198). -/
def nevWindow (cfg : Dword) : Nat := cfg.toNat / 2 ^ 32 % 2 ^ 24

/-- The threshold of a class's NEVCFG (R198). -/
def nevThresh (cfg : Dword) : Nat := cfg.toNat % 2 ^ 32

/-- The mode of a class's NEVCFG (R198). -/
def nevMode (cfg : Dword) : Nat := cfg.toNat / 2 ^ 62

/-- A count with n more events, saturating, and whether the threshold is first exceeded now (R199, R200): only where
events are added (log 119). -/
def nevAdd (cfg cnt : Dword) (n : Nat) : Dword × Bool :=
  if nevWindow cfg = 0 ∨ n = 0 then (cnt, false)
  else
    let c := min (2 ^ 32 - 1) (cnt.toNat % 2 ^ 32 + n)
    let fired := cnt.getLsbD 63
    let acts := !fired && decide (nevThresh cfg < c)
    (BitVec.ofNat 64 (c + (if fired || acts then 2 ^ 63 else 0)), acts)

/-- The count at a window's start (R199). -/
def nevStart (cfg cnt : Dword) (cyc : Nat) : Dword :=
  if nevWindow cfg ≠ 0 ∧ cyc % nevWindow cfg = 0 then 0 else cnt

end Sys2Proof.Machine
end

