-- ==== Sys2Proof/Machine/Aes.lean ====
section
/-! DEFINITION. AES-256 as FIPS 197 defines it and GMAC as NIST SP 800-38D defines it, for the encryption and the integrity tag of
HBM lines (R444; log 8). A block is a number of 128 bits whose most significant byte comes first. -/

namespace Sys2Proof.Machine

/-- The bytes of the S-box, the last one first. -/
def aesSbox : Nat :=
  0x16bb54b00f2d99416842e6bf0d89a18cdf2855cee9871e9b948ed9691198f8e19e1dc186b95735610ef6034866b53e708a8bbd4b1f74dde8c6b4a61c2e2578ba08ae7a65eaf4566ca94ed58d6d37c8e779e4959162acd3c25c2406490a3a32e0db0b5ede14b8ee4688902a22dc4f816073195d643d7ea7c41744975fec130ccdd2f3ff1021dab6bcf5389d928f40a351a89f3c507f02f94585334d43fbaaefd0cf584c4a39becb6a5bb1fc20ed00d153842fe329b3d63b52a05a6e1b1a2c830975b227ebe28012079a059618c323c7041531d871f1e5a534ccf73f362693fdb7c072a49cafa2d4adf04759fa7dc982ca76abd7fe2b670130c56f6bf27b777c63

/-- The S-box. -/
def aesSub (b : Nat) : Nat := bitsAt aesSbox (8 * b) 8

/-- A byte times x in the field of AES. -/
def aesTimes2 (b : Nat) : Nat := if b < 128 then 2 * b else (2 * b) ^^^ 0x11B

/-- The bytes of a block, first byte first. -/
def blockBytes128 (v : Nat) : List Nat := (List.range 16).map fun i => bitsAt v (8 * (15 - i)) 8

/-- Some bytes as a number, first byte most significant. -/
def ofBytes128 (l : List Nat) : Nat := l.foldl (fun v b => 256 * v + b) 0

/-- A column of a block mixed. -/
def aesMix (a b c d : Nat) : List Nat :=
  let t := a ^^^ b ^^^ c ^^^ d
  [a ^^^ t ^^^ aesTimes2 (a ^^^ b), b ^^^ t ^^^ aesTimes2 (b ^^^ c), c ^^^ t ^^^ aesTimes2 (c ^^^ d), d ^^^ t ^^^ aesTimes2 (d ^^^ a)]

/-- SubBytes and ShiftRows. -/
def aesShift (l : List Nat) : List Nat := (List.range 16).map fun i => aesSub (l.getD (5 * i % 16 ) 0)

/-- MixColumns. -/
def aesColumns (l : List Nat) : List Nat :=
  (List.range 4).flatMap fun c => aesMix (l.getD (4 * c) 0) (l.getD (4 * c + 1) 0) (l.getD (4 * c + 2) 0) (l.getD (4 * c + 3) 0)

/-- A word of the key schedule with the S-box applied to its bytes. -/
def aesSubWord (w : Nat) : Nat := ofBytes128 ((List.range 4).map fun i => aesSub (bitsAt w (8 * (3 - i)) 8))

/-- The next word of the key schedule, number i, before the words that it has so far, newest first. -/
def aesNext (l : List Nat) (i : Nat) : List Nat :=
  let w := l.getD 0 0
  let t := if i % 8 = 0 then aesSubWord (w % 2 ^ 24 * 256 + w / 2 ^ 24) ^^^ 2 ^ (i / 8 - 1 + 24)
    else if i % 8 = 4 then aesSubWord w else w
  (l.getD 7 0 ^^^ t) :: l

/-- The fifteen round keys of a key of 256 bits. -/
def aesKeys (key : Nat) : List Nat :=
  let w := ((List.range 52).foldl (fun l i => aesNext l (i + 8)) ((List.range 8).map fun i => bitsAt key (32 * i) 32)).reverse
  (List.range 15).map fun r => (List.range 4).foldl (fun v i => v * 2 ^ 32 + w.getD (4 * r + i) 0) 0

/-- AES-256 of a block. -/
def aes256 (key block : Nat) : Nat :=
  let ks := aesKeys key
  let v := ((ks.drop 1).take 13).foldl (fun v k => ofBytes128 (aesColumns (aesShift (blockBytes128 v))) ^^^ k) (block ^^^ ks.getD 0 0)
  ofBytes128 (aesShift (blockBytes128 v)) ^^^ ks.getD 14 0

/-- The product of two blocks in the field of GHASH: n more bits of x, the most significant first. -/
def ghashTimes (x v z n : Nat) : Nat :=
  match n with
  | 0 => z
  | n + 1 => ghashTimes x (if v % 2 = 1 then v / 2 ^^^ 0xE1 * 2 ^ 120 else v / 2) (if x.testBit n then z ^^^ v else z) n

/-- GMAC of four blocks under an initialisation vector of 96 bits. -/
def gmac (key iv : Nat) (aad : List Nat) : Nat :=
  let h := aes256 key 0
  let s := (aad ++ [128 * aad.length * 2 ^ 64]).foldl (fun y x => ghashTimes (y ^^^ x) h 0 128) 0
  s ^^^ aes256 key (iv * 2 ^ 32 + 1)

/-- A block with its bytes in reverse: what its bytes are as a little-endian value (log 8). -/
def flip128 (v : Nat) : Nat := ofBytes128 (blockBytes128 v).reverse

/-- The counter block j of a line (R444). -/
def cipherBlock (pa ver j : Nat) : Nat := bitsAt pa 6 42 * 2 ^ 70 + ver % 4 * 2 ^ 68 + j

/-- The 64 bytes that encrypt a line, as a little-endian value (R444). -/
def lineStream (key : BitVec 256) (pa ver : Nat) : Nat :=
  (List.range 4).foldl (fun v j => v + flip128 (aes256 key.toNat (cipherBlock pa ver j)) * 2 ^ (128 * j)) 0

/-- The integrity tag of a line's ciphertext (R444). -/
def lineTag (key : BitVec 256) (pa ver c : Nat) : Nat :=
  gmac key.toNat (bitsAt pa 6 42 * 2 ^ 54 + ver % 4 * 2 ^ 52) ((List.range 4).map fun j => flip128 (bitsAt c (128 * j) 128)) % 2 ^ 32

end Sys2Proof.Machine
end

