-- ==== Sys2Proof/Machine/Events.lean ====
section
/-! DEFINITION. What the hub writes to the host beside data: event records (R469, R470), fault records (R439), MSI-X
vectors (R503), error records and the counters with their warnings (R478-R480). -/

namespace Sys2Proof.Machine

/-- Wall time in nanoseconds: a tick is one cycle at 1.8 GHz (log 6). -/
def State.nowNs (s : State) : Nat := s.wall * 5 / 9

/-- Wall time in microseconds (log 6). -/
def State.nowUs (s : State) : Nat := s.wall / 1800

/-- The registers of a function. -/
def State.func (s : State) (f : Nat) : FuncRegs := vget s.funcs f

/-- Changes the registers of a function. -/
def State.onFunc (s : State) (f : Nat) (h : FuncRegs → FuncRegs) : State :=
  { s with funcs := vset s.funcs f (h (s.func f)) }

/-- The message of a vector is written to the host (R503). -/
def State.message (s : State) (v : Vect) : State := { s with hostMem := s.hostMem.writeN v.addr.toNat 4 v.data.toNat }

/-- A vector of a function is signalled (R503): its message is written, or a masked vector pends. -/
def State.interrupt (s : State) (f v : Nat) : State :=
  let x := vget (s.func f).msix v
  if x.masked then s.onFunc f fun r => { r with pending := addMark r.pending v } else s.message x

/-- The hub logs an error record: kind 0 unbacked access, 1 integrity, 2 host completion, 3 partial write of a poisoned
line, 4 MAC failure; with the function concerned (R25, R446, R448, R477, R505). -/
def State.logError (s : State) (kind f : Nat) : State := { s with dev := { s.dev with errlog := s.dev.errlog ++ [(kind, f)] } }

/-- What an event record says beside its number and time (R470). -/
structure Event where
  kind : Nat
  cause : Nat
  queue : Nat
  flags : Nat
  job : Nat
  fx : Nat
  fy : Nat
  line : Nat
  lane : Nat
  cls : Nat
  arg : Nat
  cycle : Nat
  info : Nat
  info2 : Nat
  deriving DecidableEq, Repr, Inhabited

/-- An event record that names no tile (R480). -/
def Event.plain (kind cause job info info2 : Nat) : Event :=
  { kind := kind, cause := cause, queue := 0, flags := 0, job := job, fx := 0, fy := 0, line := 0, lane := 0, cls := 0
    arg := 0, cycle := 0, info := info, info2 := info2 }

/-- The 64 bytes of an event record (R470). -/
def Event.bytes (e : Event) (seq time : Nat) : Nat :=
  e.kind % 256 + e.cause % 256 * 2 ^ 8 + e.queue % 256 * 2 ^ 16 + e.flags % 256 * 2 ^ 24 + e.job % 2 ^ 32 * 2 ^ 32
  + seq % 2 ^ 32 * 2 ^ 64 + e.fx % 256 * 2 ^ 96 + e.fy % 256 * 2 ^ 104 + e.line % 2 ^ 16 * 2 ^ 112
  + e.lane % 256 * 2 ^ 128 + e.cls % 256 * 2 ^ 136 + e.arg % 2 ^ 16 * 2 ^ 144 + e.cycle % 2 ^ 64 * 2 ^ 192
  + e.info % 2 ^ 64 * 2 ^ 256 + e.info2 % 2 ^ 64 * 2 ^ 320 + time % 2 ^ 64 * 2 ^ 384

/-- Whether a ring register enables its ring (R434, R469). -/
def ringOn (base : Dword) : Bool := decide (4 ≤ base.toNat % 16) && decide (base.toNat % 16 ≤ 12)

/-- The host address of slot n of a ring whose records have sz bytes. -/
def ringSlot (base : Dword) (n sz : Nat) : Nat := base.toNat / 64 * 64 + n % 2 ^ (base.toNat % 16) * sz

/-- Writes an event record to a function's ring, when the ring is enabled (R469). -/
def State.event (s : State) (f : Nat) (e : Event) : State :=
  let r := s.func f
  if !ringOn r.evbase then s
  else
    let n := r.evtail.toNat
    let s := { s with hostMem := s.hostMem.writeN (ringSlot r.evbase n 64) 64 (e.bytes n s.nowNs) }
    let s := s.onFunc f fun r => { r with evtail := r.evtail + 1 }
    if r.evctl.getLsbD 1 then s.interrupt f 1 else s

/-- Counts on a saturating 32-bit counter (R478). -/
def satCount (n : Nat) : Nat := min (n + 1) 0xFFFFFFFF

/-- The functions whose running or held folios use a channel (R479). -/
def State.channelUsers (s : State) (ch : Nat) : List Nat :=
  ((s.folios.filter fun f => f.place.chans.any fun p => p.2 == ch).map fun f => f.place.func).eraseDups

/-- The functions whose running or held folios may use a link (R479, R508). -/
def State.linkUsers (s : State) (l : Nat) : List Nat :=
  let k := vget s.links l
  if !k.v then []
  else ((s.folios.filter fun f => f.place.func == k.func && f.launch.job == k.job).map fun f => f.place.func).eraseDups

/-- ERRCFG's fields: records, checkpoints, window in milliseconds, threshold (R478). -/
def errRec (c : Dword) : Bool := c.getLsbD 63
def errCk (c : Dword) : Bool := c.getLsbD 62
def errWin (c : Dword) : Nat := bitsAt c.toNat 32 16
def errThr (c : Dword) : Nat := bitsAt c.toNat 0 32

/-- The checkpoints that a warning calls for, in the order of arming (R479): each waits for the one before it (R482). -/
def FuncRegs.warned (r : FuncRegs) : FuncRegs := { r with ckwait := r.ckwait ++ r.ckarmed.filter fun j => !r.ckwait.contains j }

/-- A warning's actions (R479): records to the physical function and to the functions concerned, checkpoints for their
armed jobs. A record to a virtual function names the channel by its abstract number (R480). -/
def State.warning (s : State) (source num abs unc cor : Nat) (users : List Nat) : State :=
  let e (n : Nat) : Event := Event.plain 4 0 0 (source * 256 + n) (unc * 2 ^ 32 + cor)
  let s := if errRec s.dram.errcfg then (users.filter fun f => f != 0).foldl (fun s f => s.event f (e abs)) (s.event 0 (e num)) else s
  if errCk s.dram.errcfg then users.foldl (fun s f => s.onFunc f FuncRegs.warned) s else s

/-- Changes a channel. -/
def State.onChan (s : State) (ch : Nat) (h : Chan → Chan) : State :=
  { s with dram := { s.dram with chans := vset s.dram.chans ch (h (vget s.dram.chans ch)) } }

/-- Counts an uncorrectable error on a channel, with its warning (R478, R479). -/
def State.countUnc (s : State) (ch : Nat) : State :=
  let s := s.onChan ch fun c => { c with unc := satCount c.unc }
  let c := vget s.dram.chans ch
  if errWin s.dram.errcfg = 0 then s else s.warning 1 ch c.index c.unc c.cor (s.channelUsers ch)

/-- Counts a corrected error on a channel (R478): the first one beyond the threshold in a window warns (R479). -/
def State.countCor (s : State) (ch : Nat) : State :=
  let s := s.onChan ch fun c => { c with cor := satCount c.cor, winCor := c.winCor + 1 }
  let c := vget s.dram.chans ch
  if errWin s.dram.errcfg = 0 || c.warned || decide (c.winCor ≤ errThr s.dram.errcfg) then s
  else (s.onChan ch fun c => { c with warned := true }).warning 1 ch c.index c.unc c.cor (s.channelUsers ch)

/-- Changes a link. -/
def State.onLink (s : State) (l : Nat) (h : Link → Link) : State := { s with links := vset s.links l (h (vget s.links l)) }

/-- Counts a flit that the replay did not recover (R478, R479). -/
def State.countLinkUnc (s : State) (l : Nat) : State :=
  let s := s.onLink l fun c => { c with unc := satCount c.unc }
  let c := vget s.links l
  if errWin s.dram.errcfg = 0 then s else s.warning 2 l l c.unc c.cor (s.linkUsers l)

/-- Counts a flit corrected by FEC or by replay (R478, R479). -/
def State.countLinkCor (s : State) (l : Nat) : State :=
  let s := s.onLink l fun c => { c with cor := satCount c.cor, winCor := c.winCor + 1 }
  let c := vget s.links l
  if errWin s.dram.errcfg = 0 || c.warned || decide (c.winCor ≤ errThr s.dram.errcfg) then s
  else (s.onLink l fun c => { c with warned := true }).warning 2 l l c.unc c.cor (s.linkUsers l)

end Sys2Proof.Machine
end

