-- ==== Sys2Proof/Machine/Hbm.lean ====
section
/-! DEFINITION. Lines of HBM by physical address (R432): marks, ciphertext, key versions and tags (R421, R444-R446, R474),
and host addresses (R434). -/

namespace Sys2Proof.Machine

/-- The physical channel of an HBM address (R432). -/
def chanNum (pa : Nat) : Nat := bitsAt pa 31 8

/-- The line number of an HBM address within its channel. -/
def chanLine (pa : Nat) : Nat := bitsAt pa 0 31 / 64

/-- Whether an address lies in a backed part of HBM (R432). -/
def backed (pa : Nat) : Bool := decide (pa < 2 ^ 39) && decide (bitsAt pa 0 31 < 0x60000000)

/-- Whether an address lies in the host window (R432). -/
def inHostWindow (pa : Nat) : Bool := decide (2 ^ 47 ≤ pa) && decide (pa < 0xF00000000000)

/-- The host bus address of an address in the host window (R432, R434). -/
def State.hostAddr (s : State) (f pa : Nat) : Nat :=
  ((s.func f).hostbase.toNat / 2 ^ 16 * 2 ^ 16 + (pa - 2 ^ 47)) % 2 ^ 64

/-- Whether a line is marked pending-clear (R421). -/
def Chan.pendingClear (c : Chan) (l : Nat) : Bool := decide (c.clearFrom ≤ l) && !c.cleared.contains l

/-- The metadata of a line (R444): its key version and its integrity tag; none where nothing has been written. -/
def Chan.meta (c : Chan) (l : Nat) : Option (Nat × Nat) := (c.tags.find? fun p => p.1 == l).map Prod.snd

/-- The key version of a line (R444). -/
def Chan.version (c : Chan) (l : Nat) : Nat := ((c.meta l).map Prod.fst).getD 0

/-- Whether a version's key slot is loaded (R446, R453). -/
def State.versionLoaded (s : State) (f v : Nat) : Bool := (vget (s.func f).keys v).loaded

/-- The version that a write of a function takes (R444). -/
def FuncRegs.writeVersion (r : FuncRegs) : Nat := if r.keyarmed then r.keynext else r.keycur

/-- The stored ciphertext of a line. -/
def State.cipher (s : State) (pa : Nat) : Nat := s.dram.hbm.readN (pa / 64 * 64) 64

/-- The keys under which a line of a channel stands, or would stand with a version (R444): those of its lessee. -/
def State.lineKeys (s : State) (pa ver : Nat) : KeySlot := vget (s.func (vget s.dram.chans (chanNum pa)).func).keys ver

/-- A line decrypted (R444, R446). -/
def State.plain (s : State) (pa : Nat) : Nat :=
  let ver := (vget s.dram.chans (chanNum pa)).version (chanLine pa)
  s.cipher pa ^^^ lineStream (s.lineKeys pa ver).enc pa ver

/-- Whether a line fails its integrity check (R446): its version's slot is empty, or its tag is another. -/
def State.tagFails (s : State) (pa : Nat) : Bool :=
  match (vget s.dram.chans (chanNum pa)).meta (chanLine pa) with
  | none => true
  | some m =>
    let k := s.lineKeys pa m.1
    !k.loaded || lineTag k.mac pa m.1 (s.cipher pa) != m.2

/-- Marks a line poisoned; it is then neither uncorrectable nor failing (R446). -/
def Chan.poisonLine (c : Chan) (l : Nat) : Chan :=
  { c with poison := addMark c.poison l, bad := dropMark c.bad l, soft := dropMark c.soft l }

/-- Whether a read finds a line uncorrectable or failing its integrity check (R421, R446). -/
def State.lineFails (s : State) (pa : Nat) : Bool :=
  let c := vget s.dram.chans (chanNum pa)
  let l := chanLine pa
  !c.pendingClear l && (c.bad.contains l || s.tagFails pa)

/-- Whether a copier may not pass a line on: it fails, or it is poisoned (R443, R476, R486, log 102). -/
def State.lineStops (s : State) (pa : Nat) : Bool :=
  let c := vget s.dram.chans (chanNum pa)
  s.lineFails pa || (!c.pendingClear (chanLine pa) && c.poison.contains (chanLine pa))

/-- A read of a whole line by a calendar slot, an Inkwell lane, the walker or a copier (R421, R446, R474): the data, whether
the line is poisoned, and the state with the marks and counts that the read leaves. -/
def State.readLine (s : State) (pa : Nat) : Nat × Bool × State :=
  let ch := chanNum pa
  let c := vget s.dram.chans ch
  let l := chanLine pa
  if c.pendingClear l then (0, false, s)
  else
    let v := s.plain pa
    if c.bad.contains l then (v, true, (s.onChan ch fun c => c.poisonLine l).countUnc ch)
    else
      let s := if c.soft.contains l then s.countCor ch else s
      if s.tagFails pa then (v, true, (s.onChan ch fun c => c.poisonLine l).logError 1 c.func)
      else (v, c.poison.contains l, s)

/-- Whether a line of a channel is marked pending-clear (R421): more lines stand from the sweep's line on than have been written. -/
def Chan.marksLeft (c : Chan) : Bool :=
  decide (c.clearFrom + (c.cleared.filter fun l => decide (c.clearFrom ≤ l)).length < 0x1800000)

/-- clr stands while a mark remains (R421). -/
def Chan.settleClr (c : Chan) : Chan := { c with clr := c.clr && c.marksLeft }

/-- The marks of a channel after a write of a whole line (R421, R444, R477). -/
def Chan.wrote (c : Chan) (l ver tag : Nat) (poison : Bool) : Chan :=
  Chan.settleClr { c with
    cleared := if c.pendingClear l then addMark c.cleared l else c.cleared
    bad := dropMark c.bad l
    soft := dropMark c.soft l
    poison := if poison then addMark c.poison l else dropMark c.poison l
    tags := (l, ver, tag) :: c.tags.filter fun p => p.1 != l }

/-- Stores a whole line encrypted under a version, with its tag (R444). -/
def State.seal (s : State) (pa ver v : Nat) (poison : Bool) : State :=
  let k := s.lineKeys pa ver
  let c := v % 2 ^ 512 ^^^ lineStream k.enc pa ver
  let s := { s with dram := { s.dram with hbm := s.dram.hbm.writeN (pa / 64 * 64) 64 c } }
  s.onChan (chanNum pa) fun d => d.wrote (chanLine pa) ver (lineTag k.mac pa ver c) poison

/-- Puts a whole line into HBM under the version that its lessee's writes take (R444, R476, R477). -/
def State.putLine (s : State) (pa v : Nat) (poison : Bool) : State :=
  s.seal pa (s.func (vget s.dram.chans (chanNum pa)).func).writeVersion v poison

/-- The number within its shard of a source line that a checkpoint has not copied yet (R484). -/
def Ckpt.uncopied (k : Ckpt) (pa : Nat) : Option (Seg × Nat) :=
  let l := pa / 64 * 64
  (k.segs.find? fun g => decide (g.src ≤ l) && decide (l < g.src + g.len)).bind fun g =>
    let n := g.base + (l - g.src) / 64
    if g.shard < k.shard ∨ (g.shard = k.shard ∧ n < k.line) ∨ (k.kept.any fun x => x.1 == l) then none else some (g, n)

/-- The checkpoint of a function fails at a line of a shard (R486). -/
def State.ckptFail (s : State) (f shard line : Nat) : State :=
  let job := (((s.func f).ckpt).map fun (k : Ckpt) => k.job.toNat).getD 0
  (s.onFunc f fun r => { r with ckstate := 4, ckpt := none }).event f (Event.plain 7 87 job shard line)

/-- A line that the copier, the walker or the scrub finds uncorrectable is recorded (R480, kind 5), to the physical function. -/
def State.recordBad (s : State) (pa : Nat) : State :=
  s.event 0 (Event.plain 5 80 0 (chanNum pa * 2 ^ 56 + pa / 64 * 64 % 2 ^ 31) 0)

/-- A host write of a line (R324): a marked one arrives as a poisoned write, and the host decides what then stands there (R476,
log 25). -/
def State.writeHost (s : State) (a n v : Nat) (marked : Bool) : State :=
  let ep := dropMark s.dev.ep (a / 64 * 64)
  if marked then
    { s with
      hostMem := s.hostMem.writeN a n (Config.poisonedWrite s.freeCtr), freeCtr := s.freeCtr + 1
      dev := { s.dev with ep := addMark ep (a / 64 * 64) } }
  else { s with hostMem := s.hostMem.writeN a n v, dev := { s.dev with ep := ep } }

/-- Whether a read finds a line uncorrectable (R421, R446). -/
def State.lineBad (s : State) (pa : Nat) : Bool :=
  let c := vget s.dram.chans (chanNum pa)
  !c.pendingClear (chanLine pa) && c.bad.contains (chanLine pa)

/-- A read of a line by the walker or the copier, which records an uncorrectable one (R480). -/
def State.hubRead (s : State) (pa : Nat) : Nat × Bool × State :=
  let r := s.readLine pa
  if s.lineBad pa then (r.1, r.2.1, r.2.2.recordBad pa) else r

/-- Copies a source line of a checkpoint to its destination (R484): the data, or none when the line fails or is poisoned and the
checkpoint has failed (R486, R476; log 102). -/
def State.copyShardLine (s : State) (f : Nat) (g : Seg) (n : Nat) : Option Nat × State :=
  let pa := g.src + 64 * (n - g.base)
  let r := s.hubRead pa
  if s.lineStops pa then (none, r.2.2.ckptFail f g.shard n)
  else (some r.1, r.2.2.putLine (g.dst + 64 * (n - g.base)) r.1 false)

/-- Before a write performs on a source line that a checkpoint has not copied, the line is copied (R484). -/
def State.copyFirst (s : State) (pa : Nat) : State :=
  let f := (vget s.dram.chans (chanNum pa)).func
  match (s.func f).ckpt with
  | none => s
  | some k =>
    match (if (s.func f).ckstate = 2 then k.uncopied pa else none) with
    | none => s
    | some (g, n) =>
      match s.copyShardLine f g n with
      | (none, s) => s
      | (some v, s) => s.onFunc f fun r => { r with ckpt := r.ckpt.map fun (k : Ckpt) => { k with kept := (pa / 64 * 64, v) :: k.kept } }

/-- A host read has been looked at. -/
def State.keepRead (s : State) (r : HostRead) : State := { s with hostReads := s.hostReads ++ [r] }

/-- Requests as the host-slot engine sends them (R324, R425): in order, and one of another world once every earlier read has come.
w is the world that is being served. -/
def State.sendReads (s : State) (w : Option Nat) (l : List HostRead) : State :=
  match l with
  | [] => s
  | r :: l =>
    if r.got.isSome then (s.keepRead r).sendReads w l
    else if w.getD r.world ≠ r.world then (s.keepRead r).sendReads (some 64) l
    else
      match r.write with
      | some x => (s.writeHost r.addr 64 x.1 x.2).sendReads w l
      | none => (s.keepRead { r with data := r.data.or (some (s.hostMem.readN r.addr 64)) }).sendReads (some r.world) l

/-- The host-slot engine goes on (R425). -/
def State.serveReads (s : State) : State := ({ s with hostReads := [] } : State).sendReads none s.hostReads

/-- A write of a whole line (R444, R476, R477, R484). -/
def State.writeLine (s : State) (pa v : Nat) (poison : Bool) : State := (s.copyFirst pa).putLine pa v poison

/-- A write of part of a line (R446, R477): the line is read, changed and written whole. One that reads poisoned keeps its contents
and its mark, and the hub logs an error record for its lessee. -/
def State.patchLine (s : State) (pa : Nat) (change : Nat → Nat) : State :=
  let r := s.readLine pa
  if r.2.1 then r.2.2.logError 3 (vget s.dram.chans (chanNum pa)).func else r.2.2.writeLine pa (change r.1) false

end Sys2Proof.Machine
end

