-- ==== Sys2Proof/Machine/Issue.lean ====
section
/-! DEFINITION. Issue of a queue's head (R89, R135, R70, R460): the holds, the energy debit, the checks in the order of
their cause codes, and the commit. Every queue instruction's meaning is this operation over a description of its
operands and a body that computes its own effect. -/

namespace Sys2Proof.Machine

/-- Why a head does not issue. -/
inductive Hold where
  | early | scoreboard | energy | token | fence | order | unit | wait
  deriving DecidableEq, Repr

/-- What the issue operation must know of an instruction before its own effect: the cause its fields raise, the spans it
reads and writes, its predicates, the widths that wc tests, its energy classes (encoded and least, R56), the
PFX fields it accepts (R70), its ordering class when it is an access (R310), and whether a handler may run it (R466). -/
structure Info where
  cause : Option Nat
  srcs : List (Nat × Nat)
  dsts : List (Nat × Nat)
  preds : List Nat
  wides : List (Nat × Nat)
  cls : Nat
  least : Nat
  rv : Bool
  sv : Bool
  ov : Bool
  acc : Option Nat
  hand : Bool
  deriving Repr

/-- Units of an energy class (R134). -/
def classUnits (c : Nat) : Nat :=
  match c with
  | 0 => 0 | 1 => 1 | 2 => 4 | _ => 16

/-- The debit of an instruction in sixteenths (R56, R135). -/
def Info.debit (n : Info) (c : Ctx) : Nat :=
  let e := match c.pfx.bind (·.ecl) with
    | some e => e.toNat
    | none => n.cls
  16 * classUnits (max e n.least)

/-- The mask of the fence at the head of AP, if one stands there (R354). -/
def Tile.headFence (t : Tile) : Option Nat :=
  let m (e : Entry) : Option Nat :=
    if e.marker.isNone && (major e.w0 == 0x22 || major e.w0 == 0x23) then some (e.w0.toNat % 2 ^ 16) else none
  match t.ctl.entries .ap with
  | e :: r => if e.marker.isNone && major e.w0 == 0x5F then r.head?.bind m else m e
  | [] => none

/-- The mask of a FENCE or SFENCE that has reached the head of AP and has not issued (R354): accesses with a class in it hold. -/
def Tile.fenceMask (t : Tile) : Nat :=
  match t.ctl.since .ap, t.headFence with
  | some _, some m => m
  | _, _ => 0

/-- Whether an access of a class is held by a mask (R313, R354). -/
def maskHolds (mask cls : Nat) : Bool := mask != 0 && (mask.testBit cls || cls == 15)

/-- The lowest pending source slice with its pending-until cycle (R89, R473 cause 17). -/
def Tile.firstPending (t : Tile) (c : Ctx) (spans : List (Nat × Nat)) : Option (Nat × Nat) :=
  let all := spans.flatMap fun p => (List.range p.2).map fun i => p.1 + i
  let hits := all.filterMap fun x => (t.pendingUntil c.hand c.k x 1).map fun u => (x, u)
  hits.foldl (fun m p => match m with
    | none => some p
    | some q => if p.1 < q.1 then some p else some q) none

/-- The lowest pending source predicate with its pending-until cycle (R89). -/
def Tile.firstPendingPred (t : Tile) (c : Ctx) (ps : List Nat) : Option (Nat × Nat) :=
  (ps.filterMap fun n => (t.predPendingUntil c.hand c.k n).map fun u => (n, u)).foldl (fun m p => match m with
    | none => some p
    | some q => if p.1 < q.1 then some p else some q) none

/-- Whether any source is pending (R88, R89). -/
def Tile.violation (t : Tile) (c : Ctx) (n : Info) : Bool :=
  (n.srcs.any fun p => (t.pendingUntil c.hand c.k p.1 p.2).isSome)
  || (n.preds.any fun p => (t.predPendingUntil c.hand c.k p).isSome)

/-- A folio write that is still pending on a span that a handler instruction reads or writes (R466). -/
def Tile.folioPending (t : Tile) (c : Ctx) (n : Info) : Option Nat :=
  if !c.hand then none
  else
    let spans := (t.pendSpans false).filter fun p => c.cyc < p.1
    ((n.srcs ++ n.dsts).findSome? fun p => (spans.find? fun x => meets p.1 p.2 x.2.1 x.2.2).map fun x => max p.1 x.2.1)
    |>.or ((n.preds.find? fun p => (t.pendPreds false).any fun x => c.cyc < x.1 && x.2.testBit p).map fun p => p)

/-- The lowest predicate that a handler instruction writes while a folio write of it is still pending (R466): added holds
the writes that the instruction posts. -/
def Tile.folioPreds (t : Tile) (c : Ctx) (added : List PendWrite) : Option Nat :=
  if !c.hand then none
  else
    let due := (t.pendPreds false).filter fun x => decide (c.cyc < x.1)
    if due.isEmpty then none
    else
      let m := added.foldl (fun m p => match p.dest with
        | .preds k _ => m ||| k.toNat
        | _ => m) 0
      (List.range 16).find? fun n => m.testBit n && due.any fun x => x.2.testBit n

/-- An rm of 6 or 7 (R70). -/
def badRm (p : Pfx) : Bool := p.rm.any fun m => decide (6 ≤ m.toNat)

/-- The PFX fields that an instruction's entry does not accept, or an rm of 6 or 7 (R70). -/
def misuse (p : Pfx) (n : Info) : Bool :=
  (p.rm.isSome && !n.rv) || (p.sat.isSome && !n.sv) || (p.ocl.isSome && !n.ov) || (p.wc && n.srcs.isEmpty) || badRm p

/-- Cause 8, raised at the prefix (R70). -/
def Ctx.prefixRaise (c : Ctx) : Raise :=
  match c.pe with
  | some pe => { c.raise 8 with line := pe.line, lane := pe.lane, info := pe.words }
  | none => c.raise 8

/-- Whether a span of the entry reaches past the slice file (R83). -/
def Info.outside (n : Info) : Bool := (n.srcs ++ n.dsts).any fun p => decide (4096 < p.1 + p.2)

/-- The traps that the description alone decides (R461). -/
def Info.raises (n : Info) (c : Ctx) (t : Tile) : List Raise :=
  (match n.cause with
    | some x => [c.raise x]
    | none => [])
  ++ (if c.pfx.any fun p => misuse p n then [c.prefixRaise] else [])
  ++ (if c.hand && !n.hand then [c.raiseInfo 10 c.e.words c.k] else [])
  ++ (if n.outside then [c.raise 16] else [])
  ++ (if t.csr.sbmode && n.cause.isNone then
        (match t.firstPending c n.srcs with
          | some p => [c.raiseInfo 17 p.1 p.2]
          | none => match t.firstPendingPred c n.preds with
            | some p => [c.raiseInfo 17 (p.1 + 4096) p.2]
            | none => [])
      else [])
  ++ (if (c.pfx.map (·.wc)).getD false && n.wides.any fun p => decide (p.2 < p.1) then [c.raise 20] else [])
  ++ (match t.folioPending c n with
    | some x => [c.raiseInfo 23 x c.k]
    | none => [])

/-- The raises of an entry: one for each code (R461, log 114). -/
def raisesOf (l : List Raise) : List Raise :=
  l.foldl (fun m r => if m.any fun q => q.cause == r.cause then m else m ++ [r]) []

/-- Inside a handler every cause but 10, 23 and 95 is raised as cause 95 (R466). -/
def Ctx.inHand (c : Ctx) (r : Raise) : Raise :=
  if !c.hand then r
  else if r.cause == 10 || r.cause == 23 then { r with info2 := c.k }
  else { r with cause := 95, info := r.cause, info2 := c.k }

/-- Counts a hold (R496) and forgets the PFX of the attempt. -/
def Tile.held (t : Tile) (h : Hold) : Tile :=
  let p := t.prof
  { t with
    ctl := { t.ctl with pfx := none }
    blocked := t.blocked || h == .energy
    prof := match h with
      | .scoreboard => { p with holdSb := p.holdSb + 1 }
      | .energy => { p with holdEnergy := p.holdEnergy + 1 }
      | .token => { p with holdToken := p.holdToken + 1 }
      | .fence => { p with holdFence := p.holdFence + 1 }
      | _ => p }

/-- A head that holds. One of MX or CE that holds for a fence which may issue in this cycle tries again after AP (R354, log 17). -/
def Tile.heldAt (t : Tile) (c : Ctx) (h : Hold) : Tile :=
  if h == .fence && t.apGo && (c.q == .mx || c.q == .ce) && !t.fenced.contains c.q then
    { t with ctl := { t.ctl with pfx := none }, fenced := c.q :: t.fenced }
  else t.held h

/-- Takes the issued entry, with its PFX, off the queue, debits its energy and counts the issue (R69, R135). -/
def Tile.issued (t : Tile) (c : Ctx) (debit : Nat) : Tile :=
  let n := queueNum c.q - 1
  { t with
    ctl := t.ctl.drop c.q (if c.pfx.isSome then 2 else 1)
    avail := t.avail - debit
    prof := { t.prof with issues := vset t.prof.issues n (vget t.prof.issues n + 1) } }

/-- Whether a CE or Inkwell command of the tile, or its completion signal, is still under way in cycle k. -/
def Tile.ceBusy (t : Tile) (k : Nat) : Bool :=
  decide (k < t.ce.sigLand) || t.ce.cmds.any fun m => match m.e with
    | some e => decide (k < e)
    | none => true

/-- Whether the matrix engine still has a result to land after cycle k. -/
def Tile.mxBusy (t : Tile) (k : Nat) : Bool := t.mx.mma.isSome || t.mx.pend.any fun p => decide (k < p.land)

/-- Whether an armed MX entry still waits for the copy of a CE instruction with a follow-on flag, or waits for good for one
that has trapped (R296). -/
def Tile.armed (t : Tile) (k seq : Nat) : Bool :=
  t.ctl.lost.contains seq
  || ((t.ctl.entries .ce).any fun e => e.seq == seq)
  || (t.ctl.fetch.owe.map fun o => o.seq == seq).getD false
  || (t.ctl.fetch.cross.any fun o => o.owe.seq == seq)
  || (t.ce.cmds.any fun m => m.seq == seq && (match m.e with
      | some e => decide (k ≤ e)
      | none => true))

/-- Whether a queue may not issue its head yet, whatever it is: an entry issues after its dispatch cycle (R137), SQ waits
out a WAITC (R154), AP a WAITA (R353), NET a BAR (R392), an armed MX entry its copies (R296). -/
def Tile.queueHeld (t : Tile) (c : Ctx) : Bool :=
  decide (c.k ≤ c.e.disp)
  || (match c.q with
      | .sq => decide (t.ctl.notBefore ≠ 0)
      | .ap => !c.hand && (t.ap.sleep.isSome || decide (c.k < t.ap.notBefore))
      | .net => !c.hand && t.net.hold.isSome
      | .mx => (c.e.arms ++ (c.pe.map (·.arms)).getD []).any (t.armed c.k)
      | _ => false)

/-- The hold that keeps an instruction at its head, if any (R89, R137, R354, R135, and its entry's own). One that no handler
may run does not wait there: it traps (R466). -/
def holdOf (n : Info) (own : Option Hold) (c : Ctx) (t : Tile) : Option Hold :=
  if t.queueHeld c then some .early
  else if n.cause.isSome || (c.hand && !n.hand) then none
  else if !t.csr.sbmode && t.violation c n then some .scoreboard
  else
    match own with
    | some h => some h
    | none =>
      if (match n.acc with
          | some a => maskHolds t.fenceMask (c.cls a)
          | none => false) then some .fence
      else if !c.hand && n.debit c != 0 && (t.blocked || decide (t.avail < n.debit c)) then some .energy
      else none

/-- The first granule among some spans that the slice file cannot correct (R475). -/
def Tile.badSlice (t : Tile) (spans : List (Nat × Nat)) : Option Nat :=
  if t.slices.bad.isEmpty then none
  else (spans.flatMap fun p => granules p.1 p.2).find? fun g => t.slices.bad.contains g

/-- One attempt to issue (R135, R460): held, trapped or performed. Every check that fails is a raise of its own (R461, log 114); an
entry whose encoding or spans are at fault has no operands to check. An instruction that reads an uncorrectable granule issues
without its writes (R475). -/
def attempt (info : Tile → Info) (own : Ctx → Tile → Option Hold) (body : Ctx → Tile → Except Raise Tile)
    (c : Ctx) (t : Tile) : Tile :=
  let n := info t
  match holdOf n (own c t) c t with
  | some h => t.heldAt c h
  | none =>
    let debit := if c.hand || n.cause.isSome then 0 else n.debit c
    let r := body c t
    let all := n.raises c t ++ (if n.cause.isSome || n.outside then [] else match r with
      | .error x => [x]
      | .ok t' => match t.folioPreds c (t'.pend.drop t.pend.length) with
        | some p => [c.raiseInfo 23 p c.k]
        | none => [])
    match raisesOf (all.map c.inHand), r, t.badSlice n.srcs with
    | x :: l, _, _ => { t with raises := t.raises ++ x :: l, ctl := { t.ctl with pfx := none } }
    | [], _, some g => (t.addRaise (c.inHand (raiseEnd 81 (16 * g) 0))).issued c debit
    | [], .ok t', none => t'.issued c debit
    | [], .error _, none => t

/-- The logical packages that a folio's job reaches over its links, with its own (R509). -/
def State.reach (s : State) (f : Folio) : List Nat :=
  f.launch.lpkg.toNat :: (s.links.toList.filterMap fun l =>
    if l.v && l.func == f.place.func && l.job == f.launch.job then some l.peer.toNat else none)

/-- An entry for an attempt that stands in no queue. -/
def noEntry : Entry := { line := 0, lane := 1, seq := 0, w0 := 0, w1 := 0, disp := 0, marker := none, arms := [] }

/-- The first word of a block's header as it stands (R203, log 22): in host memory, or in HBM, where a line that awaits its
clearing reads as zero (R421). -/
def State.headerAt (s : State) (func pa : Nat) : Nat :=
  if inHostWindow pa then s.hostMem.readN (s.hostAddr func pa) 8
  else if (vget s.dram.chans (chanNum pa)).pendingClear (chanLine pa) then 0
  else bitsAt (s.plain pa) (8 * (pa % 64)) 64

/-- What an instruction at the cursor knows when it issues. -/
def ctxOf (s : State) (f : Folio) (ti : Nat) (t : Tile) (q : Queue) : Ctx :=
  let l := t.ctl.entries q
  let p := match t.ctl.pfx with
    | some (q', p) => if q' == q then some p else none
    | none => none
  { place := f.place, launch := f.launch, cal := f.calendar, reach := s.reach f
    k := if t.inHandler then t.trap.hcyc else f.cycle
    cyc := f.cycle, hand := t.inHandler, q := q
    fx := ti % f.place.w, fy := ti / f.place.w
    e := (if p.isSome then l[1]? else l[0]?).getD noEntry
    pe := if p.isSome then l[0]? else none
    pfx := p, brk := f.dbg.brkArmed, header := s.headerAt f.place.func }

/-- The tile at the cursor with its folio and what its instruction knows. -/
def State.at? (s : State) : Option (Folio × Tile × Ctx) :=
  match s.folio? s.cursor.folio with
  | none => none
  | some f =>
    match f.tiles[s.cursor.tile]? with
    | none => none
    | some t => some (f, t, ctxOf s f s.cursor.tile t s.cursor.queue)

/-- Puts a changed tile back at the cursor. -/
def State.putTile (s : State) (f : Folio) (t : Tile) : State :=
  s.setFolio { f with tiles := f.tiles.set s.cursor.tile t }

/-- The meaning of a queue instruction: one attempt to issue it at the cursor's queue. -/
def issue (info : Tile → Info) (own : Ctx → Tile → Option Hold) (body : Ctx → Tile → Except Raise Tile) (s : State) :
    Host.Outcome State Fault Refusal :=
  match s.at? with
  | none => .fault .noTile
  | some (f, t, c) => .next (s.putTile f (attempt info own body c t))

/-- No hold of the instruction's own. -/
def noHold (_ : Ctx) (_ : Tile) : Option Hold := none

end Sys2Proof.Machine
end

