-- ==== Sys2Proof/Machine/Access.lean ====
section
/-! DEFINITION. The access processor's loads, stores, atomics, signal waits, fences and window slots (R332-R358), with
the performing of an access two cycles after its issue (R334) and of an atomic at its home (R347). -/

namespace Sys2Proof.Machine

/-- The alignment that an access of nb bytes needs (R333). -/
def alignOf (nb : Nat) : Nat := if nb % 8 = 0 then 8 else if nb % 4 = 0 then 4 else if nb % 2 = 0 then 2 else 1

/-- The checks of R332 and R333 on an access to own SPAD. -/
def checkSpad (c : Ctx) (a nb al : Nat) : Except Raise Unit :=
  if 0xF8000 < a + nb then .error (c.raiseInfo 45 a 0)
  else if a % al ≠ 0 then .error (c.raiseInfo 46 a 0)
  else .ok ()

/-- The description of an AP access (R337). -/
def apInfo (cause : Option Nat) (srcs dsts : List (Nat × Nat)) (cls least acc : Nat) (rv sv hand : Bool) : Info :=
  { cause := cause, srcs := srcs, dsts := dsts, preds := [], wides := [], cls := cls, least := least, rv := rv, sv := sv
    ov := true, acc := some acc, hand := hand }

/-- The hold that an earlier RATOM puts on an access of a class to bytes of own SPAD (R351). -/
def ratomHold (cls : Nat) (range : Tile → Nat × Nat) (c : Ctx) (t : Tile) : Option Hold :=
  let x := c.cls cls
  let r := range t
  if !c.hand && t.ap.ratoms.any fun m => decide (c.k < m.land)
      && (m.cls == x || m.cls == 15 || x == 15 || (m.own && meets m.addr (m.w / 8) r.1 r.2))
  then some .order else none

/-- Adds an access that performs at k + 2 (R334). -/
def Tile.access (t : Tile) (c : Ctx) (cls : Nat) (kind : ApKind) : Tile :=
  { t with ap := { t.ap with accs := t.ap.accs ++ [{ perf := c.k + 2, issue := c.k, cls := c.cls cls, line := c.e.line
                                                     lane := c.e.lane, hand := c.hand, kind := kind }] } }

/-- Bytes of a short form's size code (R341). -/
def sizeBytes (size : BitVec 2) : Nat := 2 ^ size.toNat

/-- The address of a short form (R341). -/
def shortAddr (size : BitVec 2) (base : BitVec 7) (disp : BitVec 8) (t : Tile) : Nat :=
  addr32 (t.word base) (toSigned 8 disp.toNat * sizeBytes size)

/-- The address of a long form with a displacement (R342). -/
def longAddr (o : LongMem) (t : Tile) : Nat := addr32 (t.spanBits o.bas.toNat 32) o.disp

/-- The address of LDX and STX (R343). -/
def indexAddr (o : LongMem) (t : Tile) : Nat :=
  addr32 (t.spanBits o.bas.toNat 32) (toSigned 32 (t.spanBits o.indexStart 32) * 2 ^ o.x.toNat)

/-- The address of a spill slot (R344). -/
def slotAddr (o : LongMem) (t : Tile) : Nat := addr32 t.csr.sp.toNat o.disp

/-- Bytes of a spill slot (R344). -/
def slotBytes (o : LongMem) : Nat := (o.bits + 63) / 64 * 8

/-- The least energy class of a load or store (R337). -/
def memLeast (bits : Nat) : Nat := if 256 < bits then 2 else 1

/-- A load of nb bytes into a span of width bits (R334, R336). -/
def loadBody (cls : Nat) (addr : Tile → Nat) (nb al vs width : Nat) (sign : Bool) (c : Ctx) (t : Tile) :
    Except Raise Tile :=
  (checkSpad c (addr t) nb al).map fun _ => t.access c cls (.load (addr t) nb vs width sign)

/-- A store of nb bytes of a value read at issue. -/
def storeBody (cls : Nat) (addr : Tile → Nat) (nb al : Nat) (value : Tile → Nat) (c : Ctx) (t : Tile) :
    Except Raise Tile :=
  (checkSpad c (addr t) nb al).map fun _ => t.access c cls (.store (addr t) nb (value t))

/-- LD, short form (R341). -/
def execLd (size : BitVec 2) (z : Bool) (d base : BitVec 7) (disp : BitVec 8) (s : State) :
    Host.Outcome State Fault Refusal :=
  let nb := sizeBytes size
  issue (fun t => apInfo (Instr.ld size z d base disp).cause [t.wSpan base]
      [if size = 3 then t.pairSpan d else t.wSpan d] 1 1 0 false false true)
    (ratomHold 0 fun t => (shortAddr size base disp t, nb))
    (fun c t => loadBody 0 (shortAddr size base disp) nb (alignOf nb) (t.win d) (if size = 3 then 64 else 32) (!z) c t) s

/-- ST, short form (R341). -/
def execSt (size : BitVec 2) (d base : BitVec 7) (disp : BitVec 8) (s : State) : Host.Outcome State Fault Refusal :=
  let nb := sizeBytes size
  issue (fun t => apInfo (Instr.st size d base disp).cause
      [t.wSpan base, if size = 3 then t.pairSpan d else t.wSpan d] [] 1 1 0 false false true)
    (ratomHold 0 fun t => (shortAddr size base disp t, nb))
    (storeBody 0 (shortAddr size base disp) nb (alignOf nb) fun t => t.pair d % 2 ^ (8 * nb)) s

/-- LD, long form (R342): z writes 32 bits, zero-extended. -/
def execLdLong (o : LongMem) (s : State) : Host.Outcome State Fault Refusal :=
  let nb := o.bits / 8
  let w := if o.x = 1 then 32 else o.bits
  issue (fun _ => apInfo (Instr.ldLong o).cause [o.baseSpan] [spanOf o.vs.toNat w] o.ecl.toNat (memLeast o.bits)
      o.ocl.toNat false false true)
    (ratomHold o.ocl.toNat fun t => (longAddr o t, nb))
    (loadBody o.ocl.toNat (longAddr o) nb (alignOf nb) o.vs.toNat w false) s

/-- ST, long form (R342). -/
def execStLong (o : LongMem) (s : State) : Host.Outcome State Fault Refusal :=
  let nb := o.bits / 8
  issue (fun _ => apInfo (Instr.stLong o).cause [o.baseSpan, o.vSpan] [] o.ecl.toNat (memLeast o.bits)
      o.ocl.toNat false false true)
    (ratomHold o.ocl.toNat fun t => (longAddr o t, nb))
    (storeBody o.ocl.toNat (longAddr o) nb (alignOf nb) fun t => t.spanBits o.vs.toNat o.bits) s

/-- SPILL (R344, R345): the slot's higher bits are written as zero; the stack limit is checked. -/
def execSpill (o : LongMem) (s : State) : Host.Outcome State Fault Refusal :=
  issue (fun _ => apInfo (Instr.spill o).cause [o.vSpan] [] o.ecl.toNat (memLeast o.bits) o.ocl.toNat false false true)
    (ratomHold o.ocl.toNat fun t => (slotAddr o t, slotBytes o))
    (fun c t =>
      match storeBody o.ocl.toNat (slotAddr o) (slotBytes o) 8 (fun t => t.spanBits o.vs.toNat o.bits) c t with
      | .error r => .error r
      | .ok t' => if slotAddr o t < t.csr.splim.toNat then .error (c.raiseInfo 47 (slotAddr o t) 0) else .ok t') s

/-- FILL (R344). -/
def execFill (o : LongMem) (s : State) : Host.Outcome State Fault Refusal :=
  issue (fun _ => apInfo (Instr.fill o).cause [] [o.vSpan] o.ecl.toNat (memLeast o.bits) o.ocl.toNat false false true)
    (ratomHold o.ocl.toNat fun t => (slotAddr o t, slotBytes o))
    (loadBody o.ocl.toNat (slotAddr o) (slotBytes o) 8 o.vs.toNat o.bits false) s

/-- LDX (R343). -/
def execLdx (o : LongMem) (s : State) : Host.Outcome State Fault Refusal :=
  let nb := o.bits / 8
  issue (fun _ => apInfo (Instr.ldx o).cause [o.baseSpan, (o.indexStart, 8)] [o.vSpan] o.ecl.toNat (memLeast o.bits)
      o.ocl.toNat false false true)
    (ratomHold o.ocl.toNat fun t => (indexAddr o t, nb))
    (loadBody o.ocl.toNat (indexAddr o) nb (alignOf nb) o.vs.toNat o.bits false) s

/-- STX (R343). -/
def execStx (o : LongMem) (s : State) : Host.Outcome State Fault Refusal :=
  let nb := o.bits / 8
  issue (fun _ => apInfo (Instr.stx o).cause [o.baseSpan, (o.indexStart, 8), o.vSpan] [] o.ecl.toNat (memLeast o.bits)
      o.ocl.toNat false false true)
    (ratomHold o.ocl.toNat fun t => (indexAddr o t, nb))
    (storeBody o.ocl.toNat (indexAddr o) nb (alignOf nb) fun t => t.spanBits o.vs.toNat o.bits) s

/-- What an atomic writes, if anything, and the event it counts (R347). -/
def atomApply (op : AtomOp) (w old v n u : Nat) (r : Rnd) : Option Nat × Option Nat :=
  match op with
  | .add => let x := fit (toSigned w old + toSigned w v) w true r.sat; (some x.1, x.2)
  | .min => (some (if toSigned w v < toSigned w old then v else old), none)
  | .max => (some (if toSigned w old < toSigned w v then v else old), none)
  | .minz => (some (if v < old then v else old), none)
  | .maxz => (some (if old < v then v else old), none)
  | .and => (some (old &&& v), none)
  | .or => (some (old ||| v), none)
  | .xor => (some (old ^^^ v), none)
  | .xchg => (some v, none)
  | .cas => (if old = v then some n else none, none)
  | .fadd =>
    let f := if w = 64 then 1 else 2
    let x := accumulate f r u false false [some (decodeElem f old), some (decodeElem f v)]
    (some x.1, x.2)

/-- Bits of an atomic's data span: CAS reads twice the word (R346). -/
def atomSpan (op : AtomOp) (o : LongMem) : Nat × Nat := spanOf o.vs.toNat (if op = .cas then 2 * o.bits else o.bits)

/-- The description of an atomic (R337, R346); bases of 64 bits for RATOM. -/
def atomInfo (cause : Option Nat) (op : AtomOp) (base : Nat × Nat) (o : LongMem) (hand : Bool) : Info :=
  apInfo cause [base, atomSpan op o] [o.vSpan] o.ecl.toNat 1 o.ocl.toNat (op == .fadd) (op == .add || op == .fadd) hand

/-- The rounding and saturation of an atomic: FADD's by R189, ADD's by R224. -/
def atomRnd (op : AtomOp) (c : Ctx) (t : Tile) : Rnd := if op = .fadd then c.rnd t else ⟨0, c.sat⟩

/-- FADD's tag check (R97, R346). -/
def atomTag (op : AtomOp) (o : LongMem) (c : Ctx) (t : Tile) : Option Raise :=
  if op = .fadd then
    (t.slices.badTag o.vs.toNat (o.bits / 4) [0, if o.bits = 64 then 1 else 2]).map fun g =>
      c.raiseInfo 19 g (t.slices.tag g)
  else none

/-- The lower cause of two raises, where the first may be absent (R461). -/
def orLower (a : Option Raise) (b : Except Raise Tile) : Except Raise Tile :=
  match a, b with
  | none, _ => b
  | some x, .ok _ => .error x
  | some x, .error y => if y.cause < x.cause then .error y else .error x

/-- The effect of a local atomic at issue (R346, R347): it performs at k + 2. -/
def atomBody (op : AtomOp) (o : LongMem) (c : Ctx) (t : Tile) : Except Raise Tile :=
  let w := o.bits
  let a := longAddr o t
  orLower (atomTag op o c t) ((checkSpad c a (w / 8) (w / 8)).map fun _ =>
    t.access c o.ocl.toNat (.atom op a w o.vs.toNat (t.spanBits o.vs.toNat w)
      (if op = .cas then t.spanBits (o.vs.toNat + w / 4) w else 0) (atomRnd op c t) (c.drawAt t 0)))

/-- A local atomic (R346). -/
def atomic (cause : Option Nat) (op : AtomOp) (o : LongMem) (s : State) : Host.Outcome State Fault Refusal :=
  issue (fun _ => atomInfo cause op o.baseSpan o true) (ratomHold o.ocl.toNat fun t => (longAddr o t, o.bits / 8))
    (atomBody op o) s

/-- A RATOM's window address: the displacement is added to the offset field modulo 2^22 (R349). -/
def ratomAddr (o : LongMem) (t : Tile) : Nat :=
  let a := t.spanBits o.bas.toNat 64
  a / 2 ^ 22 * 2 ^ 22 + ofSigned 22 ((bitsAt a 0 22 : Int) + o.disp)

/-- The effect of a RATOM at issue (R349, R350): the checks, then the request flit leaves in the next cycle. -/
def ratomBody (op : AtomOp) (o : LongMem) (c : Ctx) (t : Tile) : Except Raise Tile :=
  let w := o.bits
  let a := ratomAddr o t
  let late : Option Raise :=
    match c.place.target c.fx c.fy (bitsAt a 32 8) (bitsAt a 24 8) with
    | some (x, y) =>
      if t.csr.ralat < 2 * hops c.place c.fx c.fy x y then some (c.raiseInfo 63 (c.k + t.csr.ralat) 0) else none
    | none => none
  let res : Except Raise Tile :=
    match checkWindow c.place c.fx c.fy a false with
    | .error (5, _) => .error (c.raise 5)
    | .error (x, i) => .error (c.raiseInfo x i 0)
    | .ok (x, y, off) =>
      if 0xF8000 < off + w / 8 then .error (c.raiseInfo 45 a 0)
      else if off % (w / 8) ≠ 0 then .error (c.raiseInfo 46 a 0)
      else
        let v := t.spanBits o.vs.toNat w
        let n := if op = .cas then t.spanBits (o.vs.toNat + w / 4) w else 0
        let f : Flit := { srcX := c.fx, srcY := c.fy, tgts := [(x, y)], born := c.k + 1, bad := false
                          pay := .request c.k op off w v n (c.drawAt t 0) (atomRnd op c t) }
        .ok { t with
          net := { t.net with router := { t.net.router with inj := t.net.router.inj ++ [f] } }
          ap := { t.ap with ratoms := t.ap.ratoms ++ [{ id := c.k, issue := c.k, land := c.k + t.csr.ralat
                                                        cls := c.cls o.ocl.toNat, own := x == c.fx && y == c.fy
                                                        addr := off, w := w, vs := o.vs.toNat, reply := none }] } }
  orLower (atomTag op o c t) (orLower late res)

/-- A remote atomic (R349). -/
def remoteAtomic (cause : Option Nat) (op : AtomOp) (o : LongMem) (s : State) : Host.Outcome State Fault Refusal :=
  issue (fun _ => atomInfo cause op (o.bas.toNat, 16) o false)
    (fun c t => ratomHold o.ocl.toNat
      (fun t => if bitsAt (ratomAddr o t) 24 16 = 0 then (bitsAt (ratomAddr o t) 0 22, o.bits / 8) else (0, 0)) c t)
    (ratomBody op o) s

/-- ATOM ADD (R347). -/
def execAtomAdd (o : LongMem) (s : State) : Host.Outcome State Fault Refusal :=
  atomic (Instr.atomAdd o).cause .add o s

/-- ATOM MIN (R347). -/
def execAtomMin (o : LongMem) (s : State) : Host.Outcome State Fault Refusal :=
  atomic (Instr.atomMin o).cause .min o s

/-- ATOM MAX (R347). -/
def execAtomMax (o : LongMem) (s : State) : Host.Outcome State Fault Refusal :=
  atomic (Instr.atomMax o).cause .max o s

/-- ATOM AND (R347). -/
def execAtomAnd (o : LongMem) (s : State) : Host.Outcome State Fault Refusal :=
  atomic (Instr.atomAnd o).cause .and o s

/-- ATOM OR (R347). -/
def execAtomOr (o : LongMem) (s : State) : Host.Outcome State Fault Refusal :=
  atomic (Instr.atomOr o).cause .or o s

/-- ATOM XOR (R347). -/
def execAtomXor (o : LongMem) (s : State) : Host.Outcome State Fault Refusal :=
  atomic (Instr.atomXor o).cause .xor o s

/-- ATOM XCHG (R347). -/
def execAtomXchg (o : LongMem) (s : State) : Host.Outcome State Fault Refusal :=
  atomic (Instr.atomXchg o).cause .xchg o s

/-- ATOM CAS (R347). -/
def execAtomCas (o : LongMem) (s : State) : Host.Outcome State Fault Refusal :=
  atomic (Instr.atomCas o).cause .cas o s

/-- ATOM FADD (R347). -/
def execAtomFadd (o : LongMem) (s : State) : Host.Outcome State Fault Refusal :=
  atomic (Instr.atomFadd o).cause .fadd o s

/-- ATOM MIN.z (R347). -/
def execAtomMinZ (o : LongMem) (s : State) : Host.Outcome State Fault Refusal :=
  atomic (Instr.atomMinZ o).cause .minz o s

/-- ATOM MAX.z (R347). -/
def execAtomMaxZ (o : LongMem) (s : State) : Host.Outcome State Fault Refusal :=
  atomic (Instr.atomMaxZ o).cause .maxz o s

/-- RATOM ADD (R350). -/
def execRatomAdd (o : LongMem) (s : State) : Host.Outcome State Fault Refusal :=
  remoteAtomic (Instr.ratomAdd o).cause .add o s

/-- RATOM MIN (R350). -/
def execRatomMin (o : LongMem) (s : State) : Host.Outcome State Fault Refusal :=
  remoteAtomic (Instr.ratomMin o).cause .min o s

/-- RATOM MAX (R350). -/
def execRatomMax (o : LongMem) (s : State) : Host.Outcome State Fault Refusal :=
  remoteAtomic (Instr.ratomMax o).cause .max o s

/-- RATOM AND (R350). -/
def execRatomAnd (o : LongMem) (s : State) : Host.Outcome State Fault Refusal :=
  remoteAtomic (Instr.ratomAnd o).cause .and o s

/-- RATOM OR (R350). -/
def execRatomOr (o : LongMem) (s : State) : Host.Outcome State Fault Refusal :=
  remoteAtomic (Instr.ratomOr o).cause .or o s

/-- RATOM XOR (R350). -/
def execRatomXor (o : LongMem) (s : State) : Host.Outcome State Fault Refusal :=
  remoteAtomic (Instr.ratomXor o).cause .xor o s

/-- RATOM XCHG (R350). -/
def execRatomXchg (o : LongMem) (s : State) : Host.Outcome State Fault Refusal :=
  remoteAtomic (Instr.ratomXchg o).cause .xchg o s

/-- RATOM CAS (R350). -/
def execRatomCas (o : LongMem) (s : State) : Host.Outcome State Fault Refusal :=
  remoteAtomic (Instr.ratomCas o).cause .cas o s

/-- RATOM FADD (R350). -/
def execRatomFadd (o : LongMem) (s : State) : Host.Outcome State Fault Refusal :=
  remoteAtomic (Instr.ratomFadd o).cause .fadd o s

/-- RATOM MIN.z (R350). -/
def execRatomMinZ (o : LongMem) (s : State) : Host.Outcome State Fault Refusal :=
  remoteAtomic (Instr.ratomMinZ o).cause .minz o s

/-- RATOM MAX.z (R350). -/
def execRatomMaxZ (o : LongMem) (s : State) : Host.Outcome State Fault Refusal :=
  remoteAtomic (Instr.ratomMaxZ o).cause .maxz o s

/-- WAITA (R353): it issues and puts the AP to sleep. -/
def execWaita (cond : Cond) (o : LongMem) (s : State) : Host.Outcome State Fault Refusal :=
  issue (fun _ => apInfo (Instr.waita cond o).cause [o.baseSpan, o.vSpan] [] o.ecl.toNat 1 o.ocl.toNat false false false)
    (ratomHold o.ocl.toNat fun t => (longAddr o t, 8))
    (fun c t =>
      let a := longAddr o t
      (checkSpad c a 8 8).map fun _ =>
        { t with ap := { t.ap with sleep := some { line := c.e.line, lane := c.e.lane, w0 := c.e.w0, w1 := c.e.w1
                                                   issue := c.k, cond := cond, addr := a
                                                   cmp := t.spanBits o.vs.toNat 64, cls := c.cls o.ocl.toNat } } }) s

/-- The description of FENCE, SFENCE, PROBE and UNPIN (R337). -/
def fenceInfoOf (cause : Option Nat) (srcs dsts : List (Nat × Nat)) (hand : Bool) : Info :=
  { cause := cause, srcs := srcs, dsts := dsts, preds := [], wides := [], cls := 1, least := 1, rv := false, sv := false
    ov := false, acc := none, hand := hand }

/-- The hold of an entry that waits at the head of AP for earlier accesses (R354, R355, R358): the cycle's grant tells
when it may issue. -/
def apWait (_ : Ctx) (t : Tile) : Option Hold := if t.apGo then none else some .fence

/-- FENCE (R354). -/
def execFence (_ : BitVec 16) (s : State) : Host.Outcome State Fault Refusal :=
  issue (fun _ => fenceInfoOf none [] [] true) apWait (fun _ t => .ok t) s

/-- SFENCE (R355). -/
def execSfence (_ : BitVec 2) (_ : BitVec 16) (s : State) : Host.Outcome State Fault Refusal :=
  issue (fun _ => fenceInfoOf none [] [] true) apWait (fun _ t => .ok t) s

/-- PROBE (R357): the folio freezes after the cycle until the hub has resolved the page. Its writes of w<d> and of the slot are
pending from its issue (R88); the hub names their values. -/
def execProbe (slot : BitVec 5) (a d : BitVec 7) (s : State) : Host.Outcome State Fault Refusal :=
  issue (fun t => fenceInfoOf (Instr.probe slot a d).cause [t.pairSpan a] [t.wSpan d] false) noHold
    (fun c t =>
      if (vget t.wins slot.toNat).v then .error (c.raise 48)
      else if 2 ^ 54 ≤ t.pair a then .error (c.raise 49)
      else .ok ((({ t with probe := some (slot.toNat, t.pair a, t.win d, c.k) } : Tile).later c 1 (.slices (t.win d) 8 0 0) []).later c 1
        .nothing [])) s

/-- UNPIN (R358): the slot is invalid from k + 1. -/
def execUnpin (slot : BitVec 5) (s : State) : Host.Outcome State Fault Refusal :=
  issue (fun _ => fenceInfoOf none [] [] false) apWait
    (fun c t => .ok (t.later c 1 (.slot slot.toNat false false 0 false 0 0) [])) s

/-- A load that performs now (R334, R339): its value lands two cycles later, or the data are poisoned. -/
def Tile.performLoad (t : Tile) (a : ApAcc) (addr nb vs width : Nat) (sign : Bool) : Tile :=
  match t.badWord addr nb with
  | some w => (t.poisonWords (t.badWords addr nb)).addRaise (raiseEnd 80 (8 * w) 0)
  | none =>
    let v := t.bytes addr nb
    let x := if sign then extendTo (8 * nb) width false v else v % 2 ^ width
    (t.corrects addr nb).post
      { land := a.issue + 4, issue := a.issue, writer := 2, hand := a.hand, dest := .slices vs (width / 4) x 0
        events := [] }

/-- The poisoned or uncorrectable words that a store covers only in part (R339). -/
def Tile.partBad (t : Tile) (addr nb : Nat) : List Nat :=
  (t.badWords addr nb).filter fun w => decide (8 * w < addr) || decide (addr + nb < 8 * w + 8)

/-- A store that performs now (R339). -/
def Tile.performStore (t : Tile) (addr nb v : Nat) : Tile :=
  match t.partBad addr nb with
  | w :: r => (t.poisonWords (w :: r)).addRaise (raiseEnd 80 (8 * w) 0)
  | [] => (t.store addr nb v).wroteBy addr nb 255 255 2

/-- A local atomic that performs now (R347, R348): the old word lands at k + 6. -/
def Tile.performAtom (t : Tile) (a : ApAcc) (op : AtomOp) (addr w vs v n u : Nat) (r : Rnd) : Tile :=
  match t.badWord addr (w / 8) with
  | some x => (t.poisonWords (t.badWords addr (w / 8))).addRaise (raiseEnd 80 (8 * x) 0)
  | none =>
    let t := t.corrects addr (w / 8)
    let old := t.bytes addr (w / 8)
    let x := atomApply op w old v n u r
    let t' := match x.1 with
      | some y => (t.store addr (w / 8) y).wroteBy addr (w / 8) 255 255 2
      | none => t
    t'.post { land := a.issue + 6, issue := a.issue, writer := 2, hand := a.hand, dest := .slices vs (w / 4) old 0
              events := evOf x.2 }

/-- The AP reads that perform in cycle k (R334, R335): they precede every write of the cycle. -/
def Tile.apReads (t : Tile) (hand : Bool) (k : Nat) : Tile :=
  t.ap.accs.foldl (fun t a =>
    if a.hand != hand || a.perf != k then t
    else match a.kind with
      | .load addr nb vs width sign => t.performLoad a addr nb vs width sign
      | _ => t) t

/-- The AP writes that perform in cycle k, in issue order (R334, R335). -/
def Tile.apWrites (t : Tile) (hand : Bool) (k : Nat) : Tile :=
  t.ap.accs.foldl (fun t a =>
    if a.hand != hand || a.perf != k then t
    else match a.kind with
      | .store addr nb v => t.performStore addr nb v
      | .atom op addr w vs x n r u => t.performAtom a op addr w vs x n u r
      | .load .. => t) t

/-- One examination of a sleeping WAITA (R353): it wakes in the first cycle from k + 2 in which the word meets its
condition; poisoned data trap. -/
def Tile.examine (t : Tile) (k : Nat) : Tile :=
  match t.ap.sleep with
  | none => t
  | some w =>
    if k < w.issue + 2 then t
    else
      match t.badWord w.addr 8 with
      | some x => (t.poisonWord x).addRaise (raiseNamed 80 w.line w.lane 2 (8 * x) 0)
      | none =>
        let t := t.corrects w.addr 8
        if condHolds w.cond 64 (t.bytes w.addr 8) w.cmp then
          { t with ap := { t.ap with sleep := none, notBefore := k + 1 } }
        else t

end Sys2Proof.Machine
end

