-- ==== Sys2Proof/Machine/Vector.lean ====
section
/-! DEFINITION. XU's vector instructions (R251-R268): elementwise arithmetic, compares and selects, reductions, the
correctly rounded functions, conversions, integer lanes and permutes. -/

namespace Sys2Proof.Machine

/-- A span with the tags its reader accepts (R97). -/
abbrev TagNeed := (Nat × Nat) × List Nat

/-- The first tag that a reader does not accept, source by source (R97, R253). -/
def tagCheck (c : Ctx) (t : Tile) (l : List TagNeed) : Option Raise :=
  l.findSome? fun p => (t.slices.badTag p.1.1 p.1.2 p.2).map fun g => c.raiseInfo 19 g (t.slices.tag g)

/-- The tags that a plain source of a floating format accepts; integers are not checked (R97, R253). -/
def plainTags (span : Nat × Nat) (f : Nat) : List TagNeed := if inN f then [(span, [0, f])] else []

/-- The least energy class of a vector instruction (R257). -/
def vecLeast (least : Nat) (o : LongVec) : Nat :=
  if 256 < o.dBits ∨ 256 < o.aBits ∨ 256 < o.bBits then 2 else least

/-- A vector instruction (R252-R257): its description, its tag checks and the landing of its result. -/
def vector (cause : Option Nat) (o : LongVec) (lat least : Nat) (rv sv readsD readsB : Bool) (needs : List TagNeed)
    (tag : Tile → Nat) (f : Ctx → Tile → Except Raise (Nat × List (Nat × Nat))) (s : State) :
    Host.Outcome State Fault Refusal :=
  issue
    (fun _ =>
      { cause := cause
        srcs := (if readsD then [o.dSpan] else []) ++ [o.aSpan] ++ (if readsB then [o.bSpan] else [])
        dsts := [o.dSpan], preds := [], wides := [], cls := o.ecl.toNat, least := vecLeast least o, rv := rv, sv := sv
        ov := false, acc := none, hand := true })
    noHold
    (fun c t =>
      match f c t, tagCheck c t needs with
      | .error x, some y => .error (if x.cause < y.cause then x else y)
      | .error x, none => .error x
      | .ok _, some y => .error y
      | .ok r, none => .ok (t.later c lat (.slices o.dSpan.1 o.dSpan.2 r.1 (BitVec.ofNat 5 (tag t))) r.2))
    s

/-- Packs rounded lanes of w bits and adds up their events (R255). -/
def packRounded (w : Nat) (l : List Rounded) : Nat × List (Nat × Nat) :=
  (packLanes w (l.map (·.1)), l.foldl (fun e r => sumEv e (evOf r.2)) [])

/-- The result of a computation lane by lane over n lanes of w bits. -/
def lanewise (w n : Nat) (g : Nat → Rounded) : Nat × List (Nat × Nat) := packRounded w ((List.range n).map g)

/-- Lanes of d, a and b decoded in a format (R181). -/
def numLane (f v i : Nat) : Num := decodeElem f (laneOf (elemBits f) v i)

/-- An element-wise floating operation (R259): the exact terms of a lane, rounded once. -/
def vecFloat (cause : Option Nat) (o : LongVec) (lat : Nat) (readsD : Bool)
    (terms : Num → Num → Num → List (Option Num)) (s : State) : Host.Outcome State Fault Refusal :=
  let f := o.fmt
  vector cause o lat 1 true true readsD true
    (plainTags o.aSpan f ++ plainTags o.bSpan f ++ (if readsD then plainTags o.dSpan f else [])) (fun _ => f)
    (fun c t => .ok (lanewise o.w (o.dBits / o.w) fun i =>
      accumulate f (c.rnd t) (c.drawAt t i) false false
        (terms (numLane f (o.aVal t) i) (numLane f (o.bVal t) i) (numLane f (o.dVal t) i)))) s

/-- VADD (R259). -/
def execVadd (o : LongVec) (s : State) : Host.Outcome State Fault Refusal :=
  vecFloat (Instr.vadd o).cause o 3 false (fun a b _ => [some a, some b]) s

/-- VSUB (R259). -/
def execVsub (o : LongVec) (s : State) : Host.Outcome State Fault Refusal :=
  vecFloat (Instr.vsub o).cause o 3 false (fun a b _ => [some a, some b.neg]) s

/-- VMUL (R259). -/
def execVmul (o : LongVec) (s : State) : Host.Outcome State Fault Refusal :=
  vecFloat (Instr.vmul o).cause o 3 false (fun a b _ => [a.mul b]) s

/-- VFMA (R259). -/
def execVfma (o : LongVec) (s : State) : Host.Outcome State Fault Refusal :=
  vecFloat (Instr.vfma o).cause o 5 true (fun a b d => [a.mul b, some d]) s

/-- VFMS (R259). -/
def execVfms (o : LongVec) (s : State) : Host.Outcome State Fault Refusal :=
  vecFloat (Instr.vfms o).cause o 5 true (fun a b d => [(a.mul b).map Num.neg, some d]) s

/-- The scale of VSCL kept within 4096 binades, beyond which every format has overflowed or rounds from below its least
value (R259). -/
def boundScale (k : Int) : Int := max (-4096) (min 4096 k)

/-- VSCL (R259). -/
def execVscl (o : LongVec) (s : State) : Host.Outcome State Fault Refusal :=
  let f := o.fmt
  vector (Instr.vscl o).cause o 3 1 true true false true (plainTags o.aSpan f) (fun _ => f)
    (fun c t => .ok (lanewise o.w (o.dBits / o.w) fun i =>
      accumulate f (c.rnd t) (c.drawAt t i) false false
        [some ((numLane f (o.aVal t) i).scale (boundScale (toSigned 32 (o.bVal t))))])) s

/-- The sign bit of an element of a format with its sign flipped or cleared; Serif zero stays (R260). -/
def signOp (f : Nat) (clear : Bool) (x : Nat) : Nat :=
  let w := elemBits f
  match decodeElem f x with
  | .nan => fmtNan f
  | .fin _ m _ =>
    if m = 0 ∧ fmtIsSerif f then 0
    else if clear then x % 2 ^ (w - 1) else x ^^^ 2 ^ (w - 1)
  | .inf _ => if clear then x % 2 ^ (w - 1) else x ^^^ 2 ^ (w - 1)

/-- A one-source lane operation without rounding. -/
def vecUnary (cause : Option Nat) (o : LongVec) (g : Nat → Nat) (s : State) : Host.Outcome State Fault Refusal :=
  vector cause o 3 1 false false false false (plainTags o.aSpan o.fmt) (fun _ => o.fmt)
    (fun _ t => .ok (lanewise o.w (o.dBits / o.w) fun i => (g (laneOf o.w (o.aVal t) i), none))) s

/-- VNEG (R260). -/
def execVneg (o : LongVec) (s : State) : Host.Outcome State Fault Refusal :=
  vecUnary (Instr.vneg o).cause o (signOp o.fmt false) s

/-- VABS (R260). -/
def execVabs (o : LongVec) (s : State) : Host.Outcome State Fault Refusal :=
  vecUnary (Instr.vabs o).cause o (signOp o.fmt true) s

/-- The order of two values that are not NaN; zeros compare equal (R262). -/
def numCmp (a b : Num) : Ordering :=
  match a, b with
  | .inf s, .inf t => if s == t then .eq else if s then .lt else .gt
  | .inf s, _ => if s then .lt else .gt
  | _, .inf t => if t then .gt else .lt
  | .fin s m e, .fin t n g =>
    if m = 0 ∧ n = 0 then .eq
    else if m = 0 then (if t then .gt else .lt)
    else if n = 0 then (if s then .lt else .gt)
    else if s != t then (if s then .lt else .gt)
    else if s then cmpDyadic n g m e else cmpDyadic m e n g
  | _, _ => .eq

/-- Whether a is less than b where −0 counts as less than +0 (R261). -/
def numLess (a b : Num) : Bool :=
  match numCmp a b with
  | .lt => true
  | .gt => false
  | .eq => a.isNegZero && b.isPosZero

/-- VMIN or VMAX of two encodings (R261). -/
def minMax (f : Nat) (big : Bool) (x y : Nat) : Nat :=
  let a := decodeElem f x
  let b := decodeElem f y
  if a.isNan || b.isNan then fmtNan f
  else if big then (if numLess a b then y else x) else (if numLess b a then y else x)

/-- A two-source lane operation on encodings of a floating format. -/
def vecPick (cause : Option Nat) (o : LongVec) (big : Bool) (s : State) : Host.Outcome State Fault Refusal :=
  vector cause o 3 1 false false false true (plainTags o.aSpan o.fmt ++ plainTags o.bSpan o.fmt) (fun _ => o.fmt)
    (fun _ t => .ok (lanewise o.w (o.dBits / o.w) fun i =>
      (minMax o.fmt big (laneOf o.w (o.aVal t) i) (laneOf o.w (o.bVal t) i), none))) s

/-- VMIN (R261). -/
def execVmin (o : LongVec) (s : State) : Host.Outcome State Fault Refusal := vecPick (Instr.vmin o).cause o false s

/-- VMAX (R261). -/
def execVmax (o : LongVec) (s : State) : Host.Outcome State Fault Refusal := vecPick (Instr.vmax o).cause o true s

/-- VCLAMP (R261). -/
def execVclamp (o : LongVec) (s : State) : Host.Outcome State Fault Refusal :=
  vector (Instr.vclamp o).cause o 3 1 false false false true (plainTags o.aSpan o.fmt ++ plainTags o.bSpan o.fmt)
    (fun _ => o.fmt)
    (fun _ t => .ok (lanewise o.w (o.dBits / o.w) fun i =>
      (minMax o.fmt false (minMax o.fmt true (laneOf o.w (o.aVal t) i) (laneOf o.w (o.bVal t) 0))
        (laneOf o.w (o.bVal t) 1), none))) s

/-- A condition number 0-5 of R67 on an order of floating values (R262). -/
def orderHolds (x : Nat) (o : Ordering) : Bool :=
  match x, o with
  | 0, .eq => true
  | 1, .lt => true
  | 1, .gt => true
  | 2, .lt => true
  | 3, .lt => true
  | 3, .eq => true
  | 4, .gt => true
  | 5, .gt => true
  | 5, .eq => true
  | _, _ => false

/-- The condition that a number 0-9 stands for (R67). -/
def condNumber (x : Nat) : Cond :=
  match x with
  | 0 => .eq | 1 => .ne | 2 => .lt | 3 => .le | 4 => .gt | 5 => .ge | 6 => .ltz | 7 => .lez | 8 => .gtz | _ => .gez

/-- VCMP of one lane (R262). -/
def vcmpLane (f x a b : Nat) : Bool :=
  if inI f then condHolds (condNumber x) (elemBits f) a b
  else
    let p := decodeElem f a
    let q := decodeElem f b
    if p.isNan || q.isNan then x == 1 else orderHolds x (numCmp p q)

/-- VCMP (R262). -/
def execVcmp (o : LongVec) (s : State) : Host.Outcome State Fault Refusal :=
  vector (Instr.vcmp o).cause o 3 1 false false false true (plainTags o.aSpan o.fmt ++ plainTags o.bSpan o.fmt)
    (fun _ => 0)
    (fun _ t => .ok (lanewise o.w (o.dBits / o.w) fun i =>
      (if vcmpLane o.fmt o.xn (laneOf o.w (o.aVal t) i) (laneOf o.w (o.bVal t) i) then 2 ^ o.w - 1 else 0, none))) s

/-- VSEL (R263): the mask read from d is no source under the tag rule (R253). -/
def execVsel (o : LongVec) (s : State) : Host.Outcome State Fault Refusal :=
  vector (Instr.vsel o).cause o 3 1 false false true true [] (fun t => t.slices.commonTag [o.aSpan, o.bSpan])
    (fun _ t => .ok (lanewise o.w (o.dBits / o.w) fun i =>
      (if (laneOf o.w (o.dVal t) i).testBit (o.w - 1) then laneOf o.w (o.aVal t) i else laneOf o.w (o.bVal t) i, none))) s

/-- The source lanes of a reduction (R257, R264). -/
def srcNums (o : LongVec) (v : Nat) : List Num :=
  (List.range (o.aBits / elemBits o.srcFmt)).map fun i => numLane o.srcFmt v i

/-- VSUM (R264). -/
def execVsum (o : LongVec) (s : State) : Host.Outcome State Fault Refusal :=
  vector (Instr.vsum o).cause o 6 2 true true false false (plainTags o.aSpan o.srcFmt) (fun _ => o.fmt)
    (fun c t => .ok (packRounded o.w [accumulate o.fmt (c.rnd t) (c.drawAt t 0) false false
      ((srcNums o (o.aVal t)).map some)])) s

/-- VDOT (R264). -/
def execVdot (o : LongVec) (s : State) : Host.Outcome State Fault Refusal :=
  vector (Instr.vdot o).cause o 7 2 true true true true
    (plainTags o.aSpan o.srcFmt ++ plainTags o.bSpan o.srcFmt ++ plainTags o.dSpan o.fmt) (fun _ => o.fmt)
    (fun c t =>
      let a := srcNums o (o.aVal t)
      let b := srcNums o (o.bVal t)
      .ok (packRounded o.w [accumulate o.fmt (c.rnd t) (c.drawAt t 0) false (a.any Num.isNan || b.any Num.isNan)
        (some (numLane o.fmt (o.dVal t) 0) :: List.zipWith Num.mul a b)])) s

/-- VMAXR and VMINR (R264). -/
def vecExtreme (cause : Option Nat) (o : LongVec) (big : Bool) (s : State) : Host.Outcome State Fault Refusal :=
  vector cause o 6 2 false false false false (plainTags o.aSpan o.fmt) (fun _ => o.fmt)
    (fun _ t =>
      let l := (List.range (o.aBits / o.w)).map fun i => laneOf o.w (o.aVal t) i
      .ok (packRounded o.w [(match l with
        | [] => 0
        | x :: r => r.foldl (minMax o.fmt big) (minMax o.fmt big x x), none)])) s

/-- VMAXR (R264). -/
def execVmaxr (o : LongVec) (s : State) : Host.Outcome State Fault Refusal := vecExtreme (Instr.vmaxr o).cause o true s

/-- VMINR (R264). -/
def execVminr (o : LongVec) (s : State) : Host.Outcome State Fault Refusal := vecExtreme (Instr.vminr o).cause o false s

/-- A correctly rounded function (R265). -/
def vecTransc (cause : Option Nat) (o : LongVec) (fn : Transc) (s : State) : Host.Outcome State Fault Refusal :=
  vector cause o 8 2 true true false false (plainTags o.aSpan o.fmt) (fun _ => o.fmt)
    (fun c t => .ok (lanewise o.w (o.dBits / o.w) fun i =>
      transcElem fn o.fmt (c.rnd t) (c.drawAt t i) (laneOf o.w (o.aVal t) i))) s

/-- VRCP (R265). -/
def execVrcp (o : LongVec) (s : State) : Host.Outcome State Fault Refusal := vecTransc (Instr.vrcp o).cause o .rcp s

/-- VRSQ (R265). -/
def execVrsq (o : LongVec) (s : State) : Host.Outcome State Fault Refusal := vecTransc (Instr.vrsq o).cause o .rsq s

/-- VSQRT (R265). -/
def execVsqrt (o : LongVec) (s : State) : Host.Outcome State Fault Refusal := vecTransc (Instr.vsqrt o).cause o .sqrt s

/-- VEXP2 (R265). -/
def execVexp2 (o : LongVec) (s : State) : Host.Outcome State Fault Refusal := vecTransc (Instr.vexp2 o).cause o .exp2 s

/-- VLOG2 (R265). -/
def execVlog2 (o : LongVec) (s : State) : Host.Outcome State Fault Refusal := vecTransc (Instr.vlog2 o).cause o .log2 s

/-- VCVT (R266): rounding and saturation by R189 into every format (log 18). -/
def execVcvt (o : LongVec) (s : State) : Host.Outcome State Fault Refusal :=
  vector (Instr.vcvt o).cause o 4 1 true true false false (plainTags o.aSpan o.xn) (fun _ => o.fmt)
    (fun c t => .ok (lanewise o.w (o.dBits / o.w) fun i =>
      convert o.xn o.fmt (c.rnd t) (c.drawAt t i) (laneOf (elemBits o.xn) (o.aVal t) i))) s

/-- An integer lane operation (R267); the tag is ef (R267). -/
def vecInt (cause : Option Nat) (o : LongVec) (lat : Nat) (sv : Bool) (g : Bool → Nat → Nat → Rounded) (s : State) :
    Host.Outcome State Fault Refusal :=
  vector cause o lat 1 false sv false true [] (fun _ => o.fmt)
    (fun c t => .ok (lanewise o.w (o.dBits / o.w) fun i => g c.sat (laneOf o.w (o.aVal t) i) (laneOf o.w (o.bVal t) i))) s

/-- A lane as signed or unsigned integer (R267). -/
def laneInt (o : LongVec) (v : Nat) : Int := if o.x.getLsbD 0 then v else toSigned o.w v

/-- VIADD (R267). -/
def execViadd (o : LongVec) (s : State) : Host.Outcome State Fault Refusal :=
  vecInt (Instr.viadd o).cause o 1 true (fun sat a b => fit (laneInt o a + laneInt o b) o.w (!o.x.getLsbD 0) sat) s

/-- VISUB (R267). -/
def execVisub (o : LongVec) (s : State) : Host.Outcome State Fault Refusal :=
  vecInt (Instr.visub o).cause o 1 true (fun sat a b => fit (laneInt o a - laneInt o b) o.w (!o.x.getLsbD 0) sat) s

/-- VIMUL (R267). -/
def execVimul (o : LongVec) (s : State) : Host.Outcome State Fault Refusal :=
  vecInt (Instr.vimul o).cause o 3 true (fun sat a b => fit (laneInt o a * laneInt o b) o.w (!o.x.getLsbD 0) sat) s

/-- VSHL (R267). -/
def execVshl (o : LongVec) (s : State) : Host.Outcome State Fault Refusal :=
  vecInt (Instr.vshl o).cause o 1 false (fun _ a m => (if o.w ≤ m then 0 else (a <<< m) % 2 ^ o.w, none)) s

/-- VSHR (R267): logical under z, else arithmetic. -/
def execVshr (o : LongVec) (s : State) : Host.Outcome State Fault Refusal :=
  vecInt (Instr.vshr o).cause o 1 false (fun _ a m =>
    if o.x.getLsbD 0 then (if o.w ≤ m then 0 else a >>> m, none)
    else (if o.w ≤ m then (if toSigned o.w a < 0 then 2 ^ o.w - 1 else 0)
      else ofSigned o.w ((toSigned o.w a).fdiv (2 ^ m)), none)) s

/-- VAND (R267). -/
def execVand (o : LongVec) (s : State) : Host.Outcome State Fault Refusal :=
  vecInt (Instr.vand o).cause o 1 false (fun _ a b => (a &&& b, none)) s

/-- VOR (R267). -/
def execVor (o : LongVec) (s : State) : Host.Outcome State Fault Refusal :=
  vecInt (Instr.vor o).cause o 1 false (fun _ a b => (a ||| b, none)) s

/-- VXOR (R267). -/
def execVxor (o : LongVec) (s : State) : Host.Outcome State Fault Refusal :=
  vecInt (Instr.vxor o).cause o 1 false (fun _ a b => (a ^^^ b, none)) s

/-- A permute (R268): lane i of d; its tag is the common tag of the lanes' sources (R253, log 19). -/
def permute (cause : Option Nat) (o : LongVec) (readsB tagB : Bool) (g : Tile → Nat → Nat) (s : State) :
    Host.Outcome State Fault Refusal :=
  vector cause o 2 1 false false false readsB []
    (fun t => t.slices.commonTag (if tagB then [o.aSpan, o.bSpan] else [o.aSpan]))
    (fun _ t => .ok (lanewise o.w (o.dBits / o.w) fun i => (g t i, none))) s

/-- VSHUF (R268). -/
def execVshuf (o : LongVec) (s : State) : Host.Outcome State Fault Refusal :=
  permute (Instr.vshuf o).cause o true false (fun t i =>
    let k := laneOf 8 (o.bVal t) i
    if o.aBits / o.w ≤ k then 0 else laneOf o.w (o.aVal t) k) s

/-- VBCAST (R268). -/
def execVbcast (o : LongVec) (s : State) : Host.Outcome State Fault Refusal :=
  permute (Instr.vbcast o).cause o false false (fun t _ => laneOf o.w (o.aVal t) 0) s

/-- VSLIDE (R268). -/
def execVslide (o : LongVec) (s : State) : Host.Outcome State Fault Refusal :=
  permute (Instr.vslide o).cause o true true (fun t i =>
    let n := o.dBits / o.w
    let j := i + o.xn
    if j < n then laneOf o.w (o.aVal t) j else if j < 2 * n then laneOf o.w (o.bVal t) (j - n) else 0) s

/-- VZIP (R268). -/
def execVzip (o : LongVec) (s : State) : Host.Outcome State Fault Refusal :=
  permute (Instr.vzip o).cause o true true (fun t i =>
    if i % 2 = 0 then laneOf o.w (o.aVal t) (i / 2) else laneOf o.w (o.bVal t) (i / 2)) s

/-- VUNZIP (R268). -/
def execVunzip (o : LongVec) (s : State) : Host.Outcome State Fault Refusal :=
  permute (Instr.vunzip o).cause o false false (fun t i =>
    let h := o.dBits / o.w / 2
    laneOf o.w (o.aVal t) (if i < h then 2 * i else 2 * (i - h) + 1)) s

end Sys2Proof.Machine
end

