-- ==== Sys2Proof/Machine/Ductus.lean ====
section
/-! DEFINITION. Ductus blocks (R202-R219): headers, exact values, quantisation, transposition, and XU's Ductus
instructions (R269-R275). -/

namespace Sys2Proof.Machine

/-- Fields of a block header, 192 bits in slices or the low bytes of line 0 in memory (R204, R206). -/
def hdrScale (h : Nat) : Nat := bitsAt h 0 12
def hdrFmt (h : Nat) : Nat := bitsAt h 12 5
def hdrGen (h : Nat) : Nat := bitsAt h 17 4
def hdrRow (h i : Nat) : Nat := bitsAt h (64 + 2 * i) 2
def hdrCol (h j : Nat) : Nat := bitsAt h (128 + 2 * j) 2

/-- Whether R207 rejects a header against a named format, if any: a format that is no block format, a nonzero reserved
field (those above bit 191 in memory included), another format than the named one. -/
def hdrBad (h : Nat) (named : Option Nat) : Bool :=
  !inB (hdrFmt h) || bitsAt h 21 43 != 0 || bitsAt h 192 320 != 0
  || (match named with
      | some f => hdrFmt h != f
      | none => false)

/-- Payload lines of a block with elements of w bits (R203). -/
def payLines (w : Nat) : Nat := 2 * w

/-- Bytes of a block of a format (R203). -/
def blockBytes (f : Nat) : Nat := 64 * (payLines (elemBits f) + 2)

/-- The element of row i and column j in a payload (R203). -/
def payElem (w pay i j : Nat) : Nat := laneOf w pay (32 * i + j)

/-- The exact value of an element under a header (R208). -/
def ductusValue (h bits i j : Nat) : Num :=
  if hdrScale h = 0xFFF then .nan
  else (decodeElem (hdrFmt h) bits).scale ((hdrScale h : Int) - 2048 + hdrRow h i + hdrCol h j)

/-- A header adjusted by a signed amount, and whether a class 5 event is counted (R213). -/
def scaleHeader (h : Nat) (d : Int) : Nat × Bool :=
  let sc := hdrScale h
  if sc = 0xFFF then (h, false)
  else
    let n := (sc : Int) + d
    if n < 0 ∨ 0xFFE < n then (putBits h 0 12 0xFFF, true) else (putBits h 0 12 n.toNat, false)

/-- emax of R214. -/
def emaxOf (f : Nat) : Int :=
  match f with
  | 5 => 15 | 6 => 8 | 7 => 4 | 8 => 2 | 9 => 2 | 11 => 6 | 12 => 2 | 13 => 12 | 14 => 8 | _ => 2

/-- A survey entry joined with one element: 0 none, 0xFFFF NaN or infinity, else ex + 2048 (R269, R271). -/
def surveyJoin (e : Nat) (x : Num) : Nat :=
  match x with
  | .fin _ m ex => if m = 0 ∨ e = 0xFFFF then e else max e (floorLog m ex + 2048).toNat
  | _ => 0xFFFF

/-- A micro-exponent from the largest entry and the row's or column's own (R214, R272). -/
def microExp (m e : Nat) : Nat := if e = 0 then 0 else 3 - min 3 ((m - e) / 2)

/-- Two-bit fields packed from field 0 on. -/
def packMicro (l : List Nat) : Nat := packLanes 2 l

/-- The header that row and column entries give, and whether a class 5 event is counted (R214, R272). -/
def headerOf (f gen : Nat) (rows cols : List Nat) : Nat × Bool :=
  let base := f * 2 ^ 12 + gen * 2 ^ 17
  let all := rows ++ cols
  if all.contains 0xFFFF then (base + 0xFFF, false)
  else if all.all fun e => e == 0 then (base + 0x800, false)
  else
    let m := all.foldl max 0
    let scale : Int := (m : Int) - 2048 - emaxOf f - 6 + 2048
    if scale < 0 ∨ 0xFFE < scale then (base + 0xFFF, true)
    else (base + scale.toNat + packMicro (rows.map (microExp m)) * 2 ^ 64 + packMicro (cols.map (microExp m)) * 2 ^ 128, false)

/-- One element quantised under a header (R214, R273): saturation is on; u is its draw. NaN and infinity convert by R195
(log 20). -/
def quantElem (h rm u i j : Nat) (x : Num) : Rounded :=
  let f := hdrFmt h
  let r : Rnd := ⟨rm, true⟩
  if hdrScale h = 0xFFF then (0, none)
  else if hdrScale h = 0x800 ∧ bitsAt h 64 128 = 0 then (0, none)
  else
    match x.scale (-((hdrScale h : Int) - 2048 + hdrRow h i + hdrCol h j)) with
    | .nan => nanOf f true
    | .inf s => convInf f s true
    | .fin s m e => roundFin f r u false s m e

/-- The draw index of R215. -/
def drawIndex (i j : Nat) : Nat := 32 * min i j + max i j

/-- The entries of the 32 rows and 32 columns of an array of values (R214). -/
def surveyAll (x : Nat → Nat → Num) : List Nat × List Nat :=
  ((List.range 32).map fun i => (List.range 32).foldl (fun e j => surveyJoin e (x i j)) 0,
   (List.range 32).map fun j => (List.range 32).foldl (fun e i => surveyJoin e (x i j)) 0)

/-- A whole array quantised into a block: header, payload and events (R214, R215). -/
def quantise (f gen rm : Nat) (u : Nat → Nat) (x : Nat → Nat → Num) : Nat × Nat × List (Nat × Nat) :=
  let sv := surveyAll x
  let h := headerOf f gen sv.1 sv.2
  let infs := (List.range 32).foldl (fun n i => (List.range 32).foldl (fun n j => match x i j with
    | .inf _ => n + 1
    | _ => n) n) 0
  if hdrScale h.1 = 0xFFF then (h.1, 0, addEv (if h.2 then [(5, 1)] else []) 0 infs)
  else
    let l := (List.range 1024).map fun k => quantElem h.1 rm (u (drawIndex (k / 32) (k % 32))) (k / 32) (k % 32) (x (k / 32) (k % 32))
    let p := packRounded (elemBits f) l
    (h.1, p.1, p.2)

/-- The transpose of a payload (R210). -/
def transposePay (w pay : Nat) : Nat :=
  packLanes w ((List.range 1024).map fun k => payElem w pay (k % 32) (k / 32))

/-- A header with its row and column words exchanged (R210). -/
def transposeHdr (h : Nat) : Nat := putBits (putBits h 64 64 (bitsAt h 128 64)) 128 64 (bitsAt h 64 64)

/-- Fields of the cursor word (R270). -/
def curRow (v : Nat) : Nat := bitsAt v 0 5
def curCol (v : Nat) : Nat := bitsAt v 8 5
def curCyc (v : Nat) : Nat := bitsAt v 32 20

/-- Whether a step over n elements rejects its cursor (R270). -/
def curBad (v n : Nat) : Bool :=
  bitsAt v 5 3 != 0 || bitsAt v 13 19 != 0 || bitsAt v 52 12 != 0 || decide (32 < curCol v + n)

/-- One survey step over the elements of a row segment (R271). -/
def surveyRow (sv i j0 : Nat) (l : List Num) : Nat :=
  let row := l.foldl surveyJoin (laneOf 16 sv i)
  let sv := putBits sv (16 * i) 16 row
  (l.zipIdx).foldl (fun sv p =>
    putBits sv (512 + 16 * (j0 + p.2)) 16 (surveyJoin (bitsAt sv (512 + 16 * (j0 + p.2)) 16) p.1)) sv

/-- The source elements of a DQNT step (R271). -/
def dqNums (o : LongVec) (t : Tile) : List Num :=
  (List.range (o.aBits / elemBits o.dqSrc)).map fun i => numLane o.dqSrc (o.aVal t) i

/-- DQNT step 0 (R271). -/
def execDqntSurvey (o : LongVec) (s : State) : Host.Outcome State Fault Refusal :=
  vector (Instr.dqntSurvey o).cause o 2 1 true false true true (plainTags o.aSpan o.dqSrc) (fun _ => 0)
    (fun c t =>
      let v := o.bVal t % 2 ^ 32
      let l := dqNums o t
      if curBad v l.length then .error (c.raise 5)
      else .ok (surveyRow (o.dVal t) (curRow v) (curCol v) l, addEv [] 0 (l.countP fun x => match x with
        | .inf _ => true
        | _ => false))) s

/-- DQNT step 1 (R272). -/
def execDqntHead (o : LongVec) (s : State) : Host.Outcome State Fault Refusal :=
  vector (Instr.dqntHead o).cause o 4 1 true false false false [] (fun _ => 0)
    (fun _ t =>
      let v := o.aVal t
      let h := headerOf o.fmt 0 ((List.range 32).map fun i => laneOf 16 v i) ((List.range 32).map fun i => laneOf 16 v (32 + i))
      .ok (h.1, if h.2 then [(5, 1)] else [])) s

/-- DQNT step 2 (R273); a header in slices names its first slice in TINFO (log 41). -/
def execDqntQ (o : LongVec) (s : State) : Host.Outcome State Fault Refusal :=
  vector (Instr.dqntQ o).cause o 6 2 true false false true (plainTags o.aSpan o.dqSrc) (fun _ => 16 + o.fmt)
    (fun c t =>
      let h := o.bVal t % 2 ^ 192
      let v := o.bVal t / 2 ^ 192
      let l := dqNums o t
      if curBad v l.length then .error (c.raise 5)
      else if hdrBad h (some o.fmt) then .error (c.raiseInfo 22 o.bSpan.1 0)
      else .ok (packRounded o.w (l.zipIdx.map fun p =>
        let j := curCol v + p.2
        quantElem h (c.rnd t).rm (draw t.csr.rseed (curCyc v) (drawIndex (curRow v) j)) (curRow v) j p.1))) s

/-- DDQ (R274): the number of elements is d's lane count; a's width must match the header's format (log 20). -/
def execDdq (o : LongVec) (s : State) : Host.Outcome State Fault Refusal :=
  vector (Instr.ddq o).cause o 6 2 true false false true [] (fun _ => o.fmt)
    (fun c t =>
      let h := o.bVal t % 2 ^ 192
      let v := o.bVal t / 2 ^ 192
      let n := o.dBits / o.w
      let w := elemBits (hdrFmt h)
      let known := inB (hdrFmt h)
      if curBad v n ∨ (known ∧ o.aBits ≠ n * w) then .error (c.raise 5)
      else
        match if known then tagCheck c t [(o.aSpan, [0, 16 + hdrFmt h])] else none with
        | some r => .error r
        | none =>
          if hdrBad h none then .error (c.raiseInfo 22 o.bSpan.1 0)
          else if hdrScale h = 0xFFF then
            .ok (packLanes o.w ((List.range n).map fun _ => fmtNan o.fmt), [(4, 1)])
          else .ok (lanewise o.w n fun m =>
            match ductusValue h (laneOf w (o.aVal t) m) (curRow v) (curCol v + m) with
            | .nan => (fmtNan o.fmt, none)
            | .inf sg => (infOf o.fmt sg, none)
            | .fin sg x e => roundFin o.fmt (c.rnd t) (c.drawAt t m) true sg x e)) s

/-- DSCALE (R275). -/
def execDscale (o : LongVec) (s : State) : Host.Outcome State Fault Refusal :=
  vector (Instr.dscale o).cause o 1 1 false false false true [] (fun _ => 0)
    (fun c t =>
      let h := o.aVal t
      if hdrBad h none then .error (c.raiseInfo 22 o.aSpan.1 0)
      else
        let r := scaleHeader h (toSigned 32 (o.bVal t))
        .ok (r.1, if r.2 then [(5, 1)] else [])) s

end Sys2Proof.Machine
end

