-- ==== Sys2Proof/Machine/Copy.lean ====
section
/-! DEFINITION. The copy engine's commands (R361-R379): descriptors and their checks, the request stage, slot cursors,
lines, block form, completion and completion signals. A line's landing is made by the cycle (R364). -/

namespace Sys2Proof.Machine

/-- Fields of the copy descriptor (R369). -/
def dSrc (d : Nat) : Nat := bitsAt d 0 64
def dDst (d : Nat) : Nat := bitsAt d 64 64
def dLen (d : Nat) : Nat := bitsAt d 128 16
def dLat (d : Nat) : Nat := bitsAt d 144 16
def dHalf (d : Nat) : Nat := bitsAt d 160 1
def dTag (d : Nat) : Nat := bitsAt d 174 5
def dGen (d : Nat) : Nat := bitsAt d 179 4
def dGv (d : Nat) : Bool := d.testBit 183
def dForm (d : Nat) : Nat := bitsAt d 184 2
def dSval (d : Nat) : Nat := bitsAt d 192 27
def dSoff (d : Nat) : Nat := bitsAt d 219 20
def dSv (d : Nat) : Bool := d.testBit 255

/-- The window address of a descriptor's signal word (R369). -/
def dSigAddr (d : Nat) : Nat := bitsAt d 247 8 * 2 ^ 32 + bitsAt d 239 8 * 2 ^ 24 + dSoff d

/-- The offset field of a window address (R26). -/
def winOff (a : Nat) : Nat := bitsAt a 0 22

/-- A fault of a CE check: its cause and its information, if it has its own (R473). -/
abbrev CeFault := Nat × Option Nat

/-- A CE fault as a trap at issue, and at the end of a cycle (R364, R375). -/
def Ctx.ceRaise (c : Ctx) (x : CeFault) : Raise :=
  match x.2 with
  | none => c.raise x.1
  | some i => c.raiseInfo x.1 i 0
def endRaise (x : CeFault) : Raise := raiseEnd x.1 (x.2.getD 0) 0

/-- The fault with the lowest cause, the first of several (R461). -/
def lowestFault (l : List CeFault) : Option CeFault :=
  l.foldl (fun m x => match m with
    | none => some x
    | some y => if x.1 < y.1 then some x else some y) none

/-- Start cycle of an absolute slot number of a channel or of the host slots (R126, R130). -/
def slotStart (ch n : Nat) : Nat :=
  if ch = 0xFFFF then 1024 * (n / 32) + 32 * (n % 32) + 1 else 1024 * (n / 512) + 2 * (n % 512)

/-- Slots in a rotation. -/
def slotsPer (ch : Nat) : Nat := if ch = 0xFFFF then 32 else 512

/-- Whether the calendar plan gives a slot number of a channel to a tile (R112, R126). -/
def givesSlot (cal : List CalEntry) (fx fy ch n : Nat) : Bool :=
  cal.any fun e => e.ch == ch && e.fx == fx && e.fy == fy && decide (e.first ≤ n) && decide (n ≤ e.last)

/-- Whether the plan gives a tile any slot of a channel (R363). -/
def givesAny (cal : List CalEntry) (fx fy ch : Nat) : Bool :=
  cal.any fun e => e.ch == ch && e.fx == fx && e.fy == fy && decide (e.first ≤ e.last)

/-- The tile's next slot of a channel after the cursor, as an absolute slot number (R363). -/
def nextSlot (c : Ctx) (cursors : List SlotCursor) (ch : Nat) : Nat :=
  let per := slotsPer ch
  let after := match cursors.find? fun x => x.ch == ch with
    | some x => x.last + 1
    | none => 0
  after + (((List.range per).find? fun i => givesSlot c.cal c.fx c.fy ch ((after + i) % per)).getD 0)

/-- The absolute slot that a request ready at a cycle uses: the bound slot, or the same slot of the first rotation that it
does not miss (R127). -/
def slotFor (c : Ctx) (cursors : List SlotCursor) (ch ready : Nat) : Nat :=
  let n := nextSlot c cursors ch
  let s := slotStart ch n
  n + (if s < ready + 8 then (ready + 8 - s + 1023) / 1024 else 0) * slotsPer ch

/-- Counts a slot used, and whether the request missed its first one (R496). -/
def Prof.slot (p : Prof) (ch : Nat) (missed : Bool) : Prof :=
  let old := ((p.slots.find? fun x => x.1 == ch).map Prod.snd).getD (0, 0)
  { p with slots := (p.slots.filter fun x => x.1 != ch) ++ [(ch, old.1 + 1, old.2 + if missed then 1 else 0)] }

/-- Binds a request (R363): the start of the slot it uses, and the moved cursor. -/
def Tile.bindSlot (t : Tile) (c : Ctx) (ch ready : Nat) : Nat × Tile :=
  let n := slotFor c t.ce.cursors ch ready
  let cs := (t.ce.cursors.filter fun x => x.ch != ch) ++ [⟨ch, n⟩]
  let missed := n != nextSlot c t.ce.cursors ch
  (slotStart ch n, { t with ce := { t.ce with cursors := cs }, prof := t.prof.slot ch missed })

/-- Bytes of a page size code (R356). -/
def pageBytes (size : Nat) : Nat := if size = 0 then 2 ^ 16 else if size = 1 then 2 ^ 21 else 2 ^ 30

/-- The valid slot of the window table that holds a virtual address (R356, R366). -/
def Tile.slotOf (t : Tile) (va : Nat) : Option Window :=
  t.wins.toList.find? fun w => w.v && decide (w.vpn * 2 ^ 16 ≤ va) && decide (va < w.vpn * 2 ^ 16 + pageBytes w.size)

/-- The physical address of a virtual address under a slot. -/
def Window.phys (w : Window) (va : Nat) : Nat := w.pa + (va - w.vpn * 2 ^ 16)

/-- The physical address of a line whose check has passed. -/
def Tile.physOf (t : Tile) (va : Nat) : Nat :=
  match t.slotOf va with
  | some w => w.phys va
  | none => 0

/-- The parts of a virtual extent by the slots that hold them: address, bytes, slot. A part no slot holds ends it. -/
def Tile.segments (t : Tile) (va n : Nat) (fuel : Nat) : List (Nat × Nat × Option Window) :=
  match fuel with
  | 0 => [(va, n, none)]
  | fuel + 1 =>
    match t.slotOf va with
    | none => [(va, n, none)]
    | some w =>
      let stop := w.vpn * 2 ^ 16 + pageBytes w.size
      if va + n ≤ stop then [(va, n, some w)] else (va, stop - va, some w) :: t.segments stop (va + n - stop) fuel

/-- The channel whose slots reach a physical address: 0xFFFF for the host (R366), else the abstract channel (R420, R433). -/
def chanOf (p : Place) (pa : Nat) : Nat :=
  if inHostWindow pa then 0xFFFF
  else match p.chans.find? fun x => x.2 == chanNum pa with
    | some x => x.1
    | none => 0xFF

/-- The checks of R363 and R366 on the pages of a virtual extent. -/
def Tile.pageFaults (t : Tile) (c : Ctx) (va n : Nat) (write : Bool) : List CeFault :=
  (t.segments va n 34).flatMap fun s => match s.2.2 with
    | none => [(50, some s.1)]
    | some w =>
      let ch := chanOf c.place (w.phys s.1)
      (if write && !w.w then [(51, some s.1)] else [])
      ++ (if givesAny c.cal c.fx c.fy ch then [] else if ch = 0xFFFF then [(52, none)] else [(53, some ch)])

/-- The checks of a virtual address (R366, R369, R371): one above 54 bits is none. -/
def Tile.virtFaults (t : Tile) (c : Ctx) (va n : Nat) (write : Bool) : List CeFault :=
  if 2 ^ 54 ≤ va then [(75, none)]
  else (if va % 64 ≠ 0 then [(75, none)] else []) ++ t.pageFaults c va n write

/-- Stores by their window ranges (R22). -/
def spadRange : Nat × Nat := (0, 0xF8000)
def wbufRange : Nat × Nat := (0x100000, 0x140000)
def accRange : Nat × Nat := (0x140000, 0x150000)
def sfRange : Nat × Nat := (0x150000, 0x150800)
def timRange : Nat × Nat := (0x180000, 0x1A0000)

/-- The stores that a copy may read and write on chip (R371). -/
def copyStores : List (Nat × Nat) := [spadRange, wbufRange, accRange]

/-- Whether n bytes from an offset lie in one of some stores (R371). -/
def inStores (l : List (Nat × Nat)) (off n : Nat) : Bool := l.any fun r => decide (r.1 ≤ off) && decide (off + n ≤ r.2)

/-- The checks of a window extent (R27, R371). -/
def windowFaults (c : Ctx) (a n : Nat) (stores : List (Nat × Nat)) : List CeFault :=
  match checkWindow c.place c.fx c.fy a false with
  | .error (5, _) => [(5, none)]
  | .error (x, i) => [(x, some i)]
  | .ok (_, _, off) => if inStores stores off n then [] else [(45, some a)]

/-- The target tile of a window address that passed its check. -/
def winTarget (c : Ctx) (a : Nat) : Nat × Nat := (c.place.target c.fx c.fy (bitsAt a 32 8) (bitsAt a 24 8)).getD (c.fx, c.fy)

/-- The tiles of a BCST rectangle as window addresses (R377). -/
def bcstAddrs (d : Nat) : List Nat :=
  let a := dDst d
  (List.range (bitsAt a 48 8 + 1)).flatMap fun row => (List.range (bitsAt a 40 8 + 1)).map fun col =>
    bitsAt a 56 8 * 2 ^ 56 + (bitsAt a 32 8 + col) % 256 * 2 ^ 32 + (bitsAt a 24 8 + row) % 256 * 2 ^ 24 + bitsAt a 0 24

/-- Whether a command's lines land at k + lat + i (R364, R371). -/
def usesLat (fn md : Nat) : Bool := fn == 0 || fn == 3 || fn == 6 || fn == 8 || ((fn == 1 || fn == 4 || fn == 5) && md == 1)

/-- The largest length and the unit of a command (R371). -/
def lenLimit (fn : Nat) : Nat × Nat :=
  match fn with
  | 0 => (65528, 8) | 1 => (65472, 64) | 2 => (65472, 64) | 3 => (64, 1) | 4 => (16384, 1) | 5 => (16384, 1)
  | 6 => (4096, 1) | _ => (65528, 8)

/-- Whether a descriptor's length keeps its command's limit and unit (R371). -/
def lenOk (fn d : Nat) : Bool := dLen d != 0 && decide (dLen d ≤ (lenLimit fn).1) && dLen d % (lenLimit fn).2 == 0

/-- The checks of the descriptor's own fields, and R27's of its signal word (R20, R369). -/
def descFaults (c : Ctx) (fn md d : Nat) : List CeFault :=
  (if bitsAt d 161 13 != 0 || bitsAt d 186 6 != 0 || (fn != 6 && dHalf d != 0) || !lenOk fn d
      || (usesLat fn md != (dLat d != 0)) || (dSv d && (dSoff d % 8 != 0 || decide (0xF8000 < dSoff d + 8)))
   then [(75, none)] else [])
  ++ (if dSv d then windowFaults c (dSigAddr d) 8 [spadRange] else [])

/-- Whether an own address of a command names another tile (R369, R371). -/
def ownAway (fn md d : Nat) : Bool :=
  let away (a : Nat) : Bool := bitsAt a 24 16 != 0
  match fn with
  | 1 => away (dDst d)
  | 3 => (md == 1 && away (dSrc d)) || away (dDst d)
  | 4 | 5 => away (dSrc d) || away (dDst d)
  | _ => away (dSrc d)

/-- Size and format of a block by its header's first word as it stands at issue (R203, R373). Where the header names no block
format, the block is taken to fill the rest of a copy in bytes, and has a free size in a copy by blocks (log 22). -/
def blockSize (h : Nat) (rest : Option Nat) : Nat × Nat :=
  let f := hdrFmt h
  if inB f then (blockBytes f, f)
  else match rest with
    | some n => (n / 64 * 64, f)
    | none => (64 * (payLines (if Config.strayBlock f % 3 = 0 then 8 else if Config.strayBlock f % 3 = 1 then 6 else 4) + 2), f)

/-- The blocks of a copy from an address on: a number of blocks, or those that fill a number of bytes (R373, R374). -/
def blocksFrom (hd : Nat → Nat) (base lim : Nat) (byCount : Bool) (fuel off : Nat) : List BlockAt :=
  match fuel with
  | 0 => []
  | fuel + 1 =>
    if !byCount && decide (lim < off + 64) then []
    else
      let z := blockSize (hd (base + off)) (if byCount then none else some (lim - off))
      { first := off / 64, lines := z.1 / 64, addr := base + off, fmt := z.2 } :: blocksFrom hd base lim byCount fuel (off + z.1)

/-- Bytes of some blocks. -/
def blocksBytes (l : List BlockAt) : Nat := 64 * (l.map (·.lines)).sum

/-- Whether a command moves whole blocks, and from virtual memory (R373, R374). -/
def isBlock (fn md : Nat) : Bool := fn == 3 || (md == 1 && decide (fn < 3))
def blockVirt (fn md : Nat) : Bool := fn == 1 || (fn == 3 && md == 0)

/-- The blocks of a block-form command (R373, log 22). -/
def Tile.blocks (t : Tile) (c : Ctx) (fn md d : Nat) : List BlockAt :=
  let hd (a : Nat) : Nat := if blockVirt fn md then c.header (t.physOf a) else t.bytes a 8
  let base := if blockVirt fn md then dSrc d else winOff (dSrc d)
  if fn = 3 then blocksFrom hd base 0 true (dLen d) 0 else blocksFrom hd base (dLen d) false (dLen d / 640 + 1) 0

/-- Every check of a copy command at issue (R363, R366, R369, R371, R373-R377); of several the lowest cause counts (R461).
With a length out of its limits no extent is known, and the addresses alone are checked (log 39). -/
def Tile.copyFaults (t : Tile) (c : Ctx) (fn md d : Nat) : List CeFault :=
  let ok := lenOk fn d
  let n := if ok then dLen d else 1
  let base := descFaults c fn md d ++ (if ownAway fn md d then [(75, none)] else [])
  if isBlock fn md then
    let whole := if ok then blocksBytes (t.blocks c fn md d) else 1
    let z := if fn = 3 then whole else n
    base
    ++ (if (dSrc d % 64 != 0) || (dDst d % 64 != 0) || z != whole then [(75, none)] else [])
    ++ (if blockVirt fn md then t.virtFaults c (dSrc d) z false else windowFaults c (dSrc d) z copyStores)
    ++ (if fn = 2 then t.virtFaults c (dDst d) z true
        else if fn = 0 then windowFaults c (dDst d) z (copyStores ++ [timRange])
        else windowFaults c (dDst d) z (if fn = 3 then [spadRange, wbufRange] else copyStores))
  else base ++ (match fn with
    | 0 => windowFaults c (dSrc d) n copyStores ++ windowFaults c (dDst d) n (copyStores ++ [timRange])
    | 1 => t.virtFaults c (dSrc d) n false ++ windowFaults c (dDst d) n copyStores
    | 2 => windowFaults c (dSrc d) n copyStores ++ t.virtFaults c (dDst d) n true
    | 4 => windowFaults c (dSrc d) (8 * n) copyStores ++ windowFaults c (dDst d) (64 * n) [spadRange]
    | 5 => windowFaults c (dSrc d) (64 * n) copyStores ++ windowFaults c (dDst d) (8 * n) copyStores
    | 6 => windowFaults c (dSrc d) ((n + 1) / 2) copyStores ++ windowFaults c (dDst d) 1 [sfRange]
        ++ (if 4096 < 2 * bitsAt d 64 11 + dHalf d + n then [(75, none)] else [])
    | _ => windowFaults c (dSrc d) n copyStores ++ (bcstAddrs d).flatMap fun a => windowFaults c a n copyStores)

/-- The place of a tile in an extent. -/
def placeOf (c : Ctx) (x : Nat × Nat) : Nat := 1 + x.2 * c.place.w + x.1

/-- A window extent (R311). -/
def winExt (c : Ctx) (a n : Nat) : Extent := { place := placeOf c (winTarget c a), first := winOff a, len := n }

/-- A virtual extent by physical addresses, which a copy reads or writes (R311). -/
def Tile.virtExt (t : Tile) (va n : Nat) (read : Bool) : List Extent :=
  (t.segments va n 34).filterMap fun s => s.2.2.map fun w => { place := 0, first := w.phys s.1, len := s.2.1, read := read }

/-- The bytes that a copy command touches, its index entries and block sizes as they stand (R311). -/
def Tile.copyExts (t : Tile) (c : Ctx) (fn md d : Nat) : List Extent :=
  let n := dLen d
  let sig := if dSv d then [winExt c (dSigAddr d) 8] else []
  let entries (tab : Nat) : List Extent := (List.range n).flatMap fun i =>
    let e := t.bytes (winOff tab + 8 * i) 8
    if md = 1 then [winExt c (if fn = 4 then bitsAt e 0 22 else e) 64] else t.virtExt e 64 (fn == 4)
  sig ++ (if isBlock fn md then
      let z := blocksBytes (t.blocks c fn md d)
      (if blockVirt fn md then t.virtExt (dSrc d) z true else [winExt c (dSrc d) z])
      ++ (if fn = 2 then t.virtExt (dDst d) z false else [winExt c (dDst d) z])
    else match fn with
    | 1 => winExt c (dDst d) n :: t.virtExt (dSrc d) n true
    | 2 => winExt c (dSrc d) n :: t.virtExt (dDst d) n false
    | 4 => winExt c (dSrc d) (8 * n) :: winExt c (dDst d) (64 * n) :: entries (dSrc d)
    | 5 => winExt c (dSrc d) (64 * n) :: winExt c (dDst d) (8 * n) :: entries (dDst d)
    | 6 => [winExt c (dSrc d) ((n + 1) / 2), winExt c (dDst d) ((n + dHalf d + 1) / 2)]
    | 8 => winExt c (dSrc d) n :: (bcstAddrs d).map fun a => winExt c a n
    | _ => [winExt c (dSrc d) n, winExt c (dDst d) n])

/-- Whether two sets of extents, the earlier command's first, share a byte that orders them (R311). A later copy's read of a line
of an Inkwell command is not ordered behind it by its bytes: it sees the old line or the new (R326, R402, log 11). -/
def extsMeet (a b : List Extent) : Bool :=
  a.any fun x => b.any fun y => x.place == y.place && !(x.lane && y.read) && meets x.first x.len y.first y.len

/-- Whether a class lies in a mask; class 15 lies in every nonzero one (R313, R314). -/
def inMask (mask cls : Nat) : Bool := mask != 0 && (mask.testBit cls || cls == 15)

/-- Whether the completion signal word that a command asks for has performed before cycle k: it is one of the command's
writes (R311, R370). A stopped command sends none. -/
def CeCmd.signalled (m : CeCmd) (k : Nat) : Bool :=
  m.sig.isNone || m.fn == 7 || m.stop.isSome || (match m.sland with
    | some l => decide (l < k)
    | none => false)

/-- Whether a command has performed every unit, its completion signal word included, before cycle k (R354, R361). -/
def CeCmd.performed (m : CeCmd) (k : Nat) : Bool := m.e.isSome && decide (m.perf < k) && m.signalled k

/-- Whether a command has completed before cycle k (R365). -/
def CeCmd.completed (m : CeCmd) (k : Nat) : Bool :=
  match m.e with
  | some e => decide (e < k)
  | none => false

/-- Whether some write issued by AP or NET with a class in a mask, before a cycle, performs in cycle k or later (R314). -/
def Tile.queueWritesPending (t : Tile) (k before mask : Nat) : Bool :=
  (t.ap.accs.any fun a => decide (a.issue < before) && inMask mask a.cls && decide (k ≤ a.perf) && (match a.kind with
    | .load .. => false
    | _ => true))
  || (t.ap.ratoms.any fun r => decide (r.issue < before) && inMask mask r.cls && decide (k ≤ r.land))
  || (t.net.router.inj.any fun f => match f.pay with
      | .message _ _ _ i cl => decide (i < before) && inMask mask cl
      | _ => false)

/-- Whether some write issued by AP, MX or NET with a class in a mask, before a cycle, has yet to perform in cycle k
(R314, R354). -/
def Tile.writesPending (t : Tile) (k before mask : Nat) : Bool :=
  t.queueWritesPending k before mask
  || (t.mx.pend.any fun p => decide (p.issue < before) && inMask mask p.cls && decide (k ≤ p.land))
  || (match t.mx.mma with
      | some m => decide (m.issue < before) && inMask mask m.cls
      | none => false)

/-- The hold of a CE instruction that orders itself behind others: releases, earlier commands of its class or class 15 or
overlapping bytes, an UNPIN at the head of AP (R311, R314, R358, R361). -/
def ceHold (o : CopyOp) (exts : Ctx → Tile → List Extent) (c : Ctx) (t : Tile) : Option Hold :=
  let cls := c.cls o.ocl.toNat
  let mask := o.rmask.toNat
  let unpin := match t.ctl.entries .ap with
    | e :: r =>
      (t.ctl.since .ap).isSome && e.marker.isNone && (major e.w0 == 0x25 || (major e.w0 == 0x5F && (match r with
        | e' :: _ => major e'.w0 == 0x25
        | [] => false)))
    | [] => false
  let waits := t.ce.cmds.filter fun m => decide (m.issue < c.k) && !m.performed c.k
  if unpin || t.writesPending c.k c.k mask
      || (waits.any fun m => inMask mask m.cls || m.cls == cls || m.cls == 15 || cls == 15)
      || (!waits.isEmpty && waits.any fun m => extsMeet m.exts (exts c t))
  then some .order else none

/-- The description of a CE instruction (R361, R380). -/
def ceInfo (cause : Option Nat) (o : CopyOp) (least : Nat) (reads rnd : Bool) : Info :=
  { cause := cause, srcs := if reads then [(o.dsc.toNat, 64)] else [], dsts := [], preds := [], wides := []
    cls := o.ecl.toNat, least := least, rv := rnd, sv := rnd, ov := true, acc := some o.ocl.toNat, hand := false }

/-- The descriptor as it stands (R361). -/
def Tile.desc (t : Tile) (o : CopyOp) : Nat := t.spanBits o.dsc.toNat 256

/-- The signal that a descriptor asks for (R369, R370). -/
def sigOf (c : Ctx) (d : Nat) : Option Signal :=
  if dSv d then
    let x := winTarget c (dSigAddr d)
    some { fx := x.1, fy := x.2, off := dSoff d, value := dSval d }
  else none

/-- A new command of the tile, with the requests it sends (R362). -/
def newCmd (t : Tile) (c : Ctx) (o : CopyOp) (fn d total : Nat) : CeCmd :=
  { id := t.ce.nextId, seq := c.e.seq, line := c.e.line, lane := c.e.lane, issue := c.k, fn := fn
    cls := c.cls o.ocl.toNat, mod := o.mod.toNat, desc := d, dstart := o.dsc.toNat, q0 := max (c.k + 1) t.ce.lastReq, total := total
    own := false, sig := none, targets := [], exts := [], left := total, perf := c.k, fin := c.k, e := none, stop := none
    fault := [], kind := .plain }

/-- Adds a command and takes its cycles of the request stage (R362). -/
def Tile.addCmd (t : Tile) (m : CeCmd) (requests : Nat) : Tile :=
  { t with ce := { t.ce with nextId := t.ce.nextId + 1, lastReq := m.q0 + requests, cmds := t.ce.cmds ++ [m] } }

/-- Lines of a plain command (R362, R372, R375, R376). -/
def copyLines (fn d : Nat) : Nat :=
  let n := dLen d
  match fn with
  | 1 => n / 64 | 2 => n / 64 | 4 => n | 5 => n | 6 => (n + 127) / 128
  | _ => (winOff (dDst d) + n - 1) / 64 + 1 - winOff (dDst d) / 64

/-- The targets of a command's on-chip lines. -/
def copyTargets (c : Ctx) (fn d : Nat) : List (Nat × Nat) :=
  if fn = 8 then (bcstAddrs d).map (winTarget c)
  else if fn = 0 ∨ fn = 6 then [winTarget c (dDst d)] else [(c.fx, c.fy)]

/-- The command that a copy instruction starts, with its requests (R362, R365, R373). -/
def copyCmd (t : Tile) (c : Ctx) (o : CopyOp) (fn d : Nat) : CeCmd × Nat :=
  let md := o.mod.toNat
  let bl := t.blocks c fn md d
  let total := if isBlock fn md then blocksBytes bl / 64 else copyLines fn d
  let m := newCmd t c o fn d total
  let last := if fn = 6 then c.k + dLat d else c.k + dLat d + total - 1
  let m := { m with sig := sigOf c d, targets := copyTargets c fn d, exts := t.copyExts c fn md d
                    own := fn == 6 && copyTargets c fn d == [(c.fx, c.fy)] }
  let m := if usesLat fn md then { m with e := some last, perf := last, fin := last } else m
  if isBlock fn md then
    ({ m with kind := .block { blocks := bl, virtSrc := blockVirt fn md, virtDst := fn == 2, transpose := fn == 3
                               rnext := if blockVirt fn md then some (0, m.q0) else none, buf := [], wq := [], wnext := 0 } },
     total)
  else (m, total)

/-- The effect of a copy instruction at issue. -/
def copyBody (o : CopyOp) (fn : Nat) (c : Ctx) (t : Tile) : Except Raise Tile :=
  let d := t.desc o
  match lowestFault (t.copyFaults c fn o.mod.toNat d) with
  | some x => .error (c.ceRaise x)
  | none =>
    let r := copyCmd t c o fn d
    .ok (t.addCmd r.1 r.2)

/-- A copy command (R371). -/
def copy (cause : Option Nat) (o : CopyOp) (fn least : Nat) (s : State) : Host.Outcome State Fault Refusal :=
  issue (fun _ => ceInfo cause o least true false)
    (ceHold o fun c t => t.copyExts c fn o.mod.toNat (t.desc o)) (copyBody o fn) s

/-- CPY (R372). -/
def execCpy (o : CopyOp) (s : State) : Host.Outcome State Fault Refusal := copy (Instr.cpy o).cause o 0 1 s

/-- CPYH (R372). -/
def execCpyh (o : CopyOp) (s : State) : Host.Outcome State Fault Refusal := copy (Instr.cpyh o).cause o 1 1 s

/-- CPYW (R372). -/
def execCpyw (o : CopyOp) (s : State) : Host.Outcome State Fault Refusal := copy (Instr.cpyw o).cause o 2 1 s

/-- CPYT (R374). -/
def execCpyt (o : CopyOp) (s : State) : Host.Outcome State Fault Refusal := copy (Instr.cpyt o).cause o 3 1 s

/-- GATH (R375). -/
def execGath (o : CopyOp) (s : State) : Host.Outcome State Fault Refusal := copy (Instr.gath o).cause o 4 1 s

/-- SCAT (R375). -/
def execScat (o : CopyOp) (s : State) : Host.Outcome State Fault Refusal := copy (Instr.scat o).cause o 5 1 s

/-- CPYSF (R376). -/
def execCpysf (o : CopyOp) (s : State) : Host.Outcome State Fault Refusal := copy (Instr.cpysf o).cause o 6 1 s

/-- BCST (R377). -/
def execBcst (o : CopyOp) (s : State) : Host.Outcome State Fault Refusal := copy (Instr.bcst o).cause o 8 2 s

/-- Fields of TIMLD's descriptor (R378). -/
def tlOvl (d : Nat) : Nat := bitsAt d 64 8
def tlFirst (d : Nat) : Nat := bitsAt d 72 12
def tlCount (d : Nat) : Nat := bitsAt d 96 13
def tlEntry (d : Nat) : Nat := bitsAt d 128 12

/-- The checks of TIMLD (R366, R378). -/
def Tile.timldFaults (t : Tile) (c : Ctx) (d : Nat) : List CeFault :=
  let n := tlCount d
  if bitsAt d 84 12 != 0 || bitsAt d 109 19 != 0 || bitsAt d 140 116 != 0 || n == 0 || decide (4096 < n)
      || decide (4096 < tlFirst d + n) || decide (tlEntry d < tlFirst d) || decide (tlFirst d + n ≤ tlEntry d)
  then [(75, none)]
  else t.virtFaults c (dSrc d) (64 * ((n + 1) / 2)) false

/-- The bytes that TIMLD touches. -/
def Tile.timldExts (t : Tile) (c : Ctx) (d : Nat) : List Extent :=
  { place := placeOf c (c.fx, c.fy), first := 0x180000 + 32 * tlFirst d, len := 32 * tlCount d }
  :: t.virtExt (dSrc d) (64 * ((tlCount d + 1) / 2)) true

/-- Sets an entry of the overlay table (R378). -/
def Tile.setOvt (t : Tile) (n : Nat) (v : Dword) : Tile := { t with csr := { t.csr with ovt := vset t.csr.ovt n v } }

/-- TIMLD (R378). -/
def execTimld (o : CopyOp) (s : State) : Host.Outcome State Fault Refusal :=
  issue (fun _ => ceInfo (Instr.timld o).cause o 1 true false) (ceHold o fun c t => t.timldExts c (t.desc o))
    (fun c t =>
      let d := t.desc o
      match lowestFault (t.timldFaults c d) with
      | some x => .error (c.ceRaise x)
      | none =>
        let total := (tlCount d + 1) / 2
        let m := { newCmd t c o 12 d total with targets := [(c.fx, c.fy)], exts := t.timldExts c d }
        .ok ((t.setOvt (tlOvl d) ((vget t.csr.ovt (tlOvl d)) &&& 0x7FFFFFFFFFFFFFFF#64)).addCmd m total)) s

/-- The cycle in which the signal lane takes a tile's next signal word, not before a cycle (R370). -/
def Tile.signalAt (t : Tile) (first : Nat) : Nat := max first t.ce.sigFree

/-- SIGW (R379): the word's landing is kept with the folio; the command ends with it. -/
def execSigw (o : CopyOp) (s : State) : Host.Outcome State Fault Refusal :=
  issue (fun _ => ceInfo (Instr.sigw o).cause o 1 true false)
    (fun c t =>
      let cls := c.cls o.ocl.toNat
      match ceHold o (fun c t => [winExt c (dDst (t.desc o)) 8]) c t with
      | some h => some h
      | none =>
        if t.ce.cmds.any fun m => decide (m.issue < c.k) && (m.cls == cls || inMask o.rmask.toNat m.cls || m.cls == 15 || cls == 15)
            && !m.completed c.k then some .order else none)
    (fun c t =>
      let d := t.desc o
      let a := dDst d
      let bad : List CeFault := (if bitsAt d 128 128 = 0 then [] else [(75, none)]) ++ windowFaults c a 8 [spadRange]
        ++ (if a % 8 = 0 then [] else [(46, some a)])
      match lowestFault bad with
      | some x => .error (c.ceRaise x)
      | none =>
        let x := winTarget c a
        let at_ := t.signalAt (c.k + 1)
        let land := at_ + hops c.place c.fx c.fy x.1 x.2
        let m := { newCmd t c o 7 d 0 with
          q0 := t.ce.lastReq, sig := some { fx := x.1, fy := x.2, off := winOff a, value := bitsAt d 0 64 }
          exts := [winExt c a 8], perf := land, fin := land, e := some land }
        let t := t.addCmd m 0
        .ok { t with ce := { t.ce with sigFree := at_ + 1 } }) s

/-- What the request of a line moves: from a virtual address or a window offset, to a virtual address or a window offset
of some tiles. -/
structure LineReq where
  srcVa : Option Nat
  src : Nat
  dstVa : Option Nat
  dst : Nat
  len : Nat
  targets : List (Nat × Nat)

/-- Line i of a plain command at its request cycle (R372, R375, R378). -/
def Tile.lineReq (t : Tile) (c : Ctx) (m : CeCmd) (i : Nat) : Except CeFault LineReq :=
  let d := m.desc
  let src := winOff (dSrc d)
  let dst := winOff (dDst d)
  let me := [(c.fx, c.fy)]
  let refuse (l : List CeFault) (r : LineReq) : Except CeFault LineReq := match lowestFault l with
    | some x => .error x
    | none => .ok r
  match m.fn with
  | 1 => .ok { srcVa := some (dSrc d + 64 * i), src := 0, dstVa := none, dst := dst + 64 * i, len := 64, targets := me }
  | 2 => .ok { srcVa := none, src := src + 64 * i, dstVa := some (dDst d + 64 * i), dst := 0, len := 64, targets := [] }
  | 4 =>
    let e := t.bytes (src + 8 * i) 8
    if m.mod = 0 then
      refuse (t.virtFaults c e 64 false)
        { srcVa := some e, src := 0, dstVa := none, dst := dst + 64 * i, len := 64, targets := me }
    else
      refuse ((if e % 64 = 0 then [] else [(75, none)]) ++ (if e + 64 ≤ 0xF8000 then [] else [(45, some e)]))
        { srcVa := none, src := e, dstVa := none, dst := dst + 64 * i, len := 64, targets := me }
  | 5 =>
    let e := t.bytes (dst + 8 * i) 8
    if m.mod = 0 then
      refuse (t.virtFaults c e 64 true)
        { srcVa := none, src := src + 64 * i, dstVa := some e, dst := 0, len := 64, targets := [] }
    else
      refuse (windowFaults c e 64 copyStores)
        { srcVa := none, src := src + 64 * i, dstVa := none, dst := winOff e, len := 64, targets := [winTarget c e] }
  | 12 =>
    .ok { srcVa := some (dSrc d + 64 * i), src := 0, dstVa := none, dst := 0x180000 + 32 * (tlFirst d + 2 * i)
          len := min 64 (32 * (tlCount d - 2 * i)), targets := me }
  | _ =>
    let base := dst / 64 * 64 + 64 * i
    let lo := max dst base
    .ok { srcVa := none, src := src + (lo - dst), dstVa := none, dst := lo, len := min (dst + dLen d) (base + 64) - lo
          targets := m.targets }

/-- Changes a command. -/
def Tile.onCmd (t : Tile) (id : Nat) (h : CeCmd → CeCmd) : Tile :=
  { t with ce := { t.ce with cmds := t.ce.cmds.map fun m => if m.id == id then h m else m } }

/-- No line of a command from i on moves; the first such stop raises its trap (R364, R375, R376). -/
def Tile.stopCmd (t : Tile) (id i : Nat) (r : Raise) : Tile :=
  let first := t.ce.cmds.any fun m => m.id == id && m.stop.isNone
  let t := t.onCmd id fun m => { m with stop := some (match m.stop with
    | some j => min i j
    | none => i) }
  if first then t.addRaise r else t

/-- One more line of a command is bound: when it performs and when it ends (R365). -/
def Tile.boundLine (t : Tile) (id perf fin : Nat) : Tile :=
  t.onCmd id fun m =>
    let m := { m with left := m.left - 1, perf := max m.perf perf, fin := max m.fin fin }
    if m.left = 0 then { m with e := some m.fin } else m

/-- The marks that a copy carries, by 8-byte word of the destination from its first on (R367, R476). -/
def Tile.copyMarks (t : Tile) (src n dst : Nat) : Nat :=
  if (t.badWord src n).isNone then 0
  else ((wordsOf dst n).zipIdx).foldl (fun m p =>
    let lo := max dst (8 * p.1)
    let hi := min (dst + n) (8 * p.1 + 8)
    if (t.badWord (src + (lo - dst)) (hi - lo)).isSome then m + 2 ^ p.2 else m) 0

/-- Cycles from a slot's start to the end of its transfer (R128, R130). -/
def slotTime (t : Tile) (pa : Nat) : Nat := if inHostWindow pa then t.csr.hlat else 240

/-- Sends a line's flit (R364, R390): it may move in the next cycle. -/
def Tile.sendFlit (t : Tile) (c : Ctx) (targets : List (Nat × Nat)) (pay : Payload) : Tile :=
  let f : Flit := { srcX := c.fx, srcY := c.fy, tgts := targets, born := c.k + 1, pay := pay, bad := false }
  { t with net := { t.net with router := { t.net.router with inj := t.net.router.inj ++ [f] } } }

/-- Adds a line under way. -/
def Tile.addLine (t : Tile) (l : CeLine) : Tile := { t with ce := { t.ce with lines := t.ce.lines ++ [l] } }

/-- A line on the mesh: its data are read now (R364, R372). -/
def Tile.meshLine (t : Tile) (c : Ctx) (m : CeCmd) (i land off len data poison : Nat) (targets : List (Nat × Nat)) : Tile :=
  (t.addLine { cmd := m.id, idx := i, route := .mesh, start := c.k, land := land, pa := 0, off := off, len := len
               data := data, poison := poison, targets := targets, got := [], outside := none }).sendFlit c targets (.line m.id i)

/-- A request to a virtual address: bound now to a slot (R363). -/
def Tile.slotLine (t : Tile) (c : Ctx) (m : CeCmd) (i : Nat) (route : Route) (pa off len data poison : Nat) : Nat × Tile :=
  let b := t.bindSlot c (chanOf c.place pa) c.k
  (b.1, b.2.addLine { cmd := m.id, idx := i, route := route, start := b.1, land := b.1 + slotTime t pa, pa := pa, off := off
                      len := len, data := data, poison := poison, targets := [(c.fx, c.fy)], got := [], outside := none })

/-- The request of a plain line (R362-R364); a source on chip is read now. -/
def Tile.startLine (t : Tile) (c : Ctx) (m : CeCmd) (i : Nat) (r : LineReq) : Tile :=
  let t := if r.srcVa.isNone then t.corrects r.src r.len else t
  match r.srcVa, r.dstVa with
  | some va, _ =>
    let pa := t.physOf va
    let b := t.slotLine c m i .read pa r.dst r.len 0 0
    b.2.boundLine m.id (b.1 + slotTime t pa) (b.1 + slotTime t pa)
  | none, some va =>
    let pa := t.physOf va
    let b := t.slotLine c m i .write pa 0 64 (t.bytes r.src 64) (t.copyMarks r.src 64 0)
    b.2.boundLine m.id b.1 (b.1 + slotTime t pa)
  | none, none =>
    t.meshLine c m i (m.issue + dLat m.desc + i) r.dst r.len (t.bytes r.src r.len) (t.copyMarks r.src r.len r.dst) r.targets

/-- The request of a line of CPYSF (R376): a marked source word stops the command. -/
def Tile.sfRequest (t : Tile) (c : Ctx) (m : CeCmd) (i : Nat) : Tile :=
  let off := winOff (dSrc m.desc) + 64 * i
  let n := min 64 ((dLen m.desc + 1) / 2 - 64 * i)
  match t.badWord off n with
  | some w => t.stopCmd m.id i (raiseEnd 80 (8 * w) 0)
  | none => (t.corrects off n).meshLine c m i (m.issue + dLat m.desc) 0 n (t.bytes off n) 0 m.targets

/-- Changes the block copy of a command. -/
def Tile.onBlock (t : Tile) (id : Nat) (h : BlockCopy → BlockCopy) : Tile :=
  t.onCmd id fun m => match m.kind with
    | .block b => { m with kind := .block (h b) }
    | _ => m

/-- The marks of a transposed payload: a word is marked when it takes an element from a marked word (R367, R374). -/
def transposeMarks (w marks : Nat) : Nat :=
  if marks = 0 then 0
  else (List.range (16 * w)).foldl (fun m j =>
    let first := 64 * j / w
    let count := (64 * j + 63) / w + 1 - first
    if (List.range count).any fun x =>
        let k := first + x
        let p := w * (k % 32 * 32 + k / 32)
        (List.range ((p + w - 1) / 64 + 1 - p / 64)).any fun y => marks.testBit (p / 64 + y)
    then m + 2 ^ j else m) 0

/-- A whole block as read: header, payload, trailer lines with the marks of their words. -/
def gather (l : List (Nat × Nat × Nat)) : Nat × Nat :=
  l.foldr (fun x v => (x.2.1 + v.1 * 2 ^ 512, x.2.2 + v.2 * 2 ^ 8)) (0, 0)

/-- A block as it is written: the faults found, and the whole of it with its marks (R207, R210, R217-R219, R373, R374). A header
fault stops neither the transposition nor the generation. Where the header names no block format, or another size than at
issue, the block has no payload or trailer that the copy knows: it is delivered as read (log 22). -/
def blockOut (b : BlockAt) (gv : Option Nat) (transpose : Bool) (v marks : Nat) : List Nat × Nat × Nat :=
  let hdr := bitsAt v 0 512
  let tp := 512 * (b.lines - 1)
  let trailer := bitsAt v tp 512
  let f := hdrFmt hdr
  if !inB f then ([22], v, marks)
  else if blockBytes f != 64 * b.lines then (if hdrBad hdr none then [22] else [], v, marks)
  else
    let torn := hdrGen hdr != trailer % 16
    let w := elemBits f
    let x := if transpose then
        (transposeHdr hdr + transposePay w (bitsAt v 512 (1024 * w)) * 2 ^ 512 + trailer * 2 ^ tp,
         (bitsAt marks 0 1 + bitsAt marks 2 1 * 2 + bitsAt marks 1 1 * 4 + bitsAt marks 3 5 * 8)
         + transposeMarks w (bitsAt marks 8 (16 * w)) * 2 ^ 8 + bitsAt marks (8 * (b.lines - 1)) 8 * 2 ^ (8 * (b.lines - 1)))
      else (v, marks)
    let faults := (if hdrBad hdr none || trailer / 16 != 0 then [22] else []) ++ if torn then [72] else []
    match torn, gv with
    | false, some g => (faults, putBits (putBits x.1 17 4 g) tp 4 g, x.2)
    | _, _ => (faults, x.1, x.2)

/-- The lines of a block in writer order (R216). -/
def writerOrder (n : Nat) : List Nat := if n < 2 then [0] else (n - 1) :: ((List.range (n - 2)).map (· + 1)) ++ [0]

/-- Writes out a block whose trailer has arrived (R373). -/
def Tile.writeBlock (t : Tile) (c : Ctx) (m : CeCmd) (bc : BlockCopy) (b : BlockAt) : Tile :=
  let lines := (List.range b.lines).map fun j => (bc.buf.find? fun x => x.1 == b.first + j).getD (0, 0, 0)
  let g := gather lines
  let r := blockOut b (if dGv m.desc then some (dGen m.desc) else none) bc.transpose g.1 g.2
  let t := t.onBlock m.id fun bc => { bc with buf := bc.buf.filter fun x => decide (x.1 < b.first) || decide (b.first + b.lines ≤ x.1) }
  let t := t.onCmd m.id fun m => { m with fault := m.fault ++ r.1.map fun x => (x, b.addr) }
  ((writerOrder b.lines).zipIdx).foldl (fun t p =>
    let data := bitsAt r.2.1 (512 * p.1) 512
    let marks := bitsAt r.2.2 (8 * p.1) 8
    let at_ := b.first + p.1
    if bc.virtDst then t.onBlock m.id fun bc => { bc with wq := bc.wq ++ [(t.physOf (dDst m.desc + 64 * at_), data, marks, c.k + 1)] }
    else t.meshLine c m (b.first + p.2) (m.issue + dLat m.desc + b.first + p.2) (winOff (dDst m.desc) + 64 * at_) 64 data marks m.targets) t

/-- A line of a block copy has been read; the trailer's arrival writes the block (R373). -/
def Tile.blockLine (t : Tile) (c : Ctx) (id i data marks : Nat) : Tile :=
  let t := t.onBlock id fun bc => { bc with buf := bc.buf ++ [(i, data, marks)] }
  match t.ce.cmds.find? fun m => m.id == id with
  | none => t
  | some m =>
    match m.kind with
    | .block bc =>
      match bc.blocks.find? fun b => b.first + b.lines == i + 1 with
      | some b => t.writeBlock c m bc b
      | none => t
    | _ => t

/-- The next chained write of a block copy, when it is ready (R373). -/
def Tile.chainWrite (t : Tile) (c : Ctx) (id : Nat) : Tile :=
  match t.ce.cmds.find? fun m => m.id == id with
  | none => t
  | some m =>
    match m.kind with
    | .block bc =>
      match bc.wq with
      | [] => t
      | x :: r =>
        if max x.2.2.2 bc.wnext ≤ c.k then
          let b := t.slotLine c m 0 .write x.1 0 64 x.2.1 x.2.2.1
          (b.2.boundLine id b.1 (b.1 + slotTime t x.1)).onBlock id fun bc => { bc with wq := r, wnext := b.1 + 1 }
        else t
    | _ => t

/-- The requests of a block copy in this cycle (R362, R373). -/
def Tile.blockRequest (t : Tile) (c : Ctx) (m : CeCmd) (bc : BlockCopy) : Tile :=
  let t :=
    if bc.virtSrc then
      (match bc.rnext with
        | some (i, ready) =>
          if ready = c.k then
            let b := t.slotLine c m i .blockRead (t.physOf (dSrc m.desc + 64 * i)) 0 64 0 0
            b.2.onBlock m.id fun bc => { bc with rnext := if i + 1 < m.total then some (i + 1, b.1 + 1) else none }
          else t
        | none => t)
    else if m.q0 ≤ c.k ∧ c.k < m.q0 + m.total then
      let i := c.k - m.q0
      let off := winOff (dSrc m.desc) + 64 * i
      (t.corrects off 64).blockLine c m.id i (t.bytes off 64) (t.copyMarks off 64 0)
    else t
  t.chainWrite c m.id

/-- The trap of a line that fails its check at the end of its q_i (R375). Cause 66 names the command's queue and its issue cycle too
(R418, log 111). -/
def CeCmd.lineRaise (m : CeCmd) (x : CeFault) : Raise :=
  if x.1 = 66 then raiseNamed 66 m.line m.lane (queueNum .ce) (x.2.getD 0) m.issue else endRaise x

/-- The requests of a copy command in this cycle (R362). -/
def Tile.copyRequest (t : Tile) (c : Ctx) (m : CeCmd) : Tile :=
  match m.kind with
  | .plain =>
    let i := c.k - m.q0
    let stopped := match m.stop with
      | some j => decide (j ≤ i)
      | none => false
    if decide (c.k < m.q0) || decide (m.total ≤ i) || stopped then t
    else if m.fn = 6 then t.sfRequest c m i
    else match t.lineReq c m i with
      | .error x => t.stopCmd m.id i (m.lineRaise x)
      | .ok r => t.startLine c m i r
  | .block bc => t.blockRequest c m bc
  | _ => t

/-- Writes a line with its marks and form (R281, R367, R372, R477). -/
def Tile.landLine (t : Tile) (off len data poison form : Nat) : Tile :=
  let t := t.store off len data
  let t := if 0x100000 ≤ off ∧ off < 0x140000 then
      let l := (off - 0x100000) / 256
      { t with stores := t.stores.setForms l ((off - 0x100000 + len - 1) / 256 + 1 - l) form }
    else t
  if poison = 0 then t
  else ((wordsOf off len).zipIdx).foldl (fun t p => if poison.testBit p.2 then t.poisonWord p.1 else t) t

/-- The form that a command's lines take in WBUF (R369, R374). -/
def CeCmd.form (m : CeCmd) : Nat := if isBlock m.fn m.mod then 3 else if m.fn = 9 ∨ m.fn = 12 then 0 else dForm m.desc

end Sys2Proof.Machine
end

