-- ==== Sys2Proof/Machine/Crypto.lean ====
section
/-! DEFINITION. SHAKE256 with a 64-byte digest, as FIPS 202 defines it (R384, R449, R484; log 8). -/

namespace Sys2Proof.Machine

/-- A lane of the sponge's state. -/
def kLane (a : List Dword) (x y : Nat) : Dword := a.getD (x % 5 + 5 * (y % 5)) 0

/-- Rotation offsets of the lanes x + 5y. -/
def kRot : List Nat :=
  [0, 1, 62, 28, 27, 36, 44, 6, 55, 20, 3, 10, 43, 25, 39, 41, 45, 15, 21, 8, 18, 2, 61, 56, 14]

/-- Round constants. -/
def kRc : List Dword :=
  [0x0000000000000001, 0x0000000000008082, 0x800000000000808A, 0x8000000080008000, 0x000000000000808B
  , 0x0000000080000001, 0x8000000080008081, 0x8000000000008009, 0x000000000000008A, 0x0000000000000088
  , 0x0000000080008009, 0x000000008000000A] ++
  [0x000000008000808B, 0x800000000000008B, 0x8000000000008089, 0x8000000000008003, 0x8000000000008002
  , 0x8000000000000080, 0x000000000000800A, 0x800000008000000A, 0x8000000080008081, 0x8000000000008080
  , 0x0000000080000001, 0x8000000080008008]

/-- One round of the permutation. -/
def kRound (a : List Dword) (rc : Dword) : List Dword :=
  let c := (List.range 5).map fun x => kLane a x 0 ^^^ kLane a x 1 ^^^ kLane a x 2 ^^^ kLane a x 3 ^^^ kLane a x 4
  let d := (List.range 5).map fun x => c.getD ((x + 4) % 5) 0 ^^^ (c.getD ((x + 1) % 5) 0).rotateLeft 1
  let t := (List.range 25).map fun i => (a.getD i 0 ^^^ d.getD (i % 5) 0).rotateLeft (kRot.getD i 0)
  let b := (List.range 25).map fun i => kLane t (i % 5 + 3 * (i / 5)) (i % 5)
  (List.range 25).map fun i =>
    let x := i % 5
    let y := i / 5
    let v := kLane b x y ^^^ (~~~(kLane b (x + 1) y) &&& kLane b (x + 2) y)
    if i = 0 then v ^^^ rc else v

/-- The permutation of the sponge. -/
def keccak (a : List Dword) : List Dword := kRc.foldl kRound a

/-- A block of 136 bytes absorbed. -/
def kAbsorb (a : List Dword) (block : Nat) : List Dword :=
  keccak ((List.range 25).map fun i => if i < 17 then a.getD i 0 ^^^ BitVec.ofNat 64 (block >>> (64 * i)) else a.getD i 0)

/-- Absorbs n bytes of a little-endian value, block by block, with the padding of SHAKE256 in the last block. -/
def kSponge (a : List Dword) (v n : Nat) (fuel : Nat) : List Dword :=
  match fuel with
  | 0 => a
  | fuel + 1 =>
    if n < 136 then kAbsorb a (v % 2 ^ (8 * n) + 0x1F * 2 ^ (8 * n) + 2 ^ 1087)
    else kSponge (kAbsorb a (v % 2 ^ 1088)) (v / 2 ^ 1088) (n - 136) fuel

/-- The 64-byte digest of n bytes of a little-endian value, as a little-endian value. -/
def shake256 (v n : Nat) : Nat :=
  let a := kSponge (List.replicate 25 0) v n (n / 136 + 1)
  (List.range 8).foldl (fun x i => x + (a.getD i 0).toNat * 2 ^ (64 * i)) 0

end Sys2Proof.Machine
end

