-- ==== Sys2Proof/Machine/Inkwell.lean ====
section
/-! DEFINITION. Inkwell commands (R383-R388): the packet and its checks, the order of requests, the values an Inkwell
computes, failing lines, and the status word. -/

namespace Sys2Proof.Machine

/-- Fields of the packet (R383). -/
def ikOp (d : Nat) : Nat := bitsAt d 0 8
def ikFmt (d : Nat) : Nat := bitsAt d 8 8
def ikMode (d : Nat) : Nat := bitsAt d 16 8
def ikAux (d : Nat) : Nat := bitsAt d 24 8
def ikN (d : Nat) : Nat := bitsAt d 32 32
def ikA (d : Nat) : Nat := 64 * bitsAt d 64 48
def ikB (d : Nat) : Nat := 64 * bitsAt d 112 48
def ikAlpha (d : Nat) : Nat := bitsAt d 160 32
def ikBeta (d : Nat) : Nat := bitsAt d 192 32
def ikSt (d : Nat) : Nat := 16 * bitsAt d 224 16
def ikMu (d : Nat) : Nat := bitsAt d 240 16

/-- Plain source lines of a block (R384). -/
def ikPlain (d : Nat) : Nat := if ikAux d / 16 = 2 then 64 else 32

/-- Lines of a block that RQNT writes (R203). -/
def ikBlock (d : Nat) : Nat := blockBytes (ikFmt d) / 64

/-- The checks of R383 on the packet's own fields. -/
def ikBad (d : Nat) : Bool :=
  let op := ikOp d
  decide (op < 1) || decide (7 < op) || decide (16 ≤ ikMode d) || decide (4 < ikMode d % 8) || ikN d == 0
  || decide (2 ^ 20 < ikN d)
  || (if op = 6 then !(inB (ikFmt d) && decide (ikFmt d < 16)) || decide (ikAux d / 16 < 2) || decide (4 < ikAux d / 16)
      else ikAux d != 0 || (op != 2 && op != 7 && (decide (ikFmt d < 2) || decide (4 < ikFmt d))))

/-- Operand extents: address, bytes, written (R384). -/
def ikOperands (d : Nat) : List (Nat × Nat × Bool) :=
  let n := ikN d
  let a := ikA d
  let b := ikB d
  match ikOp d with
  | 1 => [(a, 64 * n, true)]
  | 5 => [(a, 64 * n, true), (a + 64 * n, 64 * n, true), (b, 64 * n, false)]
  | 6 => [(b, 64 * n * ikPlain d, false), (a, 64 * n * ikBlock d, true)]
  | 7 => [(a, 64 * n, false), (b, 64, true)]
  | _ => [(a, 64 * n, true), (b, 64 * n, false)]

/-- The checks of an INKC at issue (R20, R363, R366, R383). With a field out of its limits the operands' first lines are checked
(log 39). -/
def Tile.ikFaults (t : Tile) (c : Ctx) (d : Nat) : List CeFault :=
  let bad := ikBad d
  (if bad then [(76, none)] else [])
  ++ (if 0xF8000 < ikSt d + 8 then [(45, some (ikSt d))] else [])
  ++ ((if 1 ≤ ikOp d ∧ ikOp d ≤ 7 then ikOperands d else []).map fun x => (x.1, if bad then 64 else x.2.1, x.2.2)).flatMap fun x =>
    (t.pageFaults c x.1 x.2.1 x.2.2).filter (fun y => y.1 != 52)
    ++ (if (t.segments x.1 x.2.1 34).any fun y => (y.2.2.map fun w => w.host || inHostWindow w.pa).getD false then [(76, none)] else [])

/-- The bytes by which R311 orders an INKC: its status word, and the lines that it reads or writes. -/
def Tile.ikExts (t : Tile) (c : Ctx) (d : Nat) : List Extent :=
  { place := placeOf c (c.fx, c.fy), first := ikSt d, len := 8 }
  :: (ikOperands d).flatMap fun x => (t.virtExt x.1 x.2.1 false).map fun e => { e with lane := true }

/-- Items of a command: line indices, blocks, or the one digest (R384). -/
def ikItems (d : Nat) : Nat := if ikOp d = 7 then 1 else ikN d

/-- The virtual addresses that an item reads, in request order (R384, R385). -/
def ikReads (d item : Nat) : List Nat :=
  let a := ikA d + 64 * item
  let b := ikB d + 64 * item
  match ikOp d with
  | 1 => []
  | 2 => [b]
  | 5 => [a, a + 64 * ikN d, b]
  | 6 => (List.range (ikPlain d)).map fun i => ikB d + 64 * (ikPlain d * item + i)
  | 7 => (List.range (ikN d)).map fun i => ikA d + 64 * i
  | _ => [a, b]

/-- The virtual addresses that an item writes, in order (R216, R384, R385). -/
def ikWrites (d item : Nat) : List Nat :=
  let a := ikA d + 64 * item
  match ikOp d with
  | 5 => [a + 64 * ikN d, a]
  | 6 => (writerOrder (ikBlock d)).map fun j => ikA d + 64 * (ikBlock d * item + j)
  | 7 => [ikB d]
  | _ => [a]

/-- Requests of an item that the command's issue gives their cycles in the request stage (R362, R401): its reads, or FILL's one
write. The writes of another op pass the stage once they are ready (R385). -/
def ikRequests (d : Nat) : Nat :=
  match ikOp d with
  | 1 => 1 | 2 => 1 | 5 => 3 | 6 => ikPlain d | 7 => ikN d | _ => 2

/-- The exact sum of two values (R187); none is an invalid operation. -/
def numAdd (rm : Nat) (a b : Option Num) : Option Num :=
  match a, b with
  | some .nan, _ => some .nan
  | _, some .nan => some .nan
  | none, _ => none
  | _, none => none
  | some (.inf s), some (.inf t) => if s == t then some (.inf s) else none
  | some (.inf s), some (.fin ..) => some (.inf s)
  | some (.fin ..), some (.inf t) => some (.inf t)
  | some (.fin s m e), some (.fin t n g) =>
    let r := addTerm (addTerm (0, 0) (.fin s m e)) (.fin t n g)
    if r.1 = 0 then
      let neg := if m = 0 ∧ n = 0 ∧ s = t then s else rm == 3
      some (.fin neg 0 0)
    else some (.fin (decide (r.1 < 0)) r.1.natAbs r.2)

/-- A product of values that may be invalid. -/
def numMul (a b : Option Num) : Option Num :=
  match a, b with
  | some .nan, _ => some .nan
  | _, some .nan => some .nan
  | some x, some y => x.mul y
  | _, _ => none

/-- The element format's value of element i of a line. -/
def lineElem (f line i : Nat) : Num := numLane f line i

/-- The lines that an item writes and the events of computing them (R384). -/
def ikOut (d : Nat) (data : List Nat) : List Nat × List (Nat × Nat) :=
  let f := ikFmt d
  let r : Rnd := ⟨ikMode d % 8, decide (8 ≤ ikMode d)⟩
  let al := some (decodeElem 2 (ikAlpha d))
  let be := some (decodeElem 2 (ikBeta d))
  let x := data.getD 0 0
  let lanes (g : Nat → Rounded) : Nat × List (Nat × Nat) := packRounded (elemBits f) ((List.range (512 / elemBits f)).map g)
  let sgd (a b : Num) : Rounded :=
    accumulate f r 0 false false [some a, (numMul al (numAdd r.rm (some b) (numMul be (some a)))).map Num.neg]
  match ikOp d with
  | 1 => let y := lanes fun _ => accumulate f r 0 false false [al]; ([y.1], y.2)
  | 2 => ([x], [])
  | 3 =>
    let y := lanes fun i => accumulate f r 0 false false
      [numMul al (some (lineElem f (data.getD 1 0) i)), numMul be (some (lineElem f x i))]
    ([y.1], y.2)
  | 4 => let y := lanes fun i => sgd (lineElem f x i) (lineElem f (data.getD 1 0) i); ([y.1], y.2)
  | 5 =>
    let mu := some (decodeElem 3 (ikMu d))
    let m := lanes fun i => accumulate f r 0 false false
      [numMul mu (some (lineElem f (data.getD 1 0) i)), some (lineElem f (data.getD 2 0) i)]
    let y := lanes fun i => sgd (lineElem f x i) (lineElem f m.1 i)
    ([m.1, y.1], sumEv m.2 y.2)
  | 6 =>
    let sf := ikAux d / 16
    let g := ikAux d % 16
    let v := packLanes 512 data
    let q := quantise f g r.rm (fun _ => 0) fun i j => numLane sf v (32 * i + j)
    let blk := q.1 + q.2.1 * 2 ^ 512 + g * 2 ^ (512 * (ikBlock d - 1))
    ((writerOrder (ikBlock d)).map fun j => bitsAt blk (512 * j) 512, q.2.2)
  | _ => ([shake256 (packLanes 512 data) (64 * data.length)], [])

/-- INKC (R383). -/
def execInkc (o : CopyOp) (s : State) : Host.Outcome State Fault Refusal :=
  issue (fun _ => ceInfo (Instr.inkc o).cause o 1 true false) (ceHold o fun c t => t.ikExts c (t.desc o))
    (fun c t =>
      let d := t.desc o
      match lowestFault (t.ikFaults c d) with
      | some x => .error (c.ceRaise x)
      | none =>
        let total := ikItems d * ikRequests d
        let m := { newCmd t c o 10 d total with
          exts := t.ikExts c d
          kind := .ink { items := [], fail := none, lastRead := none, lastWrite := none, ev := [] } }
        .ok (t.addCmd m total)) s

/-- INKF (R388): it holds until the status word of every earlier INKC of its class has landed. -/
def execInkf (o : CopyOp) (s : State) : Host.Outcome State Fault Refusal :=
  issue (fun _ => ceInfo (Instr.inkf o).cause o 1 false false)
    (fun c t => match ceHold o (fun _ _ => []) c t with
      | some h => some h
      | none =>
        if t.ce.cmds.any fun m => m.fn == 10 && m.cls == c.cls o.ocl.toNat && decide (m.issue < c.k) && !m.completed c.k
        then some .order else none)
    (fun _ t => .ok t) s

/-- Changes the Inkwell command of a command. -/
def Tile.onInk (t : Tile) (id : Nat) (h : Ink → Ink) : Tile :=
  t.onCmd id fun m => match m.kind with
    | .ink i => { m with kind := .ink (h i) }
    | _ => m

/-- The first item that is not written (R387): a digest has one item, whatever line failed. -/
def ikLimit (d : Nat) (i : Ink) : Nat :=
  match i.fail with
  | none => ikItems d
  | some x => if ikOp d = 7 then 0 else x.1

/-- A line fails (R387): the earliest failing one counts. -/
def Ink.failAt (i : Ink) (line result : Nat) : Ink :=
  match i.fail with
  | some x => if line < x.1 then { i with fail := some (line, result) } else i
  | none => { i with fail := some (line, result) }

/-- Whether the lines that share an index lie on several channels (R385). -/
def Tile.ikMixed (t : Tile) (d item : Nat) : Bool :=
  let l := (if ikOp d = 7 then [ikA d] else ikReads d item) ++ ikWrites d item
  match l.map fun a => chanNum (t.physOf a) with
  | [] => false
  | x :: r => r.any fun y => y != x

/-- Requests a line of an item: its slot is bound now (R363, R385). off holds which of the item's lines it is. -/
def Tile.inkLine (t : Tile) (c : Ctx) (m : CeCmd) (item which va : Nat) (route : Route) : Tile :=
  (t.slotLine c m item route (t.physOf va) which 64 0 0).2

/-- The next write of each item of an Inkwell command that is ready by cycle k (R385): its ready cycle, the command and the item. A
line that fails stops every later one (R387): where another channel serves an earlier item later, its reads come first (log 55). -/
def CeCmd.inkReady (m : CeCmd) (k : Nat) : List (Nat × CeCmd × InkItem) :=
  match m.kind with
  | .ink i =>
    if ikOp m.desc = 1 then []
    else (i.items.filter fun x => x.left == 0 && decide (x.sent < (ikWrites m.desc x.item).length) && decide (x.latest + 16 ≤ k)
        && decide (x.item < ikLimit m.desc i) && !(i.items.any fun y => decide (y.item < x.item) && y.left != 0)).map fun x =>
      (x.latest + 16, m, x)
  | _ => []

/-- Requests that a command's issue has given their cycles (R362). -/
def CeCmd.requests (m : CeCmd) : Nat :=
  match m.kind with
  | .coll _ => (bitsAt m.desc 128 16 * elemBits (bitsAt m.desc 160 4) / 8 + 63) / 64
  | _ => m.total

/-- Whether the request stage sends a request of some command in cycle k (R362). -/
def Tile.stageBusy (t : Tile) (k : Nat) : Bool := t.ce.cmds.any fun m => decide (m.q0 ≤ k) && decide (k < m.q0 + m.requests)

/-- The write of an Inkwell that passes the request stage in this cycle, when no other request does (R362, R385): the one that has
been ready longest, in the order of the commands and their lines (log 55). -/
def Tile.inkWriteRequest (t : Tile) (c : Ctx) : Tile :=
  if t.stageBusy c.k then t
  else
    match (t.ce.cmds.flatMap fun m => m.inkReady c.k).foldl (fun b x => match b with
      | none => some x
      | some (y : Nat × CeCmd × InkItem) => if x.1 < y.1 then some x else some y) none with
    | none => t
    | some (_, m, x) =>
      let t := t.inkLine c m x.item x.sent ((ikWrites m.desc x.item).getD x.sent 0) .inkWrite
      let t := t.onInk m.id fun i => { i with items := i.items.map fun y => if y.item == x.item then { y with sent := y.sent + 1 } else y }
      { t with ce := { t.ce with lastReq := max t.ce.lastReq (c.k + 1) } }

/-- The request that an Inkwell command sends in this cycle (R362, R385). -/
def Tile.inkReadRequest (t : Tile) (c : Ctx) (m : CeCmd) (i : Ink) : Tile :=
  let r := ikRequests m.desc
  if c.k < m.q0 ∨ m.q0 + m.total ≤ c.k then t
  else
    let x := c.k - m.q0
    let item := x / r
    if ikLimit m.desc i ≤ item then t
    else if x % r = 0 ∧ t.ikMixed m.desc item then t.onInk m.id fun i => i.failAt item 3
    else
      let reads := ikReads m.desc item
      let t := if x % r = 0 then
          t.onInk m.id fun i => { i with items := i.items ++ [{ item := item, got := [], latest := c.k, left := reads.length }] }
        else t
      if reads.isEmpty then ((ikWrites m.desc item).zipIdx).foldl (fun t p => t.inkLine c m item p.2 p.1 .inkWrite) t
      else t.inkLine c m item (x % r) (reads.getD (x % r) 0) .inkRead

/-- The end of a command (R386): with every write performed, the status word's landing cycle is known. -/
def Tile.inkFinish (t : Tile) (k : Nat) (m : CeCmd) : Tile :=
  match m.kind with
  | .ink i =>
    let lim := ikLimit m.desc i
    if m.e.isNone && decide (m.q0 + lim * ikRequests m.desc ≤ k + 1) && (i.items.all fun x => decide (lim ≤ x.item)) then
      let e := match i.lastWrite, i.lastRead with
        | none, none => k + 1
        | some w, none => w + 241
        | none, some r => r + 241
        | some w, some r => max w r + 241
      t.onCmd m.id fun m => { m with e := some e, perf := e, fin := e }
    else t
  | _ => t

/-- The request of an Inkwell command that its issue gave this cycle. -/
def Tile.inkRequest (t : Tile) (c : Ctx) (m : CeCmd) : Tile :=
  match m.kind with
  | .ink i => t.inkReadRequest c m i
  | _ => t

/-- The status word (R386). -/
def ikStatus (d : Nat) (i : Ink) : Nat :=
  2 ^ 63 + (match i.fail with
    | some x => x.1 * 2 ^ 32 + x.2
    | none => ikN d * 2 ^ 32) + (i.ev.eraseDups.map fun c => 2 ^ (8 + c)).sum

/-- A read of an Inkwell lane performs (R384, R387): a poisoned line stops the command. -/
def Tile.inkGot (t : Tile) (l : CeLine) (data : Nat) (poison : Bool) : Tile :=
  t.onCmd l.cmd fun m => match m.kind with
    | .ink i =>
      if ikLimit m.desc i ≤ l.idx then m
      else
        let i := { i with lastRead := some (max l.start (i.lastRead.getD 0)) }
        if poison then { m with kind := .ink (i.failAt (if ikOp m.desc = 7 then l.off else l.idx) 1) }
        else { m with kind := .ink { i with items := i.items.map fun x =>
          if x.item == l.idx then { x with got := x.got ++ [(l.off, data)], latest := max x.latest l.start, left := x.left - 1 }
          else x } }
    | _ => m

/-- The data of an item in request order. -/
def InkItem.data (x : InkItem) : List Nat :=
  (List.range x.got.length).map fun i => ((x.got.find? fun p => p.1 == i).map Prod.snd).getD 0

/-- The line that a bound write of an Inkwell stores, when its item is still to be written (R384, R387), with the events
of the item and whether it is the item's last. -/
def CeCmd.inkStore (m : CeCmd) (l : CeLine) : Option (Nat × List Nat × Bool) :=
  match m.kind with
  | .ink i =>
    if ikLimit m.desc i ≤ l.idx then none
    else (i.items.find? fun x => x.item == l.idx).map fun x =>
      let r := ikOut m.desc x.data
      (r.1.getD l.off 0, r.2.map Prod.fst, l.off + 1 == (ikWrites m.desc l.idx).length)
  | _ => none

/-- An Inkwell write has performed. -/
def Tile.inkWrote (t : Tile) (l : CeLine) (ev : List Nat) (last : Bool) : Tile :=
  t.onInk l.cmd fun i =>
    { i with lastWrite := some (max l.start (i.lastWrite.getD 0)), ev := (i.ev ++ ev).eraseDups
             items := if last then i.items.filter fun x => x.item != l.idx else i.items }

end Sys2Proof.Machine
end

