-- ==== Sys2Proof/Machine/Collect.lean ====
section
/-! DEFINITION. Collectives (R381, R382): COLL's checks, each member's share, the reduction and the landing; and the
requests that the copy engine sends in a cycle (R362). -/

namespace Sys2Proof.Machine

/-- Fields of COLL's descriptor (R381). -/
def clFx0 (d : Nat) : Nat := bitsAt d 192 8
def clFx1 (d : Nat) : Nat := bitsAt d 200 8
def clFy0 (d : Nat) : Nat := bitsAt d 208 8
def clFy1 (d : Nat) : Nat := bitsAt d 216 8
def clPk0 (d : Nat) : Nat := bitsAt d 224 16
def clPk1 (d : Nat) : Nat := bitsAt d 240 16
def clOp (d : Nat) : Nat := bitsAt d 164 4
def clEf (d : Nat) : Nat := bitsAt d 160 4

/-- Bytes of a member's vector. -/
def clBytes (d : Nat) : Nat := dLen d * elemBits (clEf d) / 8

/-- Lines of a member's contribution. -/
def clLines (d : Nat) : Nat := (clBytes d + 63) / 64

/-- What the members' COLLs must share (R381): op, ef, count and group. -/
def clKey (d : Nat) : Nat := bitsAt d 192 64 * 2 ^ 24 + bitsAt d 160 8 * 2 ^ 16 + dLen d

/-- Whether a tile lies in the rectangle of a group, as the members' key holds it (R381). -/
def keyHas (key : Nat) (p : Nat × Nat) : Bool :=
  decide (bitsAt key 24 8 ≤ p.1) && decide (p.1 ≤ bitsAt key 32 8) && decide (bitsAt key 40 8 ≤ p.2) && decide (p.2 ≤ bitsAt key 48 8)

/-- The checks of a COLL at issue (R381, R509); its addresses are checked beside its other fields (R20, R461). -/
def collFaults (c : Ctx) (d : Nat) : List CeFault :=
  let pk := c.launch.lpkg.toNat
  (if bitsAt d 168 24 != 0 || decide (2 < clOp d) || decide (4 < clEf d) || dLen d == 0 || decide (16384 < dLen d)
      || decide (65536 < clBytes d) || dLat d == 0 || decide (c.fx < clFx0 d) || decide (clFx1 d < c.fx) || decide (c.fy < clFy0 d)
      || decide (clFy1 d < c.fy) || decide (c.place.w ≤ clFx1 d) || decide (c.place.h ≤ clFy1 d) || decide (pk < clPk0 d)
      || decide (clPk1 d < pk)
      || ((List.range (clPk1 d + 1 - clPk0 d)).any fun i => !c.reach.contains (clPk0 d + i))
  then [(75, none)] else [])
  ++ (if inStores [spadRange] (dSrc d) (clBytes d) then [] else [(45, some (dSrc d))])
  ++ (if inStores [spadRange] (dDst d) (clBytes d) then [] else [(45, some (dDst d))])

/-- The bytes that a COLL touches. -/
def collExts (c : Ctx) (d : Nat) : List Extent :=
  let p := placeOf c (c.fx, c.fy)
  [{ place := p, first := dSrc d, len := clBytes d }, { place := p, first := dDst d, len := clBytes d }]

/-- COLL (R381). -/
def execColl (o : CopyOp) (s : State) : Host.Outcome State Fault Refusal :=
  issue (fun _ => ceInfo (Instr.coll o).cause o 2 true true) (ceHold o fun c t => collExts c (t.desc o))
    (fun c t =>
      let d := t.desc o
      match lowestFault (collFaults c d) with
      | some x => .error (c.ceRaise x)
      | none =>
        let land := c.k + dLat d
        let n := t.ce.collSeq
        let m := { newCmd t c o 9 d 1 with
          exts := collExts c d, perf := land, fin := land, e := some land, kind := .coll n }
        let sh : Share := { num := n, key := clKey d, issue := c.k, land := land, q0 := m.q0, dst := dDst d, data := 0
                            marks := [], read := false, rnd := c.rnd t, isat := c.sat, seed := t.csr.rseed }
        let t := t.addCmd m (clLines d)
        .ok { t with ce := { t.ce with collSeq := n + 1, shares := t.ce.shares ++ [sh] } }) s

/-- Elements of a vector whose bytes touch a marked word (R476). -/
def Tile.markedElems (t : Tile) (d : Nat) : List Nat :=
  if (t.badWord (dSrc d) (clBytes d)).isNone then []
  else
    let z := elemBits (clEf d) / 8
    (List.range (dLen d)).filter fun i => (t.badWord (dSrc d + z * i) z).isSome

/-- The members of a group in a folio, in ascending (fy, fx) (R381, R382). -/
def clMembers (d : Nat) : List (Nat × Nat) :=
  (List.range (clFy1 d + 1 - clFy0 d)).flatMap fun y => (List.range (clFx1 d + 1 - clFx0 d)).map fun x =>
    (clFx0 d + x, clFy0 d + y)

/-- A member's contribution is read at its q_0 (R382). -/
def Tile.collTake (t : Tile) (m : CeCmd) (n : Nat) : Tile :=
  let t := t.corrects (dSrc m.desc) (clBytes m.desc)
  { t with ce := { t.ce with shares := t.ce.shares.map fun sh =>
    if sh.num == n then { sh with data := t.bytes (dSrc m.desc) (clBytes m.desc), marks := t.markedElems m.desc, read := true }
    else sh } }

/-- The requests of a COLL (R362, R382): its contribution is read at q_0, and a line of it leaves in each request cycle as one
flit for every other member of the folio (R122, R132, log 23). -/
def Tile.collRead (t : Tile) (c : Ctx) (m : CeCmd) (n : Nat) : Tile :=
  let t := if m.q0 = c.k then t.collTake m n else t
  let others := (clMembers m.desc).filter fun p => p != (c.fx, c.fy)
  if c.k < m.q0 ∨ m.q0 + clLines m.desc ≤ c.k ∨ others.isEmpty then t
  else t.sendFlit c others (.share n (c.k - m.q0))

/-- The number under which a line of a contribution from another package arrives (R382), but for the key of its COLL. -/
def farId (folio num pkg fx fy line : Nat) : Nat :=
  ((((folio * 2 ^ 32 + num) * 2 ^ 16 + pkg) * 2 ^ 8 + fx) * 2 ^ 8 + fy) * 2 ^ 12 + line

/-- The parts of such a number: folio, number of the collective, sender's package, and above them the key that the members'
COLLs must share (R381). -/
def farFolio (id : Nat) : Nat := id / 2 ^ 76 % 2 ^ 12
def farNum (id : Nat) : Nat := id / 2 ^ 44 % 2 ^ 32
def farPkg (id : Nat) : Nat := id / 2 ^ 28 % 2 ^ 16
def farKey (id : Nat) : Nat := id / 2 ^ 88

/-- The numbers that a COLL awaits from other packages. -/
def farIds (folio own num d : Nat) : List Nat :=
  (List.range (clPk1 d + 1 - clPk0 d)).flatMap fun p =>
    if clPk0 d + p = own then []
    else (List.range (clFy1 d + 1 - clFy0 d)).flatMap fun y => (List.range (clFx1 d + 1 - clFx0 d)).flatMap fun x =>
      (List.range (clLines d)).map fun l => farId folio num (clPk0 d + p) (clFx0 d + x) (clFy0 d + y) l

/-- One element of the result from the members' elements in order (R382). -/
def reduceElem (op ef : Nat) (r : Rnd) (isat : Bool) (u : Nat) (l : List Nat) : Rounded :=
  if ef = 0 then
    let xs := l.map (toSigned 32)
    if op = 0 then fit xs.sum 32 true isat
    else (ofSigned 32 (xs.foldl (fun a b => if op = 1 then min a b else max a b) (xs.headD 0)), none)
  else if op = 0 then accumulate ef r u false false (l.map fun x => some (decodeElem ef x))
  else (match l with
    | [] => 0
    | x :: rest => rest.foldl (minMax ef (op == 2)) (minMax ef (op == 2) x x), none)

/-- A far member's contribution from its lines. -/
def farData (far : List FarPart) (folio num pkg fx fy n : Nat) : Nat × Nat :=
  (List.range ((n + 63) / 64)).foldl (fun v l =>
    match far.find? fun p => p.id % 2 ^ 88 == farId folio num pkg fx fy l with
    | some p => (v.1 + p.data * 2 ^ (512 * l), v.2 + p.poison * 2 ^ (8 * l))
    | none => v) (0, 0)

/-- Elements of z bytes that touch a marked word of a far contribution. -/
def farMarks (marks z count : Nat) : List Nat :=
  if marks = 0 then [] else (List.range count).filter fun i => marks.testBit (z * i / 8)

/-- The members' contributions in the order of R382: data and marked elements. -/
def Folio.contributions (f : Folio) (far : List FarPart) (num d : Nat) : List (Nat × List Nat) :=
  (List.range (clPk1 d + 1 - clPk0 d)).flatMap fun p =>
    (List.range (clFy1 d + 1 - clFy0 d)).flatMap fun y => (List.range (clFx1 d + 1 - clFx0 d)).map fun x =>
      let fx := clFx0 d + x
      let fy := clFy0 d + y
      if clPk0 d + p = f.launch.lpkg.toNat then
        match (f.tiles[f.tileAt fx fy]?).bind fun t => t.ce.shares.find? fun sh => sh.num == num with
        | some sh => (sh.data, sh.marks)
        | none => (0, [])
      else
        let v := farData far f.place.idx num (clPk0 d + p) fx fy (clBytes d)
        (v.1, farMarks v.2 (elemBits (clEf d) / 8) (dLen d))

/-- Whether a tile has still to issue, or to land, its COLL of a number (R382). -/
def Tile.awaitsColl (t : Tile) (num : Nat) : Bool :=
  decide (t.ce.collSeq ≤ num) || t.ce.cmds.any fun m => match m.kind with
    | .coll n => n == num
    | _ => false

/-- Whether a COLL of the collective's number differs from a member's (R381): that of a member of its group, of a tile whose group
holds the member, or one whose contribution has come from another package. -/
def Folio.collDiffers (f : Folio) (far : List FarPart) (fx fy : Nat) (sh : Share) : Bool :=
  (f.tiles.zipIdx.any fun p => p.1.ce.shares.any fun x =>
    x.num == sh.num && x.key != sh.key
    && (keyHas sh.key (p.2 % f.place.w, p.2 / f.place.w) || keyHas x.key (fx, fy)))
  || far.any fun p => farFolio p.id == f.place.idx && farNum p.id == sh.num && farKey p.id != sh.key && keyHas (farKey p.id) (fx, fy)

/-- Whether every line of a member's contribution has arrived at a tile (R382). -/
def Tile.partsHere (t : Tile) (num : Nat) (p : Nat × Nat) (lines : Nat) : Bool :=
  (List.range lines).all fun l => t.ce.parts.contains (num, p.1, p.2, l)

/-- What a member's COLL finds at its landing (R381, R382): the trap, or the result with its marked elements and events.
Every member rounds as the group's first member of the folio does, so that all receive the same bits (R330, log 101). -/
def Folio.collResult (f : Folio) (far : List FarPart) (fx fy : Nat) (m : CeCmd) (sh : Share) (k : Nat) :
    Except (Nat × Nat) (Nat × List Nat × List (Nat × Nat)) :=
  let d := m.desc
  let lines := clLines d
  let members := clMembers d
  let share (p : Nat × Nat) : Option Share :=
    (f.tiles[f.tileAt p.1 p.2]?).bind fun t => t.ce.shares.find? fun x => x.num == sh.num
  if f.collDiffers far fx fy sh then .error (77, 0)
  else if members.any fun p => match share p with
      | none => true
      | some x =>
        if p = (fx, fy) then !x.read || decide (k < x.q0 + lines - 1)
        else !((f.tiles[f.tileAt fx fy]?).map fun t => t.partsHere sh.num p lines).getD false
  then .error (64, k)
  else
    let l := f.contributions far sh.num d
    let w := elemBits (clEf d)
    let lead := (share (clFx0 d, clFy0 d)).getD sh
    let r := packRounded w ((List.range (dLen d)).map fun i =>
      reduceElem (clOp d) (clEf d) lead.rnd lead.isat (draw lead.seed lead.issue i) (l.map fun x => laneOf w x.1 i))
    .ok (r.1, (l.flatMap fun x => x.2).eraseDups, r.2)

/-- The marks of the words of a vector at an offset whose elements are marked. -/
def elemMarks (off z : Nat) (marked : List Nat) : Nat :=
  ((marked.flatMap fun i => (wordsOf (off + z * i) z).map fun w => w - off / 8).eraseDups.map fun b => 2 ^ b).sum

/-- A COLL lands (R382): the result waits as a line that lands in this cycle, or the trap is raised. -/
def Folio.collLand (f : Folio) (far : List FarPart) (ti k : Nat) (m : CeCmd) (n : Nat) : Folio :=
  f.onTile ti fun t =>
    match t.ce.shares.find? fun sh => sh.num == n with
    | none => t
    | some sh =>
      match f.collResult far (ti % f.place.w) (ti / f.place.w) m sh k with
      | .error x => t.stopCmd m.id 0 (raiseEnd x.1 x.2 0)
      | .ok r =>
        let t := ({ t with ce := { t.ce with parts := t.ce.parts.filter fun x => x.1 != n } } : Tile).addLine
                           { cmd := m.id, idx := 0, route := .mesh, start := k, land := k, pa := 0, off := sh.dst
                             len := clBytes m.desc, data := r.1, poison := elemMarks sh.dst (elemBits (clEf m.desc) / 8) r.2.1
                             targets := [(ti % f.place.w, ti / f.place.w)], got := [], outside := none }
        if r.2.2.isEmpty then t else { t with evNow := t.evNow ++ [(4, sh.issue, r.2.2)] }

/-- The copy engine's requests of this cycle, command by command in program order (R362, R363). -/
def Tile.ceRequests (t : Tile) (c : Ctx) : Tile :=
  ((t.ce.cmds.map (·.id)).foldl (fun t id =>
    match t.ce.cmds.find? fun m => m.id == id with
    | none => t
    | some m =>
      match m.kind with
      | .coll n => t.collRead c m n
      | .ink _ => t.inkRequest c m
      | _ => t.copyRequest c m) t).inkWriteRequest c

/-- The links by which a folio reaches a logical package, in ascending number (R509). -/
def State.linksTo (s : State) (f : Folio) (p : Nat) : List Nat :=
  (List.range 18).filter fun i =>
    let l := vget s.links i
    l.v && l.func == f.place.func && l.job == f.launch.job && l.peer.toNat == p

/-- A flit enters the link whose turn it is among those that reach a package, round robin (R509); flits that have left the link's
padded length are forgotten (R507). -/
def State.sendFar (s : State) (f : Folio) (p : Nat) (x : FarSend) : State :=
  let l := s.linksTo f p
  let n := ((f.turns.find? fun y => y.1 == p).map Prod.snd).getD 0
  match l[n % l.length]? with
  | none => s
  | some i =>
    let k := vget s.links i
    let s := s.onFolio f.place.idx fun g => { g with turns := (p, n + 1) :: g.turns.filter fun y => y.1 != p }
    { s with links := vset s.links i { k with out := (k.out.filter fun y => decide (s.wall < y.wall + k.pad)) ++ [x] } }

/-- The lines of a contribution that leave for the group's other packages in this cycle (R382, R509). -/
def State.collSend (s : State) (f : Folio) (t : Tile) (c : Ctx) (m : CeCmd) (n : Nat) : State :=
  if c.k < m.q0 ∨ m.q0 + clLines m.desc ≤ c.k then s
  else
    let i := c.k - m.q0
    match t.ce.shares.find? fun sh => sh.num == n with
    | none => s
    | some sh =>
      let z := elemBits (clEf m.desc) / 8
      let marks := ((List.range 8).filter fun w => sh.marks.any fun e => decide (64 * i + 8 * w < z * e + z) && decide (z * e < 64 * i + 8 * w + 8)).map (2 ^ ·)
      let x : FarSend := { wall := s.wall, job := f.launch.job, num := n, pkg := f.launch.lpkg.toNat, fx := c.fx, fy := c.fy, line := i, key := sh.key
                           data := bitsAt sh.data (512 * i) 512, poison := marks.sum }
      ((List.range (clPk1 m.desc + 1 - clPk0 m.desc)).map (clPk0 m.desc + ·)).foldl (fun s p =>
        if p = f.launch.lpkg.toNat then s
        else match s.folio? f.place.idx with
          | some f => s.sendFar f p x
          | none => s) s

/-- The request stage of the copy engine (R362). -/
def execCeLineRequest (s : State) : Host.Outcome State Fault Refusal :=
  match s.at? with
  | none => .fault .noTile
  | some (f, t, c) =>
    let t := t.ceRequests c
    .next (t.ce.cmds.foldl (fun s m => match m.kind with
      | .coll n => s.collSend f t c m n
      | _ => s) (s.putTile f t))

end Sys2Proof.Machine
end

