-- ==== Sys2Proof/Machine/Matrix.lean ====
section
/-! DEFINITION. The matrix engine (R276-R306, R517): paths, operands in SPAD and WBUF, the chunks of an MMA and its sums in
their fixed order, the port instructions, and the units' holds. -/

namespace Sys2Proof.Machine

/-- Plain operands of the narrow float path (R277). -/
def narrowPlain (f : Nat) : Bool := (3 ≤ f && f ≤ 9) || (13 ≤ f && f ≤ 15)

/-- The accumulation path of a pair of formats and forms (R277): 0 narrow float, 1 integer, 2 FP32, 3 FP64. -/
def mmaPath (fa fb : Nat) (aBlk bBlk : Bool) : Option Nat :=
  if aBlk || bBlk then
    let fits (f : Nat) (blk : Bool) : Bool := if blk then inB f else narrowPlain f || f == 11 || f == 12
    if fits fa aBlk && fits fb bBlk then some 0 else none
  else if narrowPlain fa && narrowPlain fb then some 0
  else if (10 ≤ fa ∧ fa ≤ 12) ∧ (10 ≤ fb ∧ fb ≤ 12) then some 1
  else if fa = 2 ∧ fb = 2 then some 2
  else if fa = 1 ∧ fb = 1 then some 3
  else none

/-- Chunk time by the wider element width (R276). -/
def chunkTime (w : Nat) : Nat :=
  if w ≤ 6 then 16 else if w = 8 then 32 else if w = 16 then 128 else if w = 32 then 256 else 1024

/-- Bytes of one A chunk (R276, R279). -/
def aChunkBytes (fa : Nat) (ablk : Bool) : Nat := if ablk then 2 * blockBytes fa else 256 * elemBits fa

/-- Whether a form accepts a format of B (R282). -/
def formAccepts (form fb : Nat) : Bool :=
  if form = 0 then fb != 0 else if form = 3 then inB fb else fb != 0 && decide (elemBits fb ≤ 16)

/-- Bytes of WBUF from an offset (R22). -/
def Tile.wbuf (t : Tile) (off n : Nat) : Nat := t.bytes (0x100000 + off) n

/-- Size of the record at an offset by its form (R282, R283). -/
def recSize (t : Tile) (form fb pos : Nat) : Nat :=
  let w := elemBits fb
  match form with
  | 0 => 256 * w
  | 3 => 2 * blockBytes fb
  | 2 => 128 * w + 256
  | _ => 256 + (oneBits (t.wbuf pos 256) 2048 * w + 2047) / 2048 * 256
where
  /-- One bits among the low n bits. -/
  oneBits (a n : Nat) : Nat :=
    match n with
    | 0 => 0
    | n + 1 => a % 2 + oneBits (a / 2) n

/-- The record located at an offset: none when its lines carry mixed forms or one that does not accept fb (R517). -/
def recAt (t : Tile) (fb pos : Nat) : Option Rec :=
  let form := t.stores.form (pos / 256)
  if !formAccepts form fb then none
  else
    let size := recSize t form fb pos
    let lines := (List.range ((size + 255) / 256)).map fun i => pos / 256 + i
    if lines.all fun l => decide (1024 ≤ l) || t.stores.form l == form then some ⟨pos, size, form⟩ else none

/-- The records of B, located at issue (R517), and the first chunk without one. -/
def locate (t : Tile) (fb pos c n : Nat) : List Rec × Option Nat :=
  match n with
  | 0 => ([], none)
  | n + 1 =>
    match recAt t fb pos with
    | none => ([], some c)
    | some r =>
      let q := locate t fb (pos + r.size) (c + 1) n
      (r :: q.1, q.2)

/-- Elements of a packed value as exact values. -/
def numArray (f v n : Nat) : Array Num := ((List.range n).map fun i => numLane f v i).toArray

/-- The k-th of two blocks laid one after another: header and payload (R203). -/
def blockIn (f v k : Nat) : Nat × Nat :=
  let b := bitsAt v (8 * k * blockBytes f) (8 * blockBytes f)
  (bitsAt b 0 512, bitsAt b 512 (1024 * elemBits f))

/-- The trailer line of the k-th of two blocks (R205). -/
def trailerIn (f v k : Nat) : Nat :=
  bitsAt v (8 * (k * blockBytes f + blockBytes f - 64)) 512

/-- A chunk of A as values, element 32 i + k (R278, R279). -/
def aNums (fa : Nat) (ablk : Bool) (v : Nat) : Array Num :=
  if ablk then
    let b0 := blockIn fa v 0
    let b1 := blockIn fa v 1
    ((List.range 2048).map fun e =>
      let b := if e < 1024 then b0 else b1
      ductusValue b.1 (laneOf (elemBits fa) b.2 (e % 1024)) (e % 1024 / 32) (e % 32)).toArray
  else numArray fa v 2048

/-- The stored elements of a bitmap record spread over its 2,048 places (R283). -/
def spreadBits (f vals occ p n : Nat) : List Num :=
  match n with
  | 0 => []
  | n + 1 =>
    if occ % 2 = 1 then numLane f vals p :: spreadBits f vals (occ / 2) (p + 1) n
    else .fin false 0 0 :: spreadBits f vals (occ / 2) p n

/-- The 2-bit index m of a 2:4 record (R284). -/
def idx24 (w v m : Nat) : Nat := bitsAt v (1024 * w + 2 * m) 2

/-- A record of B as values, element 64 k + j (R282-R284). -/
def bNums (fb form v : Nat) : Array Num :=
  let w := elemBits fb
  match form with
  | 0 => numArray fb v 2048
  | 3 =>
    let b0 := blockIn fb v 0
    let b1 := blockIn fb v 1
    ((List.range 2048).map fun e =>
      let b := if e % 64 < 32 then b0 else b1
      let j := e % 32
      ductusValue b.1 (payElem w b.2 (e / 64) j) (e / 64) j).toArray
  | 2 =>
    ((List.range 2048).map fun e =>
      let m := 128 * (e / 256) + 2 * (e % 64)
      let q := e / 64 % 4
      if idx24 w v m = q then numLane fb v m
      else if idx24 w v (m + 1) = q then numLane fb v (m + 1) else .fin false 0 0).toArray
  | _ =>
    let a := (spreadBits fb (v / 2 ^ 2048) (v % 2 ^ 2048) 0 2048).toArray
    ((List.range 2048).map fun e => a.getD (1024 * (e % 64 / 32) + 32 * (e / 64) + e % 32) (.fin false 0 0)).toArray

/-- Header and torn faults of two blocks, with the address of the block (R207, R218): header faults first (R294). -/
def blockFaults (f v base : Nat) : Option (Nat × Nat × Nat) :=
  let bad (k : Nat) : Bool := hdrBad (blockIn f v k).1 (some f) || decide (16 ≤ trailerIn f v k)
  let torn (k : Nat) : Bool := hdrGen (blockIn f v k).1 != trailerIn f v k % 16
  if bad 0 then some (22, base, 0)
  else if bad 1 then some (22, base + blockBytes f, 0)
  else if torn 0 then some (72, base, 0)
  else if torn 1 then some (72, base + blockBytes f, 0)
  else none

/-- What chunk c of an MMA reads at its start, with its first fault (R289, R294): its record is decoded under the form that stands
then, within the range located at issue (R517). -/
def readChunk (t : Tile) (m : Mma) (c : Nat) : Chunk :=
  let za := aChunkBytes m.fa m.ablk
  let a0 := 256 * m.sp + c * za
  let a := t.bytes a0 za
  let fa : Option (Nat × Nat × Nat) :=
    (if m.ablk then blockFaults m.fa a a0 else none).or ((t.badWord a0 za).map fun w => (80, 8 * w, 0))
  match m.recs[c]? with
  | none =>
    { a := a, b := 0, form := 0, fault := fa.or (some (73, (m.recs.getLast?.map fun r => r.start + r.size).getD (256 * m.wb), c)) }
  | some r =>
    let b := t.wbuf r.start r.size
    let w := elemBits m.fb
    let now := recAt t m.fb r.start
    let form := (now.map fun r' => r'.form).getD r.form
    let fb : Option (Nat × Nat × Nat) :=
      if now.map (fun r' => r'.size) != some r.size || mmaPath m.fa m.fb m.ablk (form == 3) != some m.path
          || (form == 2 && (List.range 512).any fun i => decide (idx24 w b (2 * i + 1) ≤ idx24 w b (2 * i)))
      then some (73, r.start, c)
      else (if form = 3 then blockFaults m.fb b (0x100000 + r.start) else none).or
        ((t.badWord (0x100000 + r.start) r.size).map fun w => (83, 8 * w - 0x100000, 0))
    { a := a, b := b, form := form, fault := fa.or fb }

/-- The bytes of accumulator k in the window (R22). -/
def accBase (k : Nat) : Nat := 0x140000 + k * 0x4000

/-- The accumulators of a kind: the pair for FP64 (R23). -/
def accSet (fp64 : Bool) (k : Nat) : List Nat := if fp64 then [k, k + 1] else [k]

/-- The 4,096 elements of an accumulator or pair (R23, R286). -/
def Tile.accRead (t : Tile) (fp64 : Bool) (k : Nat) : Array Nat :=
  let lo := t.bytes (accBase k) 0x4000
  let hi := if fp64 then t.bytes (accBase (k + 1)) 0x4000 else 0
  ((List.range 4096).map fun e => laneOf 32 lo e + if fp64 then laneOf 32 hi e * 2 ^ 32 else 0).toArray

/-- The values that elements give to an accumulator or pair (R23). -/
def accValues (fp64 : Bool) (l : List Nat) : List Nat :=
  packLanes 32 l :: if fp64 then [packLanes 32 (l.map fun x => x / 2 ^ 32)] else []

/-- The first poisoned or uncorrectable accumulator word, as an offset from the start of the store (R474). -/
def Tile.accBad (t : Tile) (fp64 : Bool) (k : Nat) : Option Nat :=
  (t.badWord (accBase k) (if fp64 then 0x8000 else 0x4000)).map fun w => 8 * w - 0x140000

/-- One rounded sum of accum() (R290). -/
def accum (f : Nat) (scaled : Bool) (acc : Nat) (prods : List (Option Num)) : Rounded :=
  accumulate f ⟨0, false⟩ 0 scaled false (some (decodeElem f acc) :: prods)

/-- An exact integer product. -/
def intOf (x : Num) : Int :=
  match x with
  | .fin s m _ => if s then -(m : Int) else m
  | _ => 0

/-- One element through one chunk, on its path (R290-R292). prod k is the exact product of column k. -/
def chunkElem (path : Nat) (scaled sat : Bool) (acc : Nat) (prod : Nat → Option Num) : Nat × List (Nat × Nat) :=
  match path with
  | 1 =>
    let r := fit (toSigned 32 acc + ((List.range 32).map fun k => intOf ((prod k).getD .nan)).sum) 32 true sat
    (r.1, evOf r.2)
  | 2 => (List.range 4).foldl (fun x g =>
      let r := accum 2 false x.1 ((List.range 8).map fun q => prod (8 * g + q))
      (r.1, sumEv x.2 (evOf r.2))) (acc, [])
  | 3 => (List.range 32).foldl (fun x k =>
      let r := accum 1 false x.1 [prod k]
      (r.1, sumEv x.2 (evOf r.2))) (acc, [])
  | _ =>
    let r := accum 2 scaled acc ((List.range 32).map prod)
    (r.1, evOf r.2)

/-- Blocks with the NaN scale among the two of an operand, each counted once (R209, R293). -/
def nanBlocks (blk : Bool) (f v : Nat) : Nat :=
  if !blk then 0
  else (if hdrScale (blockIn f v 0).1 = 0xFFF then 1 else 0) + if hdrScale (blockIn f v 1).1 = 0xFFF then 1 else 0

/-- All elements through one chunk (R290-R293). -/
def runChunk (m : Mma) (acc : Array Nat) (ev : List (Nat × Nat)) (ch : Chunk) : Array Nat × List (Nat × Nat) :=
  let a := aNums m.fa m.ablk ch.a
  let b := bNums m.fb ch.form ch.b
  let z : Num := .fin false 0 0
  let ev := addEv ev 4 (nanBlocks m.ablk m.fa ch.a + nanBlocks (ch.form == 3) m.fb ch.b)
  let l := (List.range 4096).map fun e =>
    chunkElem m.path (m.ablk || ch.form == 3) m.sat (acc.getD e 0)
      fun k => (a.getD (32 * (e / 64) + k) z).mul (b.getD (64 * k + e % 64) z)
  ((l.map (·.1)).toArray, l.foldl (fun v x => sumEv v x.2) ev)

/-- Whether an accumulator will still be written by an issued MX instruction after cycle k (R295). -/
def Tile.accPending (t : Tile) (k : Nat) (accs : List Nat) : Bool :=
  (match t.mx.mma with
    | some m => (accSet (m.path == 3) m.acc).any accs.contains
    | none => false)
  || t.mx.pend.any fun p => decide (k < p.land) && match p.dest with
    | .acc a _ => accs.contains a
    | _ => false

/-- Whether an extent of SPAD or WBUF, as window offset and length, meets an issued MX write that has not landed before cycle k
(R28, R295, R311): an instruction that issues in the landing cycle would still read the old bytes. -/
def Tile.extentPending (t : Tile) (k : Nat) (ext : List (Nat × Nat)) : Bool :=
  t.mx.pend.any fun p => decide (k ≤ p.land) && match p.dest with
    | .spad off len _ => ext.any fun e => meets e.1 e.2 off len
    | .wbuf off len _ _ => ext.any fun e => meets e.1 e.2 (0x100000 + off) len
    | .acc _ _ => false

/-- The description of an MX instruction (R288, R297, R305). -/
def mxInfo (cause : Option Nat) (o : Mat) (least : Nat) (rv sv ov : Bool) : Info :=
  { cause := cause, srcs := [], dsts := [], preds := [], wides := [], cls := o.ecl.toNat, least := least, rv := rv
    sv := sv, ov := ov, acc := some 0, hand := false }

/-- Whether a write that an MX instruction releases would not perform before its first access: a write of AP, CE or NET
issued before it with its class, any class for class 15 (R314). An instruction that reads does so at its issue; ACCZ only
writes, one cycle later and after AP's writes of that cycle (R28, R500). -/
def Tile.releasePending (t : Tile) (c : Ctx) (reads : Bool) : Bool :=
  let cls := c.cls 0
  let mask := if cls = 15 then 0xFFFF else 2 ^ cls
  t.queueWritesPending (if reads then c.k else c.k + 2) c.k mask
  || t.ce.cmds.any fun m => decide (m.issue < c.k) && inMask mask m.cls && !m.performed (if reads then c.k else c.k + 1)

/-- A cause that the state decides at issue comes before the instruction's body (R277, R297, R301). -/
def atIssue (cause : Tile → Option Nat) (body : Ctx → Tile → Except Raise Tile) (c : Ctx) (t : Tile) : Except Raise Tile :=
  match cause t with
  | some x => .error (c.raise x)
  | none => body c t

/-- The hold of an MX instruction by its unit, accumulators and extents (R295), and by the writes it releases (R314). -/
def mxHold (free : Tile → Nat → Bool) (reads : Bool) (accs : List Nat) (ext : Tile → List (Nat × Nat)) (c : Ctx) (t : Tile) :
    Option Hold :=
  if !free t c.k || t.accPending c.k accs || t.extentPending c.k (ext t) then some .unit
  else if t.releasePending c reads then some .order
  else none

/-- Whether the array, the WBUF port or the accumulator port is free in a cycle (R295). -/
def arrayFree (t : Tile) (_ : Nat) : Bool := t.mx.mma.isNone
def wportFree (t : Tile) (k : Nat) : Bool := decide (t.mx.wportFree ≤ k)
def aportFree (t : Tile) (k : Nat) : Bool := decide (t.mx.aportFree ≤ k)

/-- The extent in WBUF of the first record without a size (R517): the bytes that the form of its first line gives it, or that line
where the form does not accept fb (log 115). -/
def noRecord (t : Tile) (fb pos : Nat) : Nat × Nat :=
  let form := t.stores.form (pos / 256)
  (0x100000 + pos, if formAccepts form fb then recSize t form fb pos else 256 - pos % 256)

/-- The extents of an MMA: its A operand, its located records and the first record without a size (R280, R295, R517). -/
def mmaExtents (o : Mat) (t : Tile) : List (Nat × Nat) :=
  let l := locate t o.fb.toNat (256 * o.wb.toNat) 0 o.n.toNat
  let last := (l.1.getLast?.map fun r => r.start + r.size).getD (256 * o.wb.toNat)
  (256 * o.sp.toNat, o.n.toNat * aChunkBytes o.fa.toNat (t.csr.mxctl.getLsbD 0))
  :: (l.1.map fun r => (0x100000 + r.start, r.size)) ++ (if l.2.isSome then [noRecord t o.fb.toNat last] else [])

/-- The path of an MMA at issue: by the form of record 0 as located (R277, R517). -/
def pathAt (o : Mat) (t : Tile) : Option Nat :=
  let ablk := t.csr.mxctl.getLsbD 0
  match recAt t o.fb.toNat (256 * o.wb.toNat) with
  | some r => mmaPath o.fa.toNat o.fb.toNat ablk (r.form == 3)
  | none => none

/-- The cause that an MMA's fields raise with MXCTL as it stands (R277, R288). -/
def mmaCause (o : Mat) (t : Tile) : Option Nat :=
  let fa := o.fa.toNat
  let fb := o.fb.toNat
  let ablk := t.csr.mxctl.getLsbD 0
  need (((mmaPath fa fb ablk false).isSome || (mmaPath fa fb ablk true).isSome)
    && !(fa == 1 && fb == 1 && o.acc.toNat % 2 == 1))

/-- The description of an MMA: sv on the integer path only (R288). Where record 0 has no size, or its form gives no path, sv is
accepted as on the path of a plain record, which the spec leaves open (log 115). -/
def mmaInfo (o : Mat) (t : Tile) : Info :=
  mxInfo (Instr.mma o).cause o 3 false
    ((pathAt o t).getD ((mmaPath o.fa.toNat o.fb.toNat (t.csr.mxctl.getLsbD 0) false).getD 4) == 1) true

/-- MMA (R289): it issues as chunk 0 starts. -/
def execMma (o : Mat) (s : State) : Host.Outcome State Fault Refusal :=
  issue (mmaInfo o)
    (fun c t =>
      let fp64 := o.fa == 1 && o.fb == 1
      mxHold arrayFree true (accSet fp64 o.acc.toNat) (mmaExtents o) c t)
    (atIssue (fun t => mmaCause o t) fun c t =>
      let fa := o.fa.toNat
      let fb := o.fb.toNat
      let ablk := t.csr.mxctl.getLsbD 0
      let n := o.n.toNat
      let a0 := 256 * o.sp.toNat
      let loc := locate t fb (256 * o.wb.toNat) 0 n
      if 0xF8000 < a0 + n * aChunkBytes fa ablk then .error (c.raiseInfo 45 a0 0)
      else
        match loc.1.zipIdx.find? fun p => decide (0x40000 < p.1.start + p.1.size) with
        | some p => .error (c.raiseInfo 74 p.1.start p.2)
        | none =>
          let m : Mma :=
            { line := c.e.line, lane := c.e.lane, w0 := c.e.w0, w1 := c.e.w1, issue := c.k, cls := c.cls 0
              debit := (mmaInfo o t).debit c, acc := o.acc.toNat, fa := fa, fb := fb, n := n, sp := o.sp.toNat
              wb := o.wb.toNat, ablk := ablk, path := (pathAt o t).getD 4, sat := c.sat
              t := chunkTime (max (elemBits fa) (elemBits fb)), recs := loc.1, noSize := loc.2, chunks := []
              lastStart := c.k }
          let t := t.corrects a0 (aChunkBytes fa ablk)
          .ok { t with mx := { t.mx with mma := some { m with chunks := [readChunk t m 0] } } }) s

/-- A later chunk of an MMA starts once T cycles have passed and its debit fits; a debit that does not fit blocks the
later queues (R289). -/
def Tile.chunkStart (t : Tile) (k : Nat) : Tile :=
  match t.mx.mma with
  | none => t
  | some m =>
    if m.n ≤ m.chunks.length ∨ k < m.lastStart + m.t then t
    else if m.debit ≠ 0 ∧ (t.blocked ∨ t.avail < m.debit) then { t with blocked := true }
    else
      let t := t.corrects (256 * m.sp + m.chunks.length * aChunkBytes m.fa m.ablk) (aChunkBytes m.fa m.ablk)
      { t with
        avail := t.avail - m.debit
        mx := { t.mx with mma := some { m with chunks := m.chunks ++ [readChunk t m m.chunks.length], lastStart := k } } }

/-- The landing of an MMA at L: its result, which its accumulators take in this cycle (mxLand), or the first fault of its chunks
(R289-R294). -/
def Tile.mmaLand (t : Tile) (k : Nat) : Tile :=
  match t.mx.mma with
  | none => t
  | some m =>
    if m.chunks.length < m.n ∨ k < m.lastStart + m.t then t
    else
      let t' := { t with mx := { t.mx with mma := none } }
      match m.chunks.findSome? (·.fault) with
      | some f =>
        t'.addRaise (if f.1 = 22 ∨ f.1 = 72 then raiseNamed f.1 m.line m.lane 5 f.2.1 f.2.2 else raiseEnd f.1 f.2.1 f.2.2)
      | none =>
        match t.accBad (m.path == 3) m.acc with
        | some off => t'.addRaise (raiseEnd 83 off 0)
        | none =>
          let r := m.chunks.foldl (fun x ch => runChunk m x.1 x.2 ch) (t.accRead (m.path == 3) m.acc, [])
          let vals := accValues (m.path == 3) r.1.toList
          { t' with mx := { t'.mx with pend := t'.mx.pend ++ vals.zipIdx.map fun p =>
              { land := k, issue := m.issue, cls := m.cls, dest := .acc (m.acc + p.2) p.1
                events := if p.2 = 0 then r.2 else [], poison := none } } }

/-- Posts the landing of a port instruction (R297). -/
def Tile.mxPost (t : Tile) (c : Ctx) (lat : Nat) (dest : MxDest) (ev : List (Nat × Nat)) (poison : Option (Nat × Nat)) :
    Tile :=
  { t with mx := { t.mx with pend := t.mx.pend ++ [{ land := c.k + lat, issue := c.k, cls := c.cls 0, dest := dest
                                                     events := ev, poison := poison }] } }

/-- Takes the accumulator port until a landing (R295). -/
def Tile.takePort (t : Tile) (c : Ctx) (lat : Nat) : Tile := { t with mx := { t.mx with aportFree := c.k + lat } }

/-- Posts the landing of accumulator elements. -/
def Tile.accPost (t : Tile) (c : Ctx) (lat : Nat) (fp64 : Bool) (k : Nat) (l : List Nat) (ev : List (Nat × Nat))
    (poison : Option (Nat × Nat)) : Tile :=
  ((accValues fp64 l).zipIdx.foldl (fun t p =>
    t.mxPost c lat (.acc (k + p.2) p.1) (if p.2 = 0 then ev else []) (if p.2 = 0 then poison else poison.map fun _ => (0, 0))) t).takePort c lat

/-- WLD (R298): poisoned source data trap at the end of the issue cycle (R339, log 21). -/
def execWld (o : Mat) (s : State) : Host.Outcome State Fault Refusal :=
  let len := 256 * o.n.toNat
  let src := 256 * o.sp.toNat
  let dst := 256 * o.wb.toNat
  issue (fun _ => mxInfo (Instr.wld o).cause o 1 false false true)
    (mxHold wportFree true [] fun _ => [(src, len), (0x100000 + dst, len)])
    (fun c t =>
      if 0xF8000 < src + len then .error (c.raiseInfo 45 src 0)
      else if 0x40000 < dst + len then .error (c.raiseInfo 74 dst 0)
      else
        let lat := o.n.toNat + 4
        let t' := { t with mx := { t.mx with wportFree := c.k + lat } }
        match t.badWord src len with
        | some w => .ok (t'.addRaise (raiseEnd 80 (8 * w) 0))
        | none => .ok ((t'.corrects src len).mxPost c lat (.wbuf dst len (t.bytes src len) o.fb.toNat) [] none)) s

/-- ACCZ (R299). -/
def execAccz (o : Mat) (s : State) : Host.Outcome State Fault Refusal :=
  issue (fun _ => mxInfo (Instr.accz o).cause o 1 false false false) (mxHold aportFree false [o.acc.toNat] fun _ => [])
    (fun c t => .ok ((t.mxPost c 1 (.acc o.acc.toNat 0) [] none).takePort c 1)) s

/-- MXCTL.kind: 0 INT32, 1 FP32, 2 FP64 pair (R287). -/
def Tile.accKind (t : Tile) : Nat := bitsAt t.csr.mxctl.toNat 4 2

/-- The format of an accumulator kind: INT32, FP32, FP64 (R286). -/
def kindFmt (kind : Nat) : Nat := if kind = 0 then 0 else if kind = 1 then 2 else 1

/-- Cause 5 for an odd accumulator under kind FP64 (R297). -/
def oddPair (t : Tile) (accs : List Nat) : Option Nat :=
  need !(t.accKind == 2 && accs.any fun a => a % 2 == 1)

/-- Bits of an element that ACCRD or ACCWR moves: fa, or the raw elements of the kind (R300). -/
def portBits (fa kind : Nat) : Nat := if fa = 0 then (if kind = 2 then 64 else 32) else elemBits fa

/-- Bytes that ACCRD writes (R300, R301). -/
def accrdBytes (fa : Nat) (t : Tile) : Nat :=
  if t.csr.mxctl.getLsbD 1 then 4 * blockBytes fa else 512 * portBits fa t.accKind

/-- The draw index of a block-form ACCRD in quadrant (bi, bj) (R302). -/
def quadIndex (bi bj : Nat) : Nat := 1024 * (2 * min bi bj + max bi bj)

/-- Four Ductus blocks from an accumulator (R301): bytes as a value, with events. -/
def accBlocks (fa gen rm : Nat) (u : Nat → Nat) (x : Nat → Nat → Num) : Nat × List (Nat × Nat) :=
  let one (b : Nat) : Nat × List (Nat × Nat) :=
    let bi := b / 2
    let bj := b % 2
    let q := quantise fa gen rm (fun d => u (quadIndex bi bj + d)) fun i j => x (32 * bi + i) (32 * bj + j)
    (q.1 + q.2.1 * 2 ^ 512 + gen * 2 ^ (8 * (blockBytes fa - 64)), q.2.2)
  (List.range 4).foldl (fun v b =>
    let r := one b
    (v.1 + r.1 * 2 ^ (8 * b * blockBytes fa), sumEv v.2 r.2)) (0, [])

/-- ACCRD (R300-R302). -/
def execAccrd (o : Mat) (s : State) : Host.Outcome State Fault Refusal :=
  let fa := o.fa.toNat
  let dst := 256 * o.sp.toNat
  issue
    (fun t =>
      let blk := t.csr.mxctl.getLsbD 1
      mxInfo (Instr.accrd o).cause o 2 true (!blk) true)
    (fun c t => mxHold aportFree true (accSet (t.accKind == 2) o.acc.toNat) (fun t => [(dst, accrdBytes fa t)]) c t)
    (atIssue (fun t => lower (oddPair t [o.acc.toNat]) (need (!t.csr.mxctl.getLsbD 1 || (inB fa && t.accKind != 0)))) fun c t =>
      let kind := t.accKind
      let fp64 := kind == 2
      let len := accrdBytes fa t
      if 0xF8000 < dst + len then .error (c.raiseInfo 45 dst 0)
      else
        let acc := t.accRead fp64 o.acc.toNat
        let kf := kindFmt kind
        let poison := (t.accBad fp64 o.acc.toNat).map fun off => (83, off)
        if t.csr.mxctl.getLsbD 1 then
          let r := accBlocks fa (bitsAt t.csr.mxctl.toNat 8 4) (c.rnd t).rm (c.drawAt t)
            fun i j => decodeElem kf (acc.getD (64 * i + j) 0)
          .ok ((t.mxPost c 80 (.spad dst len r.1) r.2 poison).takePort c 80)
        else
          let lat := if portBits fa kind = 64 then 132 else 68
          let r := if fa = 0 then (packLanes (portBits 0 kind) acc.toList, [])
            else packRounded (elemBits fa) ((List.range 4096).map fun e =>
              convert kf fa (c.rnd t) (c.drawAt t e) (acc.getD e 0))
          .ok ((t.mxPost c lat (.spad dst len r.1) r.2 poison).takePort c lat)) s

/-- ACCWR (R303). -/
def execAccwr (o : Mat) (s : State) : Host.Outcome State Fault Refusal :=
  let fa := o.fa.toNat
  let src := 256 * o.sp.toNat
  issue (fun _ => mxInfo (Instr.accwr o).cause o 2 true true true)
    (fun c t => mxHold aportFree true (accSet (t.accKind == 2) o.acc.toNat)
      (fun t => [(src, 512 * portBits fa t.accKind)]) c t)
    (atIssue (fun t => oddPair t [o.acc.toNat]) fun c t =>
      let kind := t.accKind
      let w := portBits fa kind
      let len := 512 * w
      if 0xF8000 < src + len then .error (c.raiseInfo 45 src 0)
      else
        let lat := if kind = 2 ∨ w = 64 then 132 else 68
        match t.badWord src len with
        | some x => .ok ((t.addRaise (raiseEnd 80 (8 * x) 0)).takePort c lat)
        | none =>
          let v := t.bytes src len
          let l := (List.range 4096).map fun e =>
            if fa = 0 then (laneOf w v e, none)
            else convert fa (kindFmt kind) (c.rnd t) (c.drawAt t e) (laneOf w v e)
          .ok ((t.corrects src len).accPost c lat (kind == 2) o.acc.toNat (l.map (·.1)) (packRounded 1 l).2 none)) s

/-- ACCADD (R304). -/
def execAccadd (o : Mat) (s : State) : Host.Outcome State Fault Refusal :=
  issue (fun _ => mxInfo (Instr.accadd o).cause o 2 true true false)
    (fun c t => mxHold aportFree true (accSet (t.accKind == 2) o.acc.toNat ++ accSet (t.accKind == 2) o.acc2.toNat)
      (fun _ => []) c t)
    (atIssue (fun t => oddPair t [o.acc.toNat, o.acc2.toNat]) fun c t =>
      let fp64 := t.accKind == 2
      let kf := kindFmt t.accKind
      let a := t.accRead fp64 o.acc.toNat
      let b := t.accRead fp64 o.acc2.toNat
      let r := c.rnd t
      let lat := if fp64 then 16 else 8
      let l := (List.range 4096).map fun e =>
        let x := a.getD e 0
        let y := b.getD e 0
        if kf = 0 then fit (toSigned 32 x + toSigned 32 y) 32 true r.sat
        else accumulate kf r (c.drawAt t e) false false [some (decodeElem kf x), some (decodeElem kf y)]
      let bad := (t.accBad fp64 o.acc.toNat).or (t.accBad fp64 o.acc2.toNat)
      .ok (t.accPost c lat fp64 o.acc.toNat (l.map (·.1)) (packRounded 1 l).2 (bad.map fun off => (83, off)))) s

/-- An integer times 2^x, rounded to an integer under a mode (R304). -/
def scaleInt (a x : Int) (rm u : Nat) : Int :=
  if 0 ≤ x then a * 2 ^ x.toNat
  else
    let s := (-x).toNat
    let m := a.natAbs
    let q := m / 2 ^ s
    let r := m % 2 ^ s
    let up := r != 0 && goesUp rm (decide (a < 0)) (compare (2 * r) (2 ^ s)) (q % 2 == 1) (decide (u < r * 2 ^ 32 / 2 ^ s))
    let y : Int := if up then q + 1 else q
    if a < 0 then -y else y

/-- ACCSC (R304). -/
def execAccsc (o : Mat) (s : State) : Host.Outcome State Fault Refusal :=
  issue (fun _ => mxInfo (Instr.accsc o).cause o 1 true true false)
    (fun c t => mxHold aportFree true (accSet (t.accKind == 2) o.acc.toNat) (fun _ => []) c t)
    (atIssue (fun t => oddPair t [o.acc.toNat]) fun c t =>
      let fp64 := t.accKind == 2
      let kf := kindFmt t.accKind
      let x := toSigned 8 o.n.toNat
      let a := t.accRead fp64 o.acc.toNat
      let r := c.rnd t
      let lat := if fp64 then 8 else 4
      let l := (List.range 4096).map fun e =>
        let v := a.getD e 0
        if kf = 0 then fit (scaleInt (toSigned 32 v) x r.rm (c.drawAt t e)) 32 true r.sat
        else accumulate kf r (c.drawAt t e) false false [some ((decodeElem kf v).scale x)]
      .ok (t.accPost c lat fp64 o.acc.toNat (l.map (·.1)) (packRounded 1 l).2
        ((t.accBad fp64 o.acc.toNat).map fun off => (83, off)))) s

/-- A later chunk of a running MMA starts (R289). -/
def execMmaChunkStart (s : State) : Host.Outcome State Fault Refusal :=
  match s.at? with
  | none => .fault .noTile
  | some (f, t, c) => .next (s.putTile f (t.chunkStart c.cyc))

/-- An MMA lands (R289). -/
def execMmaLanding (s : State) : Host.Outcome State Fault Refusal :=
  match s.at? with
  | none => .fault .noTile
  | some (f, t, c) => .next (s.putTile f (t.mmaLand c.cyc))

/-- The MX writes that land in cycle k: accumulators before the cycle's issues, SPAD and WBUF at MX's place among the
cycle's writes (R28, R295). -/
def Tile.mxLand (t : Tile) (k : Nat) (accs : Bool) : Tile :=
  t.mx.pend.foldl (fun t p =>
    if p.land != k then t
    else
      let mine := match p.dest with
        | .acc _ _ => accs
        | _ => !accs
      if !mine then t
      else
        match p.poison with
        | some (0, _) => t
        | some (x, off) => t.addRaise (raiseEnd x off 0)
        | none =>
          let t' := match p.dest with
            | .acc a v => t.store (accBase a) 0x4000 v
            | .spad off len v => (t.store off len v).wroteBy off len 255 255 5
            | .wbuf off len v form =>
              let t := t.store (0x100000 + off) len v
              { t with stores := t.stores.setForms (off / 256) (len / 256) form }
          if p.events.isEmpty then t' else { t' with evNow := t'.evNow ++ [(5, p.issue, p.events)] }) t

end Sys2Proof.Machine
end

