-- ==== Sys2Proof/Machine/Save.lean ====
section
/-! DEFINITION. The bytes of a save region's records (R174, log 9): codecs, each with the law that what is written is read back. -/

namespace Sys2Proof.Machine

/-- A value written as bytes and read back from the front of some bytes. -/
structure Codec (α : Type) where
  put : α → List Byte
  get : List Byte → Option (α × List Byte)
  law : ∀ x r, get (put x ++ r) = some (x, r)

/-- A number in base 128, the least significant digit first; bit 7 says that another follows. -/
def digitsOf (fuel n : Nat) : List Byte :=
  match fuel with
  | 0 => []
  | fuel + 1 => if n < 128 then [BitVec.ofNat 8 n] else BitVec.ofNat 8 (n % 128 + 128) :: digitsOf fuel (n / 128)

/-- The number that digits in base 128 spell, with the bytes after it. -/
def digitsTo (l : List Byte) : Option (Nat × List Byte) :=
  match l with
  | [] => none
  | b :: r => if b.toNat < 128 then some (b.toNat, r) else (digitsTo r).map fun x => (b.toNat - 128 + 128 * x.1, x.2)

theorem digits_law (fuel : Nat) : ∀ (n : Nat) (r : List Byte), n < fuel → digitsTo (digitsOf fuel n ++ r) = some (n, r) := by
  induction fuel with
  | zero => intro n r h; omega
  | succ f ih =>
    intro n r h
    rw [digitsOf]
    split
    · have h1 : n % 256 = n := by omega
      simp [digitsTo, *]
    · have h1 : (n % 128 + 128) % 256 = n % 128 + 128 := by omega
      simp only [List.cons_append, digitsTo, BitVec.toNat_ofNat, Nat.reducePow, h1, ih (n / 128) r (by omega)]
      rw [if_neg (by omega)]
      simp; omega

/-- A natural number. -/
def Codec.nat : Codec Nat := ⟨fun n => digitsOf (n + 1) n, digitsTo, fun n r => digits_law (n + 1) n r (by omega)⟩

/-- Nothing. -/
def Codec.unit : Codec Unit := ⟨fun _ => [], fun r => some ((), r), fun _ _ => rfl⟩

/-- One value and then another. -/
def Codec.pair {α β : Type} (a : Codec α) (b : Codec β) : Codec (α × β) :=
  { put := fun x => a.put x.1 ++ b.put x.2
    get := fun r => (a.get r).bind fun x => (b.get x.2).map fun y => ((x.1, y.1), y.2)
    law := fun x r => by simp [List.append_assoc, a.law, b.law] }

/-- The same bytes for another type. -/
def Codec.iso {α β : Type} (c : Codec β) (enc : α → β) (dec : β → α) (h : ∀ x, dec (enc x) = x) : Codec α :=
  { put := fun x => c.put (enc x)
    get := fun r => (c.get r).map fun x => (dec x.1, x.2)
    law := fun x r => by simp [c.law, h] }

/-- One of two values, after a byte that says which. -/
def Codec.sum {α β : Type} (a : Codec α) (b : Codec β) : Codec (α ⊕ β) :=
  { put := fun x => match x with
      | .inl x => 0 :: a.put x
      | .inr y => 1 :: b.put y
    get := fun r => match r with
      | [] => none
      | t :: r => if t = 0 then (a.get r).map fun x => (.inl x.1, x.2) else (b.get r).map fun x => (.inr x.1, x.2)
    law := fun x r => by cases x <;> simp [a.law, b.law] }

/-- n values. -/
def Codec.many {α : Type} (c : Codec α) (n : Nat) (r : List Byte) : Option (List α × List Byte) :=
  match n with
  | 0 => some ([], r)
  | n + 1 => (c.get r).bind fun x => (Codec.many c n x.2).map fun y => (x.1 :: y.1, y.2)

theorem Codec.many_law {α : Type} (c : Codec α) (l : List α) (r : List Byte) :
    c.many l.length (l.flatMap c.put ++ r) = some (l, r) := by
  induction l with
  | nil => simp [Codec.many]
  | cons x l ih => simp [Codec.many, List.append_assoc, c.law, ih]

/-- A list, after its length. -/
def Codec.list {α : Type} (c : Codec α) : Codec (List α) :=
  { put := fun l => Codec.nat.put l.length ++ l.flatMap c.put
    get := fun r => (Codec.nat.get r).bind fun x => c.many x.1 x.2
    law := fun l r => by simp [List.append_assoc, Codec.nat.law, Codec.many_law] }

/-- A vector. -/
def Codec.vector {α : Type} (c : Codec α) (n : Nat) : Codec (Vector α n) :=
  { put := fun v => v.toList.flatMap c.put
    get := fun r => (c.many n r).bind fun x => if h : x.1.toArray.size = n then some (⟨x.1.toArray, h⟩, x.2) else none
    law := fun v r => by
      obtain ⟨v, rfl⟩ := v
      have h := Codec.many_law c v.toList r
      rw [Array.length_toList] at h
      simp [Vector.toList, h] }

/-- A value that may be absent. -/
def Codec.option {α : Type} (c : Codec α) : Codec (Option α) :=
  (Codec.unit.sum c).iso
    (fun x => match x with
      | none => .inl ()
      | some x => .inr x)
    (fun x => match x with
      | .inl _ => none
      | .inr x => some x)
    fun x => by cases x <;> rfl

/-- A truth value. -/
def Codec.bool : Codec Bool := Codec.nat.iso (fun b => if b then 1 else 0) (fun n => n == 1) fun b => by cases b <;> rfl

/-- A word of w bits. -/
def Codec.bits (w : Nat) : Codec (BitVec w) := Codec.nat.iso BitVec.toNat (BitVec.ofNat w) fun x => by simp

/-- A whole number. -/
def Codec.int : Codec Int :=
  (Codec.nat.sum Codec.nat).iso
    (fun x => match x with
      | .ofNat n => .inl n
      | .negSucc n => .inr n)
    (fun x => match x with
      | .inl n => .ofNat n
      | .inr n => .negSucc n)
    fun x => by cases x <;> rfl

/-- One of some names. -/
def Codec.enum {α : Type} [DecidableEq α] (l : List α) (h : ∀ x, x ∈ l) : Codec α :=
  { put := fun x => Codec.nat.put (l.idxOf x)
    get := fun r => (Codec.nat.get r).bind fun x => (l[x.1]?).map fun y => (y, x.2)
    law := fun x r => by simp [Codec.nat.law, List.getElem?_idxOf (h x)] }

/-- A name. -/
def codecQueue : Codec Queue := Codec.enum [.sq, .ap, .xu, .ce, .mx, .net] fun x => by cases x <;> decide

/-- A rounding choice. -/
def codecRnd : Codec Rnd := (Codec.nat.pair Codec.bool).iso (fun x => (x.rm, x.sat)) (fun (a, b) => ⟨a, b⟩) fun _ => rfl

/-- A target register. -/
def codecTarget : Codec Target := (Codec.int.pair (Codec.int.pair Codec.bool)).iso (fun x => (x.line, x.filled, x.full)) (fun
  (a, b, c) => ⟨a, b, c⟩) fun _ => rfl

/-- A loop level. -/
def codecLoop : Codec Loop := (Codec.bool.pair (Codec.nat.pair (Codec.nat.pair (Codec.nat.pair Codec.nat)))).iso (fun x =>
  (x.act, x.count, x.first, x.last, x.opened)) (fun (a, b, c, d, e) => ⟨a, b, c, d, e⟩) fun _ => rfl

/-- A marker. -/
def codecMarker : Codec Marker := (Codec.nat.pair Codec.nat).iso (fun x => (x.cause, x.info)) (fun (a, b) => ⟨a, b⟩) fun _ =>
  rfl

/-- A queue entry. -/
def codecEntry : Codec Entry := (Codec.nat.pair (Codec.nat.pair (Codec.nat.pair ((Codec.bits 32).pair ((Codec.bits 32).pair
  (Codec.nat.pair (codecMarker.option.pair Codec.nat.list))))))).iso (fun x => (x.line, x.lane, x.seq, x.w0, x.w1, x.disp,
  x.marker, x.arms)) (fun (a, b, c, d, e, f, g, h) => ⟨a, b, c, d, e, f, g, h⟩) fun _ => rfl

/-- A line of the prefetch buffer. -/
def codecPreLine : Codec PreLine := (Codec.nat.pair ((Codec.bits 256).pair (Codec.nat.pair Codec.bool))).iso (fun x => (x.line,
  x.bits, x.readAt, x.bad)) (fun (a, b, c, d) => ⟨a, b, c, d⟩) fun _ => rfl

/-- A word that awaits its second half. -/
def codecOwe : Codec Owe := (codecQueue.pair (Codec.nat.pair (Codec.nat.pair (Codec.nat.pair ((Codec.bits 32).pair
  Codec.nat.list))))).iso (fun x => (x.q, x.line, x.lane, x.seq, x.w0, x.arms)) (fun (a, b, c, d, e, f) => ⟨a, b, c, d, e, f⟩)
  fun _ => rfl

/-- A crossing word. -/
def codecCross : Codec Cross := (codecOwe.pair (Codec.nat.pair codecPreLine.option)).iso (fun x => (x.owe, x.from_, x.got)) (fun
  (a, b, c) => ⟨a, b, c⟩) fun _ => rfl

/-- The fetch unit. -/
def codecFetch : Codec Fetch := (Codec.nat.pair (Codec.nat.list.pair (Codec.nat.pair (codecPreLine.list.pair (Codec.nat.pair
  (Codec.bool.pair (codecOwe.option.pair (codecCross.list.pair (Codec.nat.pair (codecPreLine.option.pair (Codec.nat.pair
  (Codec.nat.pair Codec.nat.list)))))))))))).iso (fun x => (x.seqCtr, x.direct, x.directAt, x.buf, x.nextRead, x.running, x.owe,
  x.cross, x.readFrom, x.ahead, x.renewAt, x.ifence, x.flags)) (fun (a, b, c, d, e, f, g, h, i, j, k, l, m) => ⟨a, b, c, d, e,
  f, g, h, i, j, k, l, m⟩) fun _ => rfl

/-- A PFX. -/
def codecPfx : Codec Pfx := (((Codec.bits 3).option).pair (Codec.bool.option.pair (((Codec.bits 4).option).pair (((Codec.bits
  2).option).pair Codec.bool)))).iso (fun x => (x.rm, x.sat, x.ocl, x.ecl, x.wc)) (fun (a, b, c, d, e) => ⟨a, b, c, d, e⟩) fun _
  => rfl

/-- The control state. -/
def codecControl : Codec Control := ((codecEntry.list.vector 6).pair ((Codec.nat.option.vector 6).pair (codecFetch.pair
  ((codecTarget.vector 8).pair ((codecLoop.vector 4).pair (Codec.nat.pair (((codecQueue.pair codecPfx).option).pair
  (Codec.nat.pair Codec.nat.list)))))))).iso (fun x => (x.queues, x.headAt, x.fetch, x.btgt, x.loops, x.winb, x.pfx,
  x.notBefore, x.lost)) (fun (a, b, c, d, e, f, g, h, i) => ⟨a, b, c, d, e, f, g, h, i⟩) fun _ => rfl

/-- What a pending write changes. -/
def codecPendDest : Codec PendDest := ((Codec.nat.pair (Codec.nat.pair (Codec.nat.pair (Codec.bits 5)))).sum (((Codec.bits
  16).pair (Codec.bits 16)).sum ((Codec.nat.pair (Codec.bits 5)).sum ((Codec.nat.pair (Codec.bits 64)).sum ((Codec.nat.pair
  codecTarget).sum (Codec.nat.sum ((Codec.nat.pair (Codec.bool.pair (Codec.bool.pair (Codec.nat.pair (Codec.bool.pair
  (Codec.nat.pair Codec.nat)))))).sum Codec.unit))))))).iso
  (fun x => match x with
    | .slices a b c d => .inl (a, b, c, d)
    | .preds a b => .inr (.inl (a, b))
    | .tag a b => .inr (.inr (.inl (a, b)))
    | .csr a b => .inr (.inr (.inr (.inl (a, b))))
    | .target a b => .inr (.inr (.inr (.inr (.inl (a, b)))))
    | .winb a => .inr (.inr (.inr (.inr (.inr (.inl a)))))
    | .slot a b c d e f g => .inr (.inr (.inr (.inr (.inr (.inr (.inl (a, b, c, d, e, f, g)))))))
    | .nothing => .inr (.inr (.inr (.inr (.inr (.inr (.inr ())))))))
  (fun x => match x with
    | .inl (a, b, c, d) => .slices a b c d
    | .inr (.inl (a, b)) => .preds a b
    | .inr (.inr (.inl (a, b))) => .tag a b
    | .inr (.inr (.inr (.inl (a, b)))) => .csr a b
    | .inr (.inr (.inr (.inr (.inl (a, b))))) => .target a b
    | .inr (.inr (.inr (.inr (.inr (.inl a))))) => .winb a
    | .inr (.inr (.inr (.inr (.inr (.inr (.inl (a, b, c, d, e, f, g))))))) => .slot a b c d e f g
    | .inr (.inr (.inr (.inr (.inr (.inr (.inr ())))))) => .nothing)
  fun x => by cases x <;> rfl

/-- A pending write. -/
def codecPendWrite : Codec PendWrite := (Codec.nat.pair (Codec.nat.pair (Codec.nat.pair (Codec.bool.pair (codecPendDest.pair
  (((Codec.nat.pair Codec.nat).list).pair Codec.nat)))))).iso (fun x => (x.land, x.issue, x.writer, x.hand, x.dest, x.events,
  x.src)) (fun (a, b, c, d, e, f, g) => ⟨a, b, c, d, e, f, g⟩) fun _ => rfl

/-- A name. -/
def codecAtomOp : Codec AtomOp := Codec.enum [.add, .min, .max, .and, .or, .xor, .xchg, .cas, .fadd, .minz, .maxz] fun x => by cases x <;> decide

/-- What an access of the AP does. -/
def codecApKind : Codec ApKind := ((Codec.nat.pair (Codec.nat.pair (Codec.nat.pair (Codec.nat.pair Codec.bool)))).sum
  ((Codec.nat.pair (Codec.nat.pair Codec.nat)).sum ((codecAtomOp.pair (Codec.nat.pair (Codec.nat.pair (Codec.nat.pair
  (Codec.nat.pair (Codec.nat.pair (codecRnd.pair Codec.nat)))))))))).iso
  (fun x => match x with
    | .load a b c d e => .inl (a, b, c, d, e)
    | .store a b c => .inr (.inl (a, b, c))
    | .atom a b c d e f g h => .inr (.inr ((a, b, c, d, e, f, g, h))))
  (fun x => match x with
    | .inl (a, b, c, d, e) => .load a b c d e
    | .inr (.inl (a, b, c)) => .store a b c
    | .inr (.inr ((a, b, c, d, e, f, g, h))) => .atom a b c d e f g h)
  fun x => by cases x <;> rfl

/-- An access of the AP. -/
def codecApAcc : Codec ApAcc := (Codec.nat.pair (Codec.nat.pair (Codec.nat.pair (Codec.nat.pair (Codec.nat.pair (Codec.bool.pair
  codecApKind)))))).iso (fun x => (x.perf, x.issue, x.cls, x.line, x.lane, x.hand, x.kind)) (fun (a, b, c, d, e, f, g) => ⟨a, b,
  c, d, e, f, g⟩) fun _ => rfl

/-- A reply. -/
def codecRatomReply : Codec RatomReply := (Codec.nat.pair (Codec.bool.pair (((Codec.nat.pair Codec.nat).list).pair
  Codec.bool))).iso (fun x => (x.value, x.poison, x.events, x.bad)) (fun (a, b, c, d) => ⟨a, b, c, d⟩) fun _ => rfl

/-- A remote atomic. -/
def codecRatom : Codec Ratom := (Codec.nat.pair (Codec.nat.pair (Codec.nat.pair (Codec.nat.pair (Codec.bool.pair (Codec.nat.pair
  (Codec.nat.pair (Codec.nat.pair (codecRatomReply.option.pair Codec.nat.option))))))))).iso (fun x => (x.id, x.issue, x.land,
  x.cls, x.own, x.addr, x.w, x.vs, x.reply, x.homed)) (fun (a, b, c, d, e, f, g, h, i, j) => ⟨a, b, c, d, e, f, g, h, i, j⟩) fun
  _ => rfl

/-- A name. -/
def codecCond : Codec Cond := Codec.enum [.eq, .ne, .lt, .le, .gt, .ge, .ltz, .lez, .gtz, .gez] fun x => by cases x <;> decide

/-- A sleeping WAITA. -/
def codecSleep : Codec Sleep := (Codec.nat.pair (Codec.nat.pair ((Codec.bits 32).pair ((Codec.bits 32).pair (Codec.nat.pair
  (codecCond.pair (Codec.nat.pair (Codec.nat.pair Codec.nat)))))))).iso (fun x => (x.line, x.lane, x.w0, x.w1, x.issue, x.cond,
  x.addr, x.cmp, x.cls)) (fun (a, b, c, d, e, f, g, h, i) => ⟨a, b, c, d, e, f, g, h, i⟩) fun _ => rfl

/-- The access processor. -/
def codecAp : Codec Ap := (codecApAcc.list.pair (codecRatom.list.pair (codecSleep.option.pair Codec.nat))).iso (fun x =>
  (x.accs, x.ratoms, x.sleep, x.notBefore)) (fun (a, b, c, d) => ⟨a, b, c, d⟩) fun _ => rfl

/-- What a flit carries. -/
def codecPayload : Codec Payload := ((Codec.nat.pair Codec.nat).sum ((Codec.nat.pair (Codec.nat.pair (Codec.nat.pair
  (Codec.nat.pair Codec.nat)))).sum ((Codec.nat.pair (codecAtomOp.pair (Codec.nat.pair (Codec.nat.pair (Codec.nat.pair
  (Codec.nat.pair (Codec.nat.pair codecRnd))))))).sum ((Codec.nat.pair (Codec.nat.pair (Codec.bool.pair ((Codec.nat.pair
  Codec.nat).list)))).sum ((Codec.nat.pair Codec.nat)))))).iso
  (fun x => match x with
    | .line a b => .inl (a, b)
    | .message a b c d e => .inr (.inl (a, b, c, d, e))
    | .request a b c d e f g h => .inr (.inr (.inl (a, b, c, d, e, f, g, h)))
    | .reply a b c d => .inr (.inr (.inr (.inl (a, b, c, d))))
    | .share a b => .inr (.inr (.inr (.inr ((a, b))))))
  (fun x => match x with
    | .inl (a, b) => .line a b
    | .inr (.inl (a, b, c, d, e)) => .message a b c d e
    | .inr (.inr (.inl (a, b, c, d, e, f, g, h))) => .request a b c d e f g h
    | .inr (.inr (.inr (.inl (a, b, c, d)))) => .reply a b c d
    | .inr (.inr (.inr (.inr ((a, b))))) => .share a b)
  fun x => by cases x <;> rfl

/-- A flit. -/
def codecFlit : Codec Flit := (Codec.nat.pair (Codec.nat.pair (((Codec.nat.pair Codec.nat).list).pair (Codec.nat.pair
  (codecPayload.pair Codec.bool))))).iso (fun x => (x.srcX, x.srcY, x.tgts, x.born, x.pay, x.bad)) (fun (a, b, c, d, e, f) =>
  ⟨a, b, c, d, e, f⟩) fun _ => rfl

/-- A router. -/
def codecRouter : Codec Router := (codecFlit.list.pair (codecFlit.list.pair (codecFlit.list.pair (codecFlit.list.pair
  (codecFlit.list.pair codecFlit.list))))).iso (fun x => (x.negX, x.posX, x.negY, x.posY, x.inj, x.out)) (fun (a, b, c, d, e, f)
  => ⟨a, b, c, d, e, f⟩) fun _ => rfl

/-- A lane of the seam link. -/
def codecSeamLane : Codec SeamLane := (Codec.nat.pair (Codec.bool.pair codecFlit.option.list)).iso (fun x => (x.row, x.east,
  x.stages)) (fun (a, b, c) => ⟨a, b, c⟩) fun _ => rfl

/-- A message. -/
def codecMsg : Codec Msg := (Codec.nat.pair (Codec.nat.pair (Codec.nat.pair (Codec.nat.pair (Codec.nat.pair (Codec.nat.pair
  Codec.bool)))))).iso (fun x => (x.ord, x.width, x.value, x.srcX, x.srcY, x.came, x.bad)) (fun (a, b, c, d, e, f, g) => ⟨a, b,
  c, d, e, f, g⟩) fun _ => rfl

/-- A message channel. -/
def codecChannel : Codec Channel := (Codec.nat.pair (Codec.nat.pair (codecMsg.list.pair Codec.nat))).iso (fun x => (x.arrived,
  x.taken, x.msgs, x.held)) (fun (a, b, c, d) => ⟨a, b, c, d⟩) fun _ => rfl

/-- A receive. -/
def codecRecv : Codec Recv := (Codec.nat.pair (Codec.nat.pair (Codec.nat.pair (Codec.nat.pair (Codec.nat.pair (Codec.nat.pair
  Codec.nat)))))).iso (fun x => (x.ch, x.ord, x.vs, x.w, x.cls, x.issue, x.land)) (fun (a, b, c, d, e, f, g) => ⟨a, b, c, d, e,
  f, g⟩) fun _ => rfl

/-- The network interface. -/
def codecNet : Codec Net := (codecRouter.pair ((codecChannel.vector 16).pair (codecRecv.list.pair ((Codec.nat.option.vector
  32).pair Codec.nat.option)))).iso (fun x => (x.router, x.chans, x.recvs, x.bars, x.hold)) (fun (a, b, c, d, e) => ⟨a, b, c, d,
  e⟩) fun _ => rfl

/-- A completion signal word. -/
def codecSignal : Codec Signal := (Codec.nat.pair (Codec.nat.pair (Codec.nat.pair Codec.nat))).iso (fun x => (x.fx, x.fy, x.off,
  x.value)) (fun (a, b, c, d) => ⟨a, b, c, d⟩) fun _ => rfl

/-- A signal word under way. -/
def codecSignalFlight : Codec SignalFlight := (Codec.nat.pair (codecSignal.pair (Codec.nat.pair (Codec.nat.pair
  Codec.nat)))).iso (fun x => (x.land, x.sig, x.srcX, x.srcY, x.unit)) (fun (a, b, c, d, e) => ⟨a, b, c, d, e⟩) fun _ => rfl

/-- A name. -/
def codecRoute : Codec Route := Codec.enum [.mesh, .read, .write, .blockRead, .inkRead, .inkWrite] fun x => by cases x <;> decide

/-- A line of a command. -/
def codecCeLine : Codec CeLine := (Codec.nat.pair (Codec.nat.pair (codecRoute.pair (Codec.nat.pair (Codec.nat.pair
  (Codec.nat.pair (Codec.nat.pair (Codec.nat.pair (Codec.nat.pair (Codec.nat.pair (((Codec.nat.pair Codec.nat).list).pair
  (((Codec.nat.pair Codec.nat).list).pair (Codec.nat.option.pair (((Codec.nat.pair Codec.nat).list))))))))))))))).iso (fun x =>
  (x.cmd, x.idx, x.route, x.start, x.land, x.pa, x.off, x.len, x.data, x.poison, x.targets, x.got, x.outside, x.bad)) (fun (a,
  b, c, d, e, f, g, h, i, j, k, l, m, n) => ⟨a, b, c, d, e, f, g, h, i, j, k, l, m, n⟩) fun _ => rfl

/-- An extent. -/
def codecExtent : Codec Extent := (Codec.nat.pair (Codec.nat.pair (Codec.nat.pair (Codec.bool.pair Codec.bool)))).iso (fun x =>
  (x.place, x.first, x.len, x.read, x.lane)) (fun (a, b, c, d, e) => ⟨a, b, c, d, e⟩) fun _ => rfl

/-- A block. -/
def codecBlockAt : Codec BlockAt := (Codec.nat.pair (Codec.nat.pair (Codec.nat.pair Codec.nat))).iso (fun x => (x.first,
  x.lines, x.addr, x.fmt)) (fun (a, b, c, d) => ⟨a, b, c, d⟩) fun _ => rfl

/-- A block copy. -/
def codecBlockCopy : Codec BlockCopy := (codecBlockAt.list.pair (Codec.bool.pair (Codec.bool.pair (Codec.bool.pair
  (((Codec.nat.pair Codec.nat).option).pair (((Codec.nat.pair (Codec.nat.pair Codec.nat)).list).pair (((Codec.nat.pair
  (Codec.nat.pair (Codec.nat.pair Codec.nat))).list).pair Codec.nat))))))).iso (fun x => (x.blocks, x.virtSrc, x.virtDst,
  x.transpose, x.rnext, x.buf, x.wq, x.wnext)) (fun (a, b, c, d, e, f, g, h) => ⟨a, b, c, d, e, f, g, h⟩) fun _ => rfl

/-- An item of an Inkwell command. -/
def codecInkItem : Codec InkItem := (Codec.nat.pair (((Codec.nat.pair Codec.nat).list).pair (Codec.nat.pair (Codec.nat.pair
  Codec.nat)))).iso (fun x => (x.item, x.got, x.latest, x.left, x.sent)) (fun (a, b, c, d, e) => ⟨a, b, c, d, e⟩) fun _ => rfl

/-- An Inkwell command. -/
def codecInk : Codec Ink := (codecInkItem.list.pair (((Codec.nat.pair Codec.nat).option).pair (Codec.nat.option.pair
  (Codec.nat.option.pair Codec.nat.list)))).iso (fun x => (x.items, x.fail, x.lastRead, x.lastWrite, x.ev)) (fun (a, b, c, d, e)
  => ⟨a, b, c, d, e⟩) fun _ => rfl

/-- What a command is. -/
def codecCeKind : Codec CeKind := (Codec.unit.sum (codecBlockCopy.sum (codecInk.sum Codec.nat))).iso
  (fun x => match x with
    | .plain => .inl ()
    | .block a => .inr (.inl a)
    | .ink a => .inr (.inr (.inl a))
    | .coll a => .inr (.inr (.inr a)))
  (fun x => match x with
    | .inl () => .plain
    | .inr (.inl a) => .block a
    | .inr (.inr (.inl a)) => .ink a
    | .inr (.inr (.inr a)) => .coll a)
  fun x => by cases x <;> rfl

/-- A command. -/
def codecCeCmd : Codec CeCmd := (Codec.nat.pair (Codec.nat.pair (Codec.nat.pair (Codec.nat.pair (Codec.nat.pair (Codec.nat.pair
  (Codec.nat.pair (Codec.nat.pair (Codec.nat.pair (Codec.nat.pair (Codec.nat.pair (Codec.bool.pair (codecSignal.option.pair
  (((Codec.nat.pair Codec.nat).list).pair (codecExtent.list.pair (Codec.nat.pair (Codec.nat.pair (Codec.nat.pair
  (Codec.nat.option.pair (Codec.nat.option.pair (((Codec.nat.pair Codec.nat).list).pair (codecCeKind.pair (Codec.nat.pair
  Codec.nat.option))))))))))))))))))))))).iso (fun x => (x.id, x.seq, x.line, x.lane, x.issue, x.fn, x.cls, x.mod, x.desc, x.q0,
  x.total, x.own, x.sig, x.targets, x.exts, x.left, x.perf, x.fin, x.e, x.stop, x.fault, x.kind, x.dstart, x.sland)) (fun (a, b,
  c, d, e, f, g, h, i, j, k, l, m, n, o, p, q, r, s, t, u, v, w, y) => ⟨a, b, c, d, e, f, g, h, i, j, k, l, m, n, o, p, q, r, s,
  t, u, v, w, y⟩) fun _ => rfl

/-- A share of a collective. -/
def codecShare : Codec Share := (Codec.nat.pair (Codec.nat.pair (Codec.nat.pair (Codec.nat.pair (Codec.nat.pair (Codec.nat.pair
  (Codec.nat.pair (Codec.nat.list.pair (Codec.bool.pair (codecRnd.pair (Codec.bool.pair ((Codec.bits 64))))))))))))).iso (fun x
  => (x.num, x.key, x.issue, x.land, x.q0, x.dst, x.data, x.marks, x.read, x.rnd, x.isat, x.seed)) (fun (a, b, c, d, e, f, g, h,
  i, j, k, l) => ⟨a, b, c, d, e, f, g, h, i, j, k, l⟩) fun _ => rfl

/-- A slot cursor. -/
def codecSlotCursor : Codec SlotCursor := (Codec.nat.pair Codec.nat).iso (fun x => (x.ch, x.last)) (fun (a, b) => ⟨a, b⟩) fun _
  => rfl

/-- The copy engine. -/
def codecCe : Codec Ce := (Codec.nat.pair (Codec.nat.pair (codecCeCmd.list.pair (codecCeLine.list.pair
  (codecSlotCursor.list.pair (Codec.nat.pair (codecShare.list.pair (Codec.nat.pair (Codec.nat.pair (((Codec.nat.pair
  (Codec.nat.pair (Codec.nat.pair Codec.nat))).list))))))))))).iso (fun x => (x.nextId, x.lastReq, x.cmds, x.lines, x.cursors,
  x.collSeq, x.shares, x.sigFree, x.sigLand, x.parts)) (fun (a, b, c, d, e, f, g, h, i, j) => ⟨a, b, c, d, e, f, g, h, i, j⟩)
  fun _ => rfl

/-- A record of operand B. -/
def codecRec : Codec Rec := (Codec.nat.pair (Codec.nat.pair Codec.nat)).iso (fun x => (x.start, x.size, x.form)) (fun (a, b, c)
  => ⟨a, b, c⟩) fun _ => rfl

/-- A chunk. -/
def codecChunk : Codec Chunk := (Codec.nat.pair (Codec.nat.pair (Codec.nat.pair (((Codec.nat.pair (Codec.nat.pair
  Codec.nat)).option))))).iso (fun x => (x.a, x.b, x.form, x.fault)) (fun (a, b, c, d) => ⟨a, b, c, d⟩) fun _ => rfl

/-- An MMA. -/
def codecMma : Codec Mma := (Codec.nat.pair (Codec.nat.pair ((Codec.bits 32).pair ((Codec.bits 32).pair (Codec.nat.pair
  (Codec.nat.pair (Codec.nat.pair (Codec.nat.pair (Codec.nat.pair (Codec.nat.pair (Codec.nat.pair (Codec.nat.pair
  (Codec.nat.pair (Codec.bool.pair (Codec.nat.pair (Codec.bool.pair (Codec.nat.pair (codecRec.list.pair (Codec.nat.option.pair
  (codecChunk.list.pair Codec.nat)))))))))))))))))))).iso (fun x => (x.line, x.lane, x.w0, x.w1, x.issue, x.cls, x.debit, x.acc,
  x.fa, x.fb, x.n, x.sp, x.wb, x.ablk, x.path, x.sat, x.t, x.recs, x.noSize, x.chunks, x.lastStart)) (fun (a, b, c, d, e, f, g,
  h, i, j, k, l, m, n, o, p, q, r, s, t, u) => ⟨a, b, c, d, e, f, g, h, i, j, k, l, m, n, o, p, q, r, s, t, u⟩) fun _ => rfl

/-- Where MX writes. -/
def codecMxDest : Codec MxDest := ((Codec.nat.pair Codec.nat).sum ((Codec.nat.pair (Codec.nat.pair Codec.nat)).sum
  ((Codec.nat.pair (Codec.nat.pair (Codec.nat.pair Codec.nat)))))).iso
  (fun x => match x with
    | .acc a b => .inl (a, b)
    | .spad a b c => .inr (.inl (a, b, c))
    | .wbuf a b c d => .inr (.inr ((a, b, c, d))))
  (fun x => match x with
    | .inl (a, b) => .acc a b
    | .inr (.inl (a, b, c)) => .spad a b c
    | .inr (.inr ((a, b, c, d))) => .wbuf a b c d)
  fun x => by cases x <;> rfl

/-- A pending landing of MX. -/
def codecMxPend : Codec MxPend := (Codec.nat.pair (Codec.nat.pair (Codec.nat.pair (codecMxDest.pair (((Codec.nat.pair
  Codec.nat).list).pair (((Codec.nat.pair Codec.nat).option))))))).iso (fun x => (x.land, x.issue, x.cls, x.dest, x.events,
  x.poison)) (fun (a, b, c, d, e, f) => ⟨a, b, c, d, e, f⟩) fun _ => rfl

/-- The matrix engine. -/
def codecMx : Codec Mx := (codecMma.option.pair (codecMxPend.list.pair (Codec.nat.pair Codec.nat))).iso (fun x => (x.mma,
  x.pend, x.wportFree, x.aportFree)) (fun (a, b, c, d) => ⟨a, b, c, d⟩) fun _ => rfl

/-- A window slot. -/
def codecWindow : Codec Window := (Codec.bool.pair (Codec.bool.pair (Codec.nat.pair (Codec.bool.pair (Codec.nat.pair
  Codec.nat))))).iso (fun x => (x.v, x.w, x.size, x.host, x.vpn, x.pa)) (fun (a, b, c, d, e, f) => ⟨a, b, c, d, e, f⟩) fun _ =>
  rfl

/-- The CSRs. -/
def codecCsrs : Codec Csrs := (Codec.bool.pair ((Codec.bits 20).pair ((Codec.bits 20).pair (Codec.nat.pair (Codec.nat.pair
  (Codec.nat.pair (Codec.nat.pair (Codec.nat.pair ((Codec.bits 64).pair (((Codec.bits 64).vector 256).pair ((Codec.bits 4).pair
  ((Codec.bits 64).pair (((Codec.bits 64).vector 6).pair (((Codec.bits 64).vector 6).pair ((Codec.bits 12).pair (Codec.nat.pair
  ((Codec.bits 32)))))))))))))))))).iso (fun x => (x.sbmode, x.sp, x.splim, x.ebal, x.erate, x.ecap, x.hlat, x.ovcur, x.ovbase,
  x.ovt, x.fpctl, x.rseed, x.nevcfg, x.nevcnt, x.mxctl, x.ralat, x.barph)) (fun (a, b, c, d, e, f, g, h, i, j, k, l, m, n, o, p,
  q) => ⟨a, b, c, d, e, f, g, h, i, j, k, l, m, n, o, p, q⟩) fun _ => rfl

/-- The slices. -/
def codecSlices : Codec Slices := ((Codec.bits 16384).pair ((Codec.bits 1280).pair ((Codec.bits 16).pair Codec.nat.list))).iso
  (fun x => (x.sf, x.tags, x.preds, x.bad)) (fun (a, b, c, d) => ⟨a, b, c, d⟩) fun _ => rfl

/-- The stores. -/
def codecStores : Codec Stores := (((Codec.nat.pair (Codec.bits 8)).list).pair (Codec.nat.list.pair (Codec.nat.list.pair
  (Codec.nat.list.pair ((Codec.bits 2048).pair (Codec.nat.list.pair Codec.nat)))))).iso (fun x => (x.mem, x.poison, x.bad,
  x.badTim, x.forms, x.soft, x.cor)) (fun (a, b, c, d, e, f, g) => ⟨a, b, c, d, e, f, g⟩) fun _ => rfl

/-- The tables of an image. -/
def codecTileTables : Codec TileTables := (((Codec.nat.pair ((Codec.nat.pair (Codec.nat.pair (Codec.nat.pair
  Codec.nat))).list)).list).pair (((Codec.nat.pair (Codec.nat.pair Codec.nat)).list).pair (Codec.nat.option.pair
  (((Codec.nat.pair Codec.nat).list))))).iso (fun x => (x.livemaps, x.penlifts, x.haltMap, x.trailers)) (fun (a, b, c, d) => ⟨a,
  b, c, d⟩) fun _ => rfl

/-- A calendar entry. -/
def codecCalEntry : Codec CalEntry := (Codec.nat.pair (Codec.nat.pair (Codec.nat.pair (Codec.nat.pair Codec.nat)))).iso (fun x
  => (x.ch, x.first, x.last, x.fx, x.fy)) (fun (a, b, c, d, e) => ⟨a, b, c, d, e⟩) fun _ => rfl

/-- A launch record. -/
def codecLaunch : Codec Launch := (Codec.nat.pair (Codec.nat.pair (Codec.bool.pair ((Codec.bits 32).pair ((Codec.bits 64).pair
  (Codec.nat.pair (Codec.nat.pair ((Codec.bits 32).pair (Codec.nat.pair ((Codec.bits 32).pair ((Codec.bits 16).pair ((Codec.bits
  64).pair (Codec.nat.pair Codec.nat))))))))))))).iso (fun x => (x.queue, x.recNo, x.irq, x.job, x.image, x.length, x.domain,
  x.phase, x.members, x.hmask, x.lpkg, x.save, x.timeout, x.epoch)) (fun (a, b, c, d, e, f, g, h, i, j, k, l, m, n) => ⟨a, b, c,
  d, e, f, g, h, i, j, k, l, m, n⟩) fun _ => rfl

/-- The record of a tile in a save region (R174): its CSRs with EBAL, ERATE and ECAP, the trap CSRs (R177, R464), the profiling
counters (R497), the state of R157 with its queues and fetch unit, the items saved of its stores and slices, tokens, the window table as page numbers,
its units, and what the image gives it. -/
structure TileRec where
  csr : Csrs
  trap : TrapCsrs
  cnt : Vector Dword 8
  ctl : Control
  slices : Slices
  stores : Stores
  tok : Vector Nat 8
  wins : Vector Window 32
  pend : List PendWrite
  ap : Ap
  ce : Ce
  mx : Mx
  net : Net
  tables : TileTables
  halting : Bool
  halted : Bool
  deriving DecidableEq, Repr, Inhabited

/-- The tile records of a save region, with what the folio holds beside its tiles (R174, log 9). -/
structure FolioRec where
  tiles : List TileRec
  launch : Launch
  calendar : List CalEntry
  seams : List SeamLane
  lastPen : Nat
  turns : List (Nat × Nat)
  barLast : Vector (Nat × Nat) 32
  signals : List SignalFlight
  deriving DecidableEq, Repr, Inhabited

/-- The trap CSRs. -/
def codecTrapCsrs : Codec TrapCsrs := ((Codec.bits 64).pair ((Codec.bits 64).pair ((Codec.bits 64).pair ((Codec.bits 64).pair
  ((Codec.bits 64).pair ((Codec.bits 64).pair ((Codec.bits 64).pair ((Codec.bits 64).pair ((Codec.bits 64).pair
  (Codec.bool.pair (Codec.bool.pair (Codec.nat.pair Codec.bool)))))))))))).iso (fun x => (x.tcause, x.tcyc, x.tpos, x.targ,
  x.tinfo, x.tinfo2, x.tvec, x.tloc0, x.tloc1, x.act, x.skip, x.hcyc, x.ret)) (fun (a, b, c, d, e, f, g, h, i, j, k, l, m) =>
  ⟨a, b, c, d, e, f, g, h, i, j, k, l, m⟩) fun _ => rfl

/-- The record of a tile. -/
def codecTileRec : Codec TileRec := (codecCsrs.pair (codecTrapCsrs.pair (((Codec.bits 64).vector 8).pair
  (codecControl.pair (codecSlices.pair (codecStores.pair ((Codec.nat.vector 8).pair ((codecWindow.vector 32).pair
  (codecPendWrite.list.pair (codecAp.pair (codecCe.pair (codecMx.pair (codecNet.pair (codecTileTables.pair (Codec.bool.pair
  Codec.bool))))))))))))))).iso (fun x => (x.csr, x.trap, x.cnt, x.ctl, x.slices, x.stores, x.tok, x.wins, x.pend,
  x.ap, x.ce, x.mx, x.net, x.tables, x.halting, x.halted)) (fun (a, b, c, d, e, f, g, h, i, j, k, l, m, n, o, p) => ⟨a, b, c,
  d, e, f, g, h, i, j, k, l, m, n, o, p⟩) fun _ => rfl

/-- The records of a folio. -/
def codecFolioRec : Codec FolioRec := (codecTileRec.list.pair (codecLaunch.pair (codecCalEntry.list.pair
  (codecSeamLane.list.pair (Codec.nat.pair (((Codec.nat.pair Codec.nat).list).pair (((Codec.nat.pair Codec.nat).vector 32).pair
  codecSignalFlight.list))))))).iso (fun x => (x.tiles, x.launch, x.calendar, x.seams, x.lastPen, x.turns, x.barLast,
  x.signals)) (fun (a, b, c, d, e, f, g, h) => ⟨a, b, c, d, e, f, g, h⟩) fun _ => rfl

end Sys2Proof.Machine
end

