-- ==== Sys2Proof/Machine/Net.lean ====
section
/-! DEFINITION. The network interface's instructions (R389-R392): messages, receives and barriers. Flits are moved by the
cycle (R132), and a barrier completes there (R392). -/

namespace Sys2Proof.Machine

/-- The description of a message instruction (R389). -/
def netInfo (cause : Option Nat) (srcs dsts : List (Nat × Nat)) (ecl acc : Nat) : Info :=
  { cause := cause, srcs := srcs, dsts := dsts, preds := [], wides := [], cls := ecl, least := 1, rv := false, sv := false
    ov := true, acc := some acc, hand := false }

/-- A message leaves the tile in the next cycle, or the outward-word fence traps (R390, R418). -/
def Tile.sendMessage (t : Tile) (c : Ctx) (dx dy ch width value cls : Nat) : Except Raise Tile :=
  match c.place.target c.fx c.fy dx dy with
  | none => .error (c.raiseInfo 66 (fenceInfo c.fx c.fy dx dy) 0)
  | some x =>
    let f : Flit := { srcX := c.fx, srcY := c.fy, tgts := [x], born := c.k + 1, bad := false
                      pay := .message ch width value c.k cls }
    .ok { t with net := { t.net with router := { t.net.router with inj := t.net.router.inj ++ [f] } } }

/-- SEND (R390). -/
def execSend (o : NetSend) (s : State) : Host.Outcome State Fault Refusal :=
  let w := widthBits o.wv
  issue (fun _ => netInfo (Instr.send o).cause [spanOf o.vs.toNat w] [] o.ecl.toNat o.ocl.toNat) noHold
    (fun c t => t.sendMessage c o.dx.toNat o.dy.toNat o.ch.toNat w (t.spanBits o.vs.toNat w) (c.cls o.ocl.toNat)) s

/-- SENDI (R390). -/
def execSendi (o : NetSendi) (s : State) : Host.Outcome State Fault Refusal :=
  issue (fun _ => netInfo (Instr.sendi o).cause [] [] o.ecl.toNat o.ocl.toNat) noHold
    (fun c t => t.sendMessage c o.dx.toNat o.dy.toNat o.ch.toNat 16 o.imm.toNat (c.cls o.ocl.toNat)) s

/-- A channel of the tile (R391). -/
def Tile.chan (t : Tile) (ch : BitVec 4) : Channel := vget t.net.chans ch.toNat

/-- A receive takes its place in the channel's order; its message lands at k + lat (R391). -/
def Tile.receive (t : Tile) (c : Ctx) (o : NetRecv) : Tile :=
  let h := t.chan o.ch
  let r : Recv := { ch := o.ch.toNat, ord := h.taken, vs := o.vs.toNat, w := widthBits o.wv, cls := c.cls o.ocl.toNat
                    issue := c.k, land := c.k + o.lat.toNat }
  { t with net := { t.net with
    chans := vset t.net.chans o.ch.toNat { h with taken := h.taken + 1 }
    recvs := t.net.recvs ++ [r] } }

/-- The description of RECV and RECVW. -/
def recvInfo (cause : Option Nat) (o : NetRecv) : Info :=
  netInfo cause [] [spanOf o.vs.toNat (widthBits o.wv)] o.ecl.toNat o.ocl.toNat

/-- RECV (R391). -/
def execRecv (o : NetRecv) (s : State) : Host.Outcome State Fault Refusal :=
  issue (fun _ => recvInfo (Instr.recv o).cause o) noHold (fun c t => .ok (t.receive c o)) s

/-- RECVW (R391): it holds until its channel holds a message that no earlier receive takes. -/
def execRecvw (o : NetRecv) (s : State) : Host.Outcome State Fault Refusal :=
  issue (fun _ => recvInfo (Instr.recvw o).cause o)
    (fun _ t => if (t.chan o.ch).arrived ≤ (t.chan o.ch).taken then some .wait else none)
    (fun c t => .ok (t.receive c o)) s

/-- The description of the barrier instructions (R392). -/
def barInfo : Info :=
  { cause := none, srcs := [], dsts := [], preds := [], wides := [], cls := 0, least := 0, rv := false, sv := false
    ov := false, acc := none, hand := false }

/-- An arrival at a barrier (R392): a second one before the first has completed is cause 65. -/
def Tile.arrive (t : Tile) (c : Ctx) (n : Nat) : Except Raise Tile :=
  match vget t.net.bars n with
  | some _ => .error (c.raiseInfo 65 n 0)
  | none => .ok { t with net := { t.net with bars := vset t.net.bars n (some c.k) } }

/-- BAR (R392): later entries of the queue wait for the completion. -/
def execBar (n : BitVec 5) (s : State) : Host.Outcome State Fault Refusal :=
  issue (fun _ => barInfo) noHold
    (fun c t => (t.arrive c n.toNat).map fun t => { t with net := { t.net with hold := some n.toNat } }) s

/-- BARA (R392). -/
def execBara (n : BitVec 5) (s : State) : Host.Outcome State Fault Refusal :=
  issue (fun _ => barInfo) noHold (fun c t => t.arrive c n.toNat) s

/-- BARW (R392): it holds until the tile's latest arrival has completed. -/
def execBarw (n : BitVec 5) (s : State) : Host.Outcome State Fault Refusal :=
  issue (fun _ => barInfo) (fun _ t => if (vget t.net.bars n.toNat).isSome then some .wait else none)
    (fun _ t => .ok t) s

/-- Flits in ascending order of their sender (R391, R319). -/
def sortFlits (l : List Flit) : List Flit :=
  l.foldr (fun f r =>
    let less (g : Flit) : Bool := decide (g.srcY < f.srcY) || (g.srcY == f.srcY && decide (g.srcX < f.srcX))
    r.takeWhile less ++ f :: r.dropWhile less) []

/-- Queues a message that has arrived in cycle k (R391). -/
def Tile.queueMessage (k : Nat) (t : Tile) (f : Flit) : Tile :=
  match f.pay with
  | .message ch width value _ _ =>
    let h := vget t.net.chans ch
    let m : Msg := { ord := h.arrived, width := width, value := value, srcX := f.srcX, srcY := f.srcY
                     came := k, bad := f.bad }
    { t with net := { t.net with chans := vset t.net.chans ch { h with arrived := h.arrived + 1, msgs := h.msgs ++ [m] } } }
  | _ => t

/-- Whether a flit is a message. -/
def Flit.isMessage (f : Flit) : Bool := match f.pay with
  | .message .. => true
  | _ => false

/-- The messages that have arrived are queued, and the receives due in cycle k land theirs, or trap as late (R391) or as
uncorrectable in the landing buffer (R475, log 59). -/
def Tile.messages (t : Tile) (k : Nat) : Tile :=
  let out := t.net.router.out
  let t := { t with net := { t.net with router := { t.net.router with out := out.filter fun f => !f.isMessage } } }
  let t := (sortFlits (out.filter Flit.isMessage)).foldl (Tile.queueMessage k) t
  let t := { t with net := { t.net with chans := t.net.chans.map fun (h : Channel) => { h with held := h.msgs.length } } }
  t.net.recvs.foldl (fun t r =>
    if r.land != k then t
    else
      let h := vget t.net.chans r.ch
      match h.msgs.find? fun m => m.ord == r.ord with
      | none => t.addRaise (raiseEnd 64 k 0)
      | some m =>
        let t := { t with net := { t.net with
          chans := vset t.net.chans r.ch { h with msgs := h.msgs.filter fun x => x.ord != r.ord } } }
        if m.bad then t.addRaise (raiseEnd 84 4 0)
        else t.post
               { land := k, issue := r.issue, writer := 8, hand := false
                 dest := .slices r.vs (r.w / 4) (m.value % 2 ^ r.w) 0, events := [] }) t

/-- Messages arrive at the tile (R391). -/
def execMessageArrival (s : State) : Host.Outcome State Fault Refusal :=
  match s.at? with
  | none => .fault .noTile
  | some (f, t, c) => .next (s.putTile f (t.messages c.cyc))

end Sys2Proof.Machine
end

