-- ==== Sys2Proof/Machine/Mesh.lean ====
section
/-! DEFINITION. The mesh in the folio's abstract frame (R131, R132, R377): the grants of a cycle, the moves, the seam links
and what an ejected flit does on arrival. Ports and outputs are numbered -X 0, +X 1, -Y 2, +Y 3 and injection or ejection 4;
an output has the number of the port that the flit enters next. -/

namespace Sys2Proof.Machine

/-- The flits of a router's port. -/
def Router.port (r : Router) (p : Nat) : List Flit :=
  match p with
  | 0 => r.negX | 1 => r.posX | 2 => r.negY | 3 => r.posY | _ => r.inj

/-- Replaces the flits of a router's port. -/
def Router.setPort (r : Router) (p : Nat) (l : List Flit) : Router :=
  match p with
  | 0 => { r with negX := l }
  | 1 => { r with posX := l }
  | 2 => { r with negY := l }
  | 3 => { r with posY := l }
  | _ => { r with inj := l }

/-- Changes a tile's router. -/
def Tile.onRouter (t : Tile) (h : Router → Router) : Tile :=
  { t with net := { t.net with router := h t.net.router } }

/-- The output that a route to a target takes at a router: along X, then along Y (R131). -/
def routeOut (x y : Nat) (g : Nat × Nat) : Nat :=
  if x < g.1 then 0 else if g.1 < x then 1 else if y < g.2 then 2 else if g.2 < y then 3 else 4

/-- The rank of a port at an output, lowest first (R132). -/
def portRank (p o : Nat) : Nat :=
  if o = 4 then p
  else if p = o then 0
  else if p = 0 then 1
  else if p = 1 then 2
  else if p = 4 then 4
  else 3

/-- The router that an output leads to. -/
def nextTile (x y o : Nat) : Nat × Nat :=
  match o with
  | 0 => (x + 1, y) | 1 => (x - 1, y) | 2 => (x, y + 1) | _ => (x, y - 1)

/-- Whether a step along X from a column crosses the declared seam (R131). -/
def crossesSeam (p : Place) (x o : Nat) : Bool :=
  p.seam != 0 && ((o == 0 && x + 1 == p.seam) || (o == 1 && x == p.seam))

/-- Flits at a port of the router at some coordinates. -/
def Folio.portLen (f : Folio) (x y p : Nat) : Nat :=
  match f.tiles[f.tileAt x y]? with
  | some t => (t.net.router.port p).length
  | none => 4

/-- Whether a seam link's flits are held: its last stage is taken and the far buffer has no place (R132). -/
def Folio.stalled (f : Folio) (l : SeamLane) : Bool :=
  (l.stages.getLast?.bind id).isSome
  && decide (4 ≤ f.portLen (if l.east then f.place.seam else f.place.seam - 1) l.row (if l.east then 0 else 1))

/-- The seam link of a row in a direction. -/
def Folio.lane? (f : Folio) (row : Nat) (east : Bool) : Option SeamLane :=
  f.seams.find? fun l => l.row == row && l.east == east

/-- Whether a mesh output can take a flit in this cycle (R132): occupancy as it stood at the cycle's start. -/
def Folio.outputFree (f : Folio) (x y o : Nat) : Bool :=
  if crossesSeam f.place x o then
    match f.lane? y (o == 0) with
    | some l => !(f.stalled l && (l.stages.head?.bind id).isSome)
    | none => false
  else
    let n := nextTile x y o
    decide (f.portLen n.1 n.2 o < 4)

/-- Whether a tile takes an ejected flit: a message needs a place in its channel at the cycle's start (R391, R132). -/
def Tile.accepts (t : Tile) (g : Flit) : Bool :=
  match g.pay with
  | .message ch .. => decide ((vget t.net.chans ch).held < 32)
  | _ => true

/-- A granted move: router, port, output, the flit with the targets that move. -/
structure Move where
  tile : Nat
  port : Nat
  out : Nat
  flit : Flit

/-- The flits that compete for an output of a router, as its ports' heads with the targets that use it (R132, R377). -/
def contenders (t : Tile) (x y o c : Nat) : List (Nat × Flit) :=
  [0, 1, 2, 3, 4].filterMap fun p =>
    match t.net.router.port p with
    | [] => none
    | g :: _ =>
      let l := g.tgts.filter fun d => routeOut x y d == o
      if c < g.born ∨ l.isEmpty then none else some (p, { g with tgts := l })

/-- The contender of the lowest rank. -/
def best (o : Nat) (l : List (Nat × Flit)) : Option (Nat × Flit) :=
  l.foldl (fun m x => match m with
    | none => some x
    | some y => if portRank x.1 o < portRank y.1 o then some x else some y) none

/-- The grants of a router and how many contenders lost (R132, R496). -/
def Folio.routerMoves (f : Folio) (i : Nat) (t : Tile) (c : Nat) : List Move × Nat :=
  let x := i % f.place.w
  let y := i / f.place.w
  [0, 1, 2, 3, 4].foldl (fun acc o =>
    let l := contenders t x y o c
    let can := if o = 4 then l.filter fun p => p.2.bad || t.accepts p.2 else if f.outputFree x y o then l else []
    match best o can with
    | some p => (acc.1 ++ [{ tile := i, port := p.1, out := o, flit := p.2 }], acc.2 + l.length - 1)
    | none => (acc.1, acc.2 + l.length)) ([], 0)

/-- A port's head loses the targets that moved; with none left it gives up its place (R377). -/
def Router.release (r : Router) (m : Move) : Router :=
  match r.port m.port with
  | [] => r
  | g :: rest =>
    let l := g.tgts.filter fun d => !m.flit.tgts.contains d
    r.setPort m.port (if l.isEmpty then rest else { g with tgts := l } :: rest)

/-- Counts a move on its abstract port (R496). -/
def Tile.countMove (t : Tile) (p : Nat) : Tile :=
  { t with prof := { t.prof with flits := vset t.prof.flits p (vget t.prof.flits p + 1) } }

/-- Performs a move: the flit leaves its port and enters the next router, the seam link or the ejection output. An
uncorrectable flit is discarded with cause 84 (R475). -/
def Folio.move (f : Folio) (c : Nat) (m : Move) : Folio :=
  let x := m.tile % f.place.w
  let y := m.tile / f.place.w
  let g := { m.flit with born := c + 1 }
  let f := f.onTile m.tile fun t => (t.onRouter fun r => r.release m).countMove m.port
  if m.flit.bad then f.onTile m.tile fun t => t.addRaise (raiseEnd 84 m.port 0)
  else if m.out = 4 then f.onTile m.tile fun t => t.onRouter fun r => { r with out := r.out ++ [g] }
  else if crossesSeam f.place x m.out then
    { f with seams := f.seams.map fun l =>
        if l.row == y && l.east == (m.out == 0) then { l with stages := some g :: l.stages.drop 1 } else l }
  else
    let n := nextTile x y m.out
    f.onTile (f.tileAt n.1 n.2) fun t => t.onRouter fun r => r.setPort m.out (r.port m.out ++ [g])

/-- A seam link that is not held advances by one stage; the flit in its last stage enters the far router (R132). -/
def Folio.advance (f : Folio) (c : Nat) (l : SeamLane) : Folio :=
  let put (f : Folio) (st : List (Option Flit)) : Folio :=
    { f with seams := f.seams.map fun x => if x.row == l.row && x.east == l.east then { x with stages := st } else x }
  let f' := put f (none :: l.stages.dropLast)
  match l.stages.getLast?.bind id with
  | none => f'
  | some g =>
    let p := if l.east then 0 else 1
    f'.onTile (f.tileAt (if l.east then f.place.seam else f.place.seam - 1) l.row) fun t =>
      t.onRouter fun r => r.setPort p (r.port p ++ [{ g with born := c + 1 }])

/-- One cycle of the mesh (R132): grants from the state at the cycle's start, the seam links' advance, then the moves. -/
def Folio.hop (f : Folio) (c : Nat) : Folio :=
  let all := f.tiles.zipIdx.map fun p => (p.2, f.routerMoves p.2 p.1 c)
  let lanes := f.seams.filter fun l => !f.stalled l
  let f := { f with tiles := f.tiles.map fun t => t.onRouter fun r => { r with out := [] } }
  let f := lanes.foldl (fun f l => f.advance c l) f
  let f := (all.flatMap fun p => p.2.1).foldl (fun f m => f.move c m) f
  all.foldl (fun f p =>
    if p.2.2 = 0 then f
    else f.onTile p.1 fun t => { t with prof := { t.prof with lost := t.prof.lost + p.2.2 } }) f

/-- The mesh of the folio moves (R132). -/
def execFlitHop (s : State) : Host.Outcome State Fault Refusal :=
  match s.folio? s.cursor.folio with
  | none => .fault .noTile
  | some f => .next (s.setFolio (f.hop f.cycle))

/-- A line's flit has arrived at a target: its command knows (R364), and whether it is uncorrectable there (R475). -/
def Tile.markGot (t : Tile) (cmd idx : Nat) (x : Nat × Nat) (bad : Bool) : Tile :=
  { t with ce := { t.ce with lines := t.ce.lines.map fun l =>
      if l.route == .mesh && l.cmd == cmd && l.idx == idx then { l with got := x :: l.got, bad := if bad then x :: l.bad else l.bad }
      else l } }

/-- A line of another member's contribution has arrived (R122, R382). -/
def Tile.markPart (t : Tile) (num x y line : Nat) : Tile := { t with ce := { t.ce with parts := (num, x, y, line) :: t.ce.parts } }

/-- A reply has arrived and waits for its landing cycle (R350). -/
def Tile.markReply (t : Tile) (id value : Nat) (poison : Bool) (ev : List (Nat × Nat)) (bad : Bool) : Tile :=
  { t with ap := { t.ap with ratoms := t.ap.ratoms.map fun r =>
      if r.id == id then { r with reply := some ⟨value, poison, ev, bad⟩ } else r } }

/-- The lines and replies that were ejected in the last cycle reach the landing buffer of the tile at i (R123). -/
def Folio.absorb (f : Folio) (i : Nat) (t : Tile) : Folio :=
  let me := (i % f.place.w, i / f.place.w)
  let f := t.net.router.out.foldl (fun f g =>
    match g.pay with
    | .line cmd idx => f.onTile (f.tileAt g.srcX g.srcY) fun s => s.markGot cmd idx me g.bad
    | .reply id v p ev => f.onTile i fun s => s.markReply id v p ev g.bad
    | .share n l => f.onTile i fun s => if g.bad then s.addRaise (raiseEnd 84 4 0) else s.markPart n g.srcX g.srcY l
    | _ => f) f
  f.onTile i fun s => s.onRouter fun r => { r with out := r.out.filter fun g => match g.pay with
    | .line .. => false
    | .reply .. => false
    | .share .. => false
    | _ => true }

end Sys2Proof.Machine
end

