-- ==== Sys2Proof/Machine/Fetch.lean ====
section
/-! DEFINITION. The fetch unit (R137-R139, R146-R150): what a line dispatches (R39-R51), the queues' room (R43), loops'
back-edges, the prefetch buffer, and the redirects (R71, R139). -/

namespace Sys2Proof.Machine

/-- The nibble of lane n, 1 to 7 (R40). -/
def nibble (h : Word) (n : Nat) : Nat := h.toNat / 2 ^ (4 * (n - 1)) % 16

/-- A first word of a 64-bit instruction that awaits its second word: queue, lane, word (R48). -/
abbrev Half := Queue × Nat × Word

/-- A line's entries under way (R48): lanes from the given list on, with the open halves. PENLIFT lanes of SQ are
counted (R45). -/
def walkLanes (l : Line) (m seq disp : Nat) (lanes : List Nat) (opens : List Half) (pens : Nat) :
    List Entry × List Half × Nat :=
  match lanes with
  | [] => ([], opens, pens)
  | n :: rest =>
    match queueOf (nibble (lane l 0) n) with
    | none => walkLanes l m seq disp rest opens pens
    | some q =>
      match opens.find? fun h => h.1 == q with
      | some h =>
        let r := walkLanes l m seq disp rest (opens.filter fun x => x.1 != q) pens
        ({ line := m, lane := h.2.1, seq := seq + h.2.1, w0 := h.2.2, w1 := lane l n, disp := disp, marker := none
           arms := [] } :: r.1, r.2)
      | none =>
        if isLong (lane l n) then walkLanes l m seq disp rest (opens ++ [(q, n, lane l n)]) pens
        else
          let pen := if q == .sq && major (lane l n) == 0x2C then 1 else 0
          let r := walkLanes l m seq disp rest opens (pens + pen)
          ({ line := m, lane := n, seq := seq + n, w0 := lane l n, w1 := 0, disp := disp, marker := none
             arms := [] } :: r.1, r.2)

/-- A fault marker for one word (R51). -/
def markWord (q : Queue) (cause line n seq : Nat) (w0 : Word) (disp : Nat) : Queue × Entry :=
  (q, { line := line, lane := n, seq := seq, w0 := w0, w1 := 0, disp := disp, marker := some ⟨cause, w0.toNat⟩, arms := [] })

/-- A marker for a fault of a whole line, which goes to SQ alone (R51). It is no word of the line, so its lane is 0
(log 96). -/
def markLine (cause info m seq disp : Nat) : Queue × Entry :=
  (.sq, { line := m, lane := 0, seq := seq, w0 := 0, w1 := 0, disp := disp, marker := some ⟨cause, info⟩, arms := [] })

/-- The fault of a line as a whole: an uncorrectable line (R475), a reserved header or nibble (R40, R41, R45), the lowest
cause of those that hold. -/
def lineCause (h : Word) (pens : Nat) (bad : Bool) : Option Nat :=
  let pl := h.getLsbD 28
  if bad then some 82
  else if 2 ^ 29 ≤ h.toNat ∨ 1 < pens ∨ pl != (pens == 1) then some 1
  else if (List.range 7).any fun i => decide (7 ≤ nibble h (i + 1)) then some 2
  else none

/-- Which queue an entry of a line goes to, by the nibble of its lane. -/
def Entry.queueIn (e : Entry) (l : Line) : Queue := (queueOf (nibble (Machine.lane l 0) e.lane)).getD .sq

/-- Inserts an entry in fetch order (R44). -/
def insertSeq (x : Queue × Entry) (l : List (Queue × Entry)) : List (Queue × Entry) :=
  match l with
  | [] => [x]
  | y :: r => if x.2.seq < y.2.seq then x :: y :: r else y :: insertSeq x r

/-- What line m dispatches in a cycle, in fetch order, and the word it leaves to the next sequential line (R48, R49). -/
def parseLine (l : Line) (m seq disp : Nat) (owe : Option Owe) (bad : Bool) : List (Queue × Entry) × Option Owe :=
  let h := lane l 0
  let owed : List (Queue × Entry) := match owe with
    | none => []
    | some o =>
      if nibble h 1 == queueNum o.q then
        [(o.q, { line := o.line, lane := o.lane, seq := o.seq, w0 := o.w0, w1 := lane l 1, disp := disp, marker := none
                 arms := o.arms })]
      else [markWord o.q 6 o.line o.lane o.seq o.w0 disp]
  let taken := match owe with
    | none => false
    | some o => nibble h 1 == queueNum o.q
  let w := walkLanes l m seq disp (if taken then [2, 3, 4, 5, 6, 7] else [1, 2, 3, 4, 5, 6, 7]) [] 0
  match lineCause h w.2.2 bad with
  | some c =>
    let o' : List (Queue × Entry) := match owe with
      | none => []
      | some o => [markWord o.q 6 o.line o.lane o.seq o.w0 disp]
    (o' ++ [markLine c m m seq disp], none)
  | none =>
    let es := w.1.foldl (fun acc e => insertSeq (e.queueIn l, e) acc) []
    match w.2.1 with
    | [] => (owed ++ es, none)
    | [x] => (owed ++ es, some { q := x.1, line := m, lane := x.2.1, seq := seq + x.2.1, w0 := x.2.2, arms := [] })
    | many =>
      (owed ++ many.foldl (fun acc x => insertSeq (markWord x.1 6 m x.2.1 (seq + x.2.1) x.2.2 disp) acc) es, none)

/-- Whether a queue has room for the entries a line sends it (R43). -/
def roomFor (c : Control) (es : List (Queue × Entry)) : Bool :=
  allQueues.all fun q => decide ((c.entries q).length + (es.filter fun x => x.1 == q).length ≤ 16)

/-- Adds entries to their queues. -/
def Control.push (c : Control) (es : List (Queue × Entry)) : Control :=
  es.foldl (fun c x => c.setEntries x.1 (c.entries x.1 ++ [x.2])) c

/-- Follow-on flags and the MX entries they arm, in fetch order (R296). A crossing word stands where its first word
stands; an entry that completes one (its seq below the line's) has been treated with its line. -/
def armEntries (seq : Nat) (flags : List Nat) (es : List (Queue × Entry)) : List (Queue × Entry) × List Nat :=
  match es with
  | [] => ([], flags)
  | x :: r =>
    if x.2.seq < seq then
      let p := armEntries seq flags r
      (x :: p.1, p.2)
    else if x.1 == .mx then
      let p := armEntries seq [] r
      ((x.1, { x.2 with arms := flags }) :: p.1, p.2)
    else
      let p := armEntries seq (if x.1 == .ce && followFlag x.2.w0 then flags ++ [x.2.seq] else flags) r
      (x :: p.1, p.2)

/-- The crossing word's own part in R296. -/
def armOwe (flags : List Nat) (owe : Option Owe) : Option Owe × List Nat :=
  match owe with
  | none => (none, flags)
  | some o =>
    if o.q == .mx then (some { o with arms := flags }, [])
    else (some o, if o.q == .ce && followFlag o.w0 then flags ++ [o.seq] else flags)

/-- Dispatches parsed entries into the queues, with the follow-on flags. A crossing word of MX or CE whose first word
stands before later lanes of its line takes its place in fetch order. -/
def Control.dispatchParsed (c : Control) (seq : Nat) (es : List (Queue × Entry)) (owe : Option Owe) : Control :=
  let late (x : Queue × Entry) : Bool := match owe with
    | some o => decide (o.seq < x.2.seq)
    | none => false
  let a := armEntries seq c.fetch.flags (es.filter fun x => !late x)
  let b := armOwe a.2 owe
  let d := armEntries seq b.2 (es.filter late)
  let c' := c.push (a.1 ++ d.1)
  { c' with fetch := { c'.fetch with owe := b.1, flags := d.2, seqCtr := seq + 8 } }

/-- The first queue whose last entry is a PFX that no owed word follows (R71), with that entry. -/
def Control.orphan (c : Control) : Option (Queue × Entry) :=
  allQueues.findSome? fun q =>
    if (c.fetch.owe.map fun o => o.q == q).getD false || (c.fetch.cross.any fun o => o.owe.q == q) then none
    else match (c.entries q).getLast? with
      | some e => if e.marker.isNone && major e.w0 == 0x5F then some (q, e) else none
      | none => none

/-- Whether an SQ entry is an IFENCE: its word decodes to one, so a word with a fault of its own is none (R51, R150). -/
def Entry.isIfence (e : Entry) : Bool :=
  e.marker.isNone && (match decode .sq e.w0 e.w1 with
    | .ok .ifence => true
    | _ => false)

/-- The last line of the body that an SQ entry's LOOP opens (R146). -/
def Entry.loopEnd (e : Entry) : Option Nat :=
  if e.marker.isSome then none
  else match decode .sq e.w0 e.w1 with
    | .ok (.loopImm _ _ n) => some (e.line + n.toNat)
    | .ok (.loopReg _ _ n) => some (e.line + n.toNat)
    | _ => none

/-- Whether a LOOP whose body ends at line m waits in SQ (R146). -/
def Control.loopWaits (c : Control) (m : Nat) : Bool := (c.entries .sq).any fun e => e.loopEnd == some m

/-- The levels of R146 at the dispatch of line m, from level n - 1 outward: the loops after it, and the body to repeat. -/
def backEdge (loops : Vector Loop 4) (m n : Nat) : Vector Loop 4 × Option Nat :=
  match n with
  | 0 => (loops, none)
  | n + 1 =>
    let lp := vget loops n
    if !lp.act then backEdge loops m n
    else if lp.last != m then (loops, none)
    else if 1 < lp.count then (vset loops n { lp with count := lp.count - 1 }, some lp.first)
    else backEdge (vset loops n { lp with act := false, count := 0 }) m n

/-- The line that may dispatch in cycle k, with its bits: from a target, loop or exit buffer, which show TIM as it stands
(R138), or the oldest line of the prefetch buffer, two cycles after its read (R137, R150, log 14). -/
def Tile.nextLine (t : Tile) (k : Nat) : Option PreLine :=
  let f := t.ctl.fetch
  if !f.running || f.ifence != 0 then none
  else match f.direct with
    | m :: _ =>
      if k < f.directAt then none
      else some { line := m, bits := t.timLine m, readAt := k, bad := t.stores.badTim.contains m }
    | [] =>
      match f.buf with
      | p :: _ => if p.readAt + 2 ≤ k then some p else none
      | [] => none

/-- Takes the dispatched line off its buffer. -/
def Fetch.pop (f : Fetch) : Fetch :=
  match f.direct with
  | _ :: r => { f with direct := r }
  | [] => { f with buf := f.buf.drop 1 }

/-- A read of a line of TIM in cycle k. -/
def Tile.readTim (t : Tile) (m k : Nat) : PreLine :=
  { line := m, bits := t.timLine m, readAt := k, bad := t.stores.badTim.contains m }

/-- What the fetch unit reads in cycle k, before the writes of that cycle (R28): the next sequential line, and the lines that
complete crossing words (R50). -/
def Tile.fetchReads (t : Tile) (k : Nat) : Tile :=
  let f := t.ctl.fetch
  { t with ctl := { t.ctl with fetch := { f with
    ahead := if f.running then some (t.readTim f.nextRead k) else none
    cross := f.cross.map fun x =>
      if x.got.isNone && decide (x.from_ ≤ k) then { x with got := some (t.readTim (x.owe.line + 1) k) } else x } } }

/-- The line that the prefetch of cycle k reads: as it stood before the cycle's writes (R28), but for an IFENCE's read, which
shows every write that landed by its cycle (R150). -/
def Tile.readNext (t : Tile) (k : Nat) : PreLine :=
  let f := t.ctl.fetch
  match f.ahead with
  | some p => if p.line == f.nextRead && f.renewAt != k then p else t.readTim f.nextRead k
  | none => t.readTim f.nextRead k

/-- The read of one line from TIM into the prefetch buffer (R137). -/
def Tile.prefetch (t : Tile) (k : Nat) : Tile :=
  let f := t.ctl.fetch
  if f.running && f.ifence == 0 && decide (f.buf.length < 2) && decide (f.readFrom ≤ k) && decide (f.nextRead ≤ 4096) then
    { t with ctl := { t.ctl with fetch := { f with
      buf := f.buf ++ [{ t.readNext k with readAt := k }], nextRead := f.nextRead + 1 } } }
  else t

/-- Dispatch of one line in cycle k (R43, R46, R146, R148). -/
def Tile.dispatch (t : Tile) (k : Nat) : Tile :=
  match t.nextLine k with
  | none => t
  | some p =>
    let m := p.line
    let f := t.ctl.fetch
    let seq := f.seqCtr
    if 4096 ≤ m then
      let es := (match f.owe with
        | none => []
        | some o => [markWord o.q 6 o.line o.lane o.seq o.w0 k]) ++ [markLine 9 4096 4095 seq k]
      if roomFor t.ctl es then
        let c := t.ctl.push es
        { t with ctl := { c with fetch := { f.pop with owe := none, running := false, seqCtr := seq + 8 } } }
      else t
    else if t.ctl.loopWaits m then t
    else
      let r := parseLine p.bits m seq k f.owe p.bad
      let be := backEdge t.ctl.loops m 4
      let cut : List (Queue × Entry) := match be.2, r.2 with
        | some _, some o => [markWord o.q 6 o.line o.lane o.seq o.w0 k]
        | _, _ => []
      if !roomFor t.ctl (r.1 ++ cut) then t
      else
        let c := t.ctl.dispatchParsed seq r.1 r.2
        let c := { c with fetch := c.fetch.pop }
        let c := { c with fetch := { c.fetch with
          ifence := (r.1.filter fun (x : Queue × Entry) => x.1 == Queue.sq && x.2.isIfence).length } }
        match be.2 with
        | none => { t with ctl := { c with loops := be.1 } }
        | some first =>
          match c.orphan with
          | some o => { t with ctl := c }.addRaise (raiseNamed 7 o.2.line o.2.lane (queueNum o.1) 0 0)
          | none =>
            let c := c.push cut
            let fe := { c.fetch with
              owe := none, direct := [first, first + 1], directAt := k + 1, buf := [], nextRead := first + 2
              readFrom := k + 1 }
            { t with ctl := { c with loops := be.1, fetch := fe } }

/-- The entries that complete a crossing word (R50): its second word is lane 1 of the next sequential line, unless that line
does not exist, has another nibble there, or has a fault of its own (R51), which leaves a split-word marker. A line that
TIM cannot correct leaves its own marker in SQ behind it (R475, log 98). -/
def Cross.entries (x : Cross) (p : PreLine) (seq k : Nat) : List (Queue × Entry) :=
  let o := x.owe
  let h := lane p.bits 0
  let sound := (lineCause h (walkLanes p.bits p.line seq k [2, 3, 4, 5, 6, 7] [] 0).2.2 p.bad).isNone
  if p.line ≤ 4095 && nibble h 1 == queueNum o.q && sound then
    [(o.q, { line := o.line, lane := o.lane, seq := o.seq, w0 := o.w0, w1 := lane p.bits 1, disp := k, marker := none
             arms := o.arms })]
  else markWord o.q 6 o.line o.lane o.seq o.w0 k :: (if p.bad then [markLine 82 p.line p.line seq k] else [])

/-- One crossing word in cycle k: completed when its line has been read and its queues have places (R50, R43). -/
def Tile.crossing (k : Nat) (t : Tile) (x : Cross) : Tile :=
  let f := t.ctl.fetch
  let es := match x.got with
    | some p => x.entries p f.seqCtr k
    | none => []
  if !es.isEmpty && roomFor t.ctl es then
    let c := t.ctl.push es
    { t with ctl := { c with fetch := { c.fetch with seqCtr := if es.length = 1 then f.seqCtr else f.seqCtr + 8 } } }
  else { t with ctl := { t.ctl with fetch := { f with cross := f.cross ++ [x] } } }

/-- Completes the crossing words of R50, each as its own queue allows. -/
def Tile.crossings (t : Tile) (k : Nat) : Tile :=
  t.ctl.fetch.cross.foldl (Tile.crossing k)
    { t with ctl := { t.ctl with fetch := { t.ctl.fetch with cross := [] } } }

/-- Cancels the entries after a place in fetch order (R139). -/
def Control.cancel (c : Control) (seq : Nat) : Control :=
  let cut (l : List Entry) : List Entry := l.filter fun e => decide (e.seq ≤ seq)
  { c with
    queues := c.queues.map cut
    headAt := Vector.ofFn fun i => if (cut (vget c.queues i.val)).isEmpty then none else vget c.headAt i.val }

/-- Whether a raise belongs to an entry that still stands in its queue. -/
def Control.stands (c : Control) (r : Raise) : Bool :=
  !r.inst || (match queueOf r.queue with
    | none => true
    | some q => (c.entries q).any fun e => e.line == r.line && e.lane == r.lane)

/-- A redirect by the instruction at issue (R71, R139): to a line whose buffer began filling in cycle fill, or to none
(HALT). -/
def Tile.redirect (t : Tile) (c : Ctx) (target : Option Int) (fill : Int) : Except Raise Tile :=
  let f := t.ctl.fetch
  let keep := match f.owe with
    | some o => if o.seq < c.e.seq then [{ owe := o, from_ := c.k + 1, got := none }] else []
    | none => []
  let ctl := t.ctl.cancel c.e.seq
  let ctl := { ctl with fetch := { f with
    owe := none, cross := f.cross ++ keep, buf := [], ifence := 0
    flags := f.flags.filter fun x => decide (x < c.e.seq) } }
  if ctl.orphan.isSome then .error (c.raise 7)
  else
    let t := { t with ctl := ctl, raises := t.raises.filter ctl.stands }
    match target with
    | none => .ok { t with ctl := { ctl with fetch := { ctl.fetch with direct := [], running := false } } }
    | some l =>
      if l < 0 ∨ 4095 < l then .error (c.raiseInfo 9 (ofSigned 64 l) 0)
      else .ok { t with ctl := { ctl with fetch := { ctl.fetch with
        direct := [l.toNat, l.toNat + 1], directAt := max (c.k + 1) (fill + 5).toNat, nextRead := l.toNat + 2
        readFrom := c.k + 1, running := true } } }

/-- The effect of IFENCE at issue (R150): the line after its own is read in the next cycle, with every write that has landed
by then; a later IFENCE of the same line still holds dispatch. It is the line that follows in TIM also where a back-edge
stood after the line (log 97). -/
def Tile.refetch (t : Tile) (c : Ctx) : Tile :=
  { t with ctl := { t.ctl with fetch := { t.ctl.fetch with
    direct := [], buf := [], nextRead := c.e.line + 1, readFrom := c.k + 1, renewAt := c.k + 1
    ifence := t.ctl.fetch.ifence - 1, running := true } } }

end Sys2Proof.Machine
end

