-- ==== Sys2Proof/Machine/Seq.lean ====
section
/-! DEFINITION. The sequencer's instructions (R140-R158), the control and status registers (R102, R133, R158, R198, R287,
R350, R356, R392, R464), tokens (R151) and the return from a local handler (R467). -/

namespace Sys2Proof.Machine

/-- The description of a sequencer instruction without operands (R140). -/
def seqInfo (cause : Option Nat) (srcs dsts : List (Nat × Nat)) (preds : List Nat) (hand : Bool) : Info :=
  { cause := cause, srcs := srcs, dsts := dsts, preds := preds, wides := [], cls := 0, least := 0, rv := false
    sv := false, ov := false, acc := none, hand := hand }

/-- NOP (R142). -/
def execNop (s : State) : Host.Outcome State Fault Refusal :=
  issue (fun _ => seqInfo none [] [] [] true) noHold (fun _ t => .ok t) s

/-- HALT (R142): a redirect to nowhere. -/
def execHalt (s : State) : Host.Outcome State Fault Refusal :=
  issue (fun _ => seqInfo none [] [] [] false) noHold
    (fun c t => (t.redirect c none 0).map fun t' => { t' with halting := true }) s

/-- A load of a target register: it lands at k + 1, and its buffer begins to fill at k (R138, R143). -/
def Tile.loadTarget (t : Tile) (c : Ctx) (b : Nat) (l : Int) : Tile :=
  t.later c 1 (.target b ⟨l, c.k, false⟩) []

/-- PBR (R143). -/
def execPbr (b : BitVec 3) (disp : BitVec 13) (s : State) : Host.Outcome State Fault Refusal :=
  issue (fun _ => seqInfo none [] [] [] true) noHold
    (fun c t => .ok (t.loadTarget c b.toNat ((c.e.line : Int) + toSigned 13 disp.toNat))) s

/-- PBRS (R143). -/
def execPbrs (b : BitVec 3) (a : BitVec 7) (s : State) : Host.Outcome State Fault Refusal :=
  issue (fun t => seqInfo none [t.wSpan a] [] [] true) noHold
    (fun c t => .ok (t.loadTarget c b.toNat ((t.word a % 4096 : Nat) : Int))) s

/-- A redirect through a target register (R139, R143). -/
def Tile.redirectVia (t : Tile) (c : Ctx) (b : Nat) : Except Raise Tile :=
  let r := vget t.ctl.btgt b
  t.redirect c (some r.line) (if r.full then -5 else r.filled)

/-- BR (R144). -/
def execBr (b : BitVec 3) (p : BitVec 4) (n u : Bool) (s : State) : Host.Outcome State Fault Refusal :=
  issue (fun _ => seqInfo (Instr.br b p n u).cause [] [] (if u then [] else [p.toNat]) true) noHold
    (fun c t => if u || (t.pred p.toNat != n) then t.redirectVia c b.toNat else .ok t) s

/-- CALL (R145). -/
def execCall (b : BitVec 3) (slide : BitVec 6) (s : State) : Host.Outcome State Fault Refusal :=
  issue (fun _ => seqInfo none [] [] [] false) noHold
    (fun c t =>
      let w := t.ctl.winb + slide.toNat
      match t.redirectVia c b.toNat with
      | .error r => .error r
      | .ok t' =>
        if 192 < w then .error (c.raise 21)
        else .ok ((t'.loadTarget c 7 ((c.e.line : Int) + 1)).later c 1 (.winb w) [])) s

/-- RET (R145). -/
def execRet (slide : BitVec 6) (s : State) : Host.Outcome State Fault Refusal :=
  issue (fun _ => seqInfo none [] [] [] false) noHold
    (fun c t =>
      match t.redirectVia c 7 with
      | .error r => .error r
      | .ok t' =>
        if t.ctl.winb < slide.toNat then .error (c.raise 21)
        else .ok (t'.later c 1 (.winb (t.ctl.winb - slide.toNat)) [])) s

/-- Opens a loop level, or cause 89 (R146). -/
def Tile.openLoop (t : Tile) (c : Ctx) (level count lines : Nat) : Except Raise Tile :=
  let last := c.e.line + lines
  let lp := t.ctl.loops
  let outer := (List.range level).map fun i => vget lp i
  if count = 0 ∨ (vget lp level).act ∨ (outer.any fun l => !l.act) ∨ 4095 < last ∨ (outer.any fun l => decide (l.last < last))
  then .error (c.raise 89)
  else .ok { t with ctl := { t.ctl with
    loops := vset lp level { act := true, count := count, first := c.e.line + 1, last := last, opened := c.k } } }

/-- LOOP with an immediate count (R146). -/
def execLoopImm (level : BitVec 2) (count : BitVec 12) (lines : BitVec 10) (s : State) : Host.Outcome State Fault Refusal :=
  issue (fun _ => seqInfo (Instr.loopImm level count lines).cause [] [] [] false) noHold
    (fun c t => t.openLoop c level.toNat (if count = 0 then 4096 else count.toNat) lines.toNat) s

/-- LOOP with a count from a window word (R146). -/
def execLoopReg (level : BitVec 2) (a : BitVec 7) (lines : BitVec 10) (s : State) : Host.Outcome State Fault Refusal :=
  issue (fun t => seqInfo (Instr.loopReg level a lines).cause [t.wSpan a] [] [] false) noHold
    (fun c t => t.openLoop c level.toNat (t.word a) lines.toNat) s

/-- Closes a level and every inner level (R147). -/
def closeLoops (l : Vector Loop 4) (level : Nat) : Vector Loop 4 :=
  Vector.ofFn fun i => if level ≤ i.val then { l[i] with act := false, count := 0 } else l[i]

/-- LBRK (R147): the exit buffer has been filling since the LOOP's issue. -/
def execLbrk (level : BitVec 2) (p : BitVec 4) (n : Bool) (s : State) : Host.Outcome State Fault Refusal :=
  issue (fun _ => seqInfo none [] [] [p.toNat] false) noHold
    (fun c t =>
      let l := vget t.ctl.loops level.toNat
      if !l.act then .error (c.raise 89)
      else if t.pred p.toNat == n then .ok t
      else (t.redirect c (some ((l.last : Int) + 1)) l.opened).map fun t' =>
        { t' with ctl := { t'.ctl with loops := closeLoops t'.ctl.loops level.toNat } }) s

/-- The trailer mask of the current overlay (R149). -/
def Tile.trailer (t : Tile) : Nat :=
  let key := if t.csr.ovcur < 256 then t.csr.ovcur else 0xFFFF
  match t.tables.trailers.find? fun x => x.1 == key with
  | some x => x.2
  | none => 0x3F

/-- Whether a queue of number n has an entry before that of the instruction that has not issued (R149, R152): in the queue,
or a word that still awaits its second half (R48, R50). The instruction's own PFX issues with it (R69). -/
def Tile.earlier (t : Tile) (c : Ctx) (n : Nat) : Bool :=
  let f := t.ctl.fetch
  let before (seq : Nat) : Bool := decide (seq < c.e.seq) && c.pe.map (·.seq) != some seq
  ((vget t.ctl.queues (n - 1)).any fun e => before e.seq)
  || (match f.owe with
      | some o => queueNum o.q == n && before o.seq
      | none => false)
  || f.cross.any fun x => queueNum x.owe.q == n && before x.owe.seq

/-- Whether a queue of number n still has an entry before the instruction's, or a result to land (R149, log 15). -/
def Tile.queueBusy (t : Tile) (c : Ctx) (n : Nat) : Bool :=
  let k := c.k
  t.earlier c n
  || (t.pend.any fun p => p.writer == n && decide (k < p.land))
  || (n == 2 && ((t.ap.ratoms.any fun r => decide (k < r.land)) || t.ap.sleep.isSome || t.ap.accs.any fun a => match a.kind with
      | .load .. => decide (k < a.issue + 4)
      | .atom .. => decide (k < a.issue + 6)
      | .store .. => decide (k < a.perf)))
  || (n == 4 && t.ceBusy k) || (n == 5 && t.mxBusy k)
  || (n == 6 && t.net.recvs.any fun r => decide (k < r.land))

/-- OVL (R149). -/
def execOvl (n : BitVec 8) (s : State) : Host.Outcome State Fault Refusal :=
  issue (fun _ => seqInfo none [] [] [] false)
    (fun c t =>
      if (List.range 6).any fun i => t.trailer.testBit i && t.queueBusy c (i + 1) then some .wait else none)
    (fun c t =>
      let v := (vget t.csr.ovt n.toNat).toNat
      if !v.testBit 63 then .error (c.raise 93)
      else (t.redirect c (some ((v % 4096 : Nat) : Int)) c.k).map fun t' =>
        { t' with csr := { t'.csr with ovcur := n.toNat } }) s

/-- IFENCE (R150). -/
def execIfence (s : State) : Host.Outcome State Fault Refusal :=
  issue (fun _ => seqInfo none [] [] [] true) noHold (fun c t => .ok (t.refetch c)) s

/-- Whether the tile's own state forbids a pen-lift point (R152, R172, R338): also an access of AP or NET under way. -/
def Tile.penForbidden (t : Tile) (c : Ctx) (map : Nat) : Bool :=
  let k := c.k
  ((List.range 6).any fun i => t.earlier c (i + 1))
  || ((t.pendSpans false).any fun p => decide (k < p.1))
  || ((t.pendPreds false).any fun p => decide (k < p.1)) || t.ceBusy k || t.mxBusy k
  || t.queueBusy c 2 || t.queueBusy c 6
  || !(t.tables.livemaps.any fun m => m.1 == map)

/-- PENLIFT (R152): the agreement of the folio's tiles is examined at the end of the cycle. -/
def execPenlift (map : BitVec 12) (s : State) : Host.Outcome State Fault Refusal :=
  issue (fun _ => seqInfo none [] [] [] false) noHold
    (fun c t =>
      if t.penForbidden c map.toNat then .error (c.raise 61)
      else .ok { t with penNow := some (map.toNat, c.e.line, c.e.lane) }) s

/-- WAITC with m = 0 (R154): the next SQ entry issues no earlier than k + max(1, delay). -/
def execWaitc (delay : BitVec 24) (s : State) : Host.Outcome State Fault Refusal :=
  issue (fun _ => seqInfo none [] [] [] true) noHold
    (fun c t => .ok { t with ctl := { t.ctl with notBefore := c.k + max 1 delay.toNat } }) s

/-- The cycle count that a program sees: inside a handler the freeze cycle (R156). -/
def Ctx.count (c : Ctx) : Nat := c.cyc

/-- WAITC with m = 1 (R154). -/
def execWaitcUntil (a : BitVec 7) (s : State) : Host.Outcome State Fault Refusal :=
  issue (fun t => seqInfo (Instr.waitcUntil a).cause [t.pairSpan a] [] [] true)
    (fun c t => if c.count < t.pair a then some .wait else none) (fun _ t => .ok t) s

/-- TRAP (R155). -/
def execTrap (arg : BitVec 16) (s : State) : Host.Outcome State Fault Refusal :=
  issue (fun _ => seqInfo none [] [] [] true) noHold
    (fun c _ => .error { c.raise 90 with arg := arg.toNat }) s

/-- BRK (R155): with breakpoints armed it does not trap, in a handler neither; the folio enters a debug stop after the cycle
(R488, R491). -/
def execBrk (code : BitVec 16) (s : State) : Host.Outcome State Fault Refusal :=
  issue (fun _ => seqInfo none [] [] [] true) noHold
    (fun c t =>
      if c.brk then .ok { t with brkNow := some (c.e.line, c.e.lane, code.toNat) }
      else .error { c.raise 91 with arg := code.toNat }) s

/-- TRET (R155, R467): it holds until every handler write has landed. -/
def execTret (s : State) : Host.Outcome State Fault Refusal :=
  issue (fun _ => seqInfo none [] [] [] true)
    (fun c t =>
      if c.hand && ((t.pend.any fun p => p.hand && decide (c.k < p.land))
          || t.ap.accs.any fun a => a.hand) then some .wait else none)
    (fun c t => if c.hand then (t.redirect c none 0).map fun t' => { t' with trap := { t'.trap with ret := true } }
      else .error (c.raise 92)) s

/-- The value that RDID names (R156). -/
def idValue (c : Ctx) (sel : IdSel) : Nat :=
  match sel with
  | .fx => c.fx | .fy => c.fy | .width => c.place.w | .height => c.place.h
  | .phase => c.launch.phase.toNat | .package => c.launch.lpkg.toNat

/-- RDID (R156). -/
def execRdid (sel : IdSel) (d : BitVec 7) (s : State) : Host.Outcome State Fault Refusal :=
  issue (fun t => seqInfo none [] [t.wSpan d] [] true) noHold
    (fun c t => .ok (t.later c 1 (.slices (t.win d) 8 (idValue c sel) 0) [])) s

/-- RDCLK (R156). -/
def execRdclk (d : BitVec 7) (s : State) : Host.Outcome State Fault Refusal :=
  issue (fun t => seqInfo (Instr.rdclk d).cause [] [t.pairSpan d] [] true) noHold
    (fun c t => .ok (t.later c 1 (.slices (t.win d) 16 (c.count % 2 ^ 64) 0) [])) s

/-- A window slot as its CSR shows it (R356). -/
def Window.csr (w : Window) : Nat :=
  (if w.v then 2 ^ 63 else 0) + (if w.w then 2 ^ 62 else 0) + w.size * 2 ^ 60 + (if w.host then 2 ^ 59 else 0) + w.vpn

/-- A window slot of a CSR's value, for a page at a physical address (R356). -/
def Window.ofCsr (d pa : Nat) : Window :=
  { v := d.testBit 63, w := d.testBit 62, size := bitsAt d 60 2, host := d.testBit 59, vpn := bitsAt d 0 38, pa := pa }

/-- The value of a CSR at issue; none for an unassigned number (R156). -/
def Tile.readCsr (t : Tile) (c : Ctx) (n : Nat) : Option Nat :=
  if n = 0x010 then some t.ctl.winb
  else if n = 0x011 then some (if t.csr.sbmode then 1 else 0)
  else if n = 0x012 then some t.csr.sp.toNat
  else if n = 0x013 then some t.csr.splim.toNat
  else if n = 0x014 then some t.slices.preds.toNat
  else if 0x018 ≤ n ∧ n < 0x020 then some (ofSigned 12 (vget t.ctl.btgt (n - 0x018)).line)
  else if n = 0x020 then some t.csr.ebal
  else if n = 0x021 then some t.csr.erate
  else if n = 0x022 then some t.csr.ecap
  else if n = 0x023 then some (c.count % 2 ^ 64)
  else if n = 0x025 then some t.csr.hlat
  else if 0x030 ≤ n ∧ n < 0x034 then
    let l := vget t.ctl.loops (n - 0x030)
    some ((if l.act then 2 ^ 32 else 0) + l.count)
  else if n = 0x040 then some (t.csr.ovcur % 256)
  else if n = 0x041 then some t.csr.ovbase.toNat
  else if n = 0x050 then some t.csr.fpctl.toNat
  else if n = 0x051 then some t.csr.rseed.toNat
  else if 0x058 ≤ n ∧ n < 0x05E then some (vget t.csr.nevcfg (n - 0x058)).toNat
  else if 0x060 ≤ n ∧ n < 0x066 then some (vget t.csr.nevcnt (n - 0x060)).toNat
  else if n = 0x070 then some t.csr.mxctl.toNat
  else if n = 0x080 then some t.csr.ralat
  else if n = 0x081 then some t.csr.barph.toNat
  else if n = 0x090 then some t.trap.tcause.toNat
  else if n = 0x091 then some t.trap.tcyc.toNat
  else if n = 0x092 then some t.trap.tpos.toNat
  else if n = 0x093 then some t.trap.targ.toNat
  else if n = 0x094 then some t.trap.tinfo.toNat
  else if n = 0x095 then some t.trap.tinfo2.toNat
  else if n = 0x098 then some t.trap.tvec.toNat
  else if n = 0x099 then some t.trap.tloc0.toNat
  else if n = 0x09A then some t.trap.tloc1.toNat
  else if n = 0x09B then some ((if t.trap.act then 2 else 0) + (if t.trap.skip then 1 else 0))
  else if n = 0x09C then some (t.trap.hcyc % 2 ^ 64)
  else if 0x100 ≤ n ∧ n < 0x200 then some (vget t.csr.ovt (n - 0x100)).toNat
  else if 0x200 ≤ n ∧ n < 0x220 then some (vget t.wins (n - 0x200)).csr
  else none

/-- CSRRD (R156). A read of PREDS reads all sixteen predicates, which may be pending (R88, R99). -/
def execCsrrd (csr : BitVec 12) (d : BitVec 7) (s : State) : Host.Outcome State Fault Refusal :=
  issue (fun t => seqInfo (Instr.csrrd csr d).cause [] [t.pairSpan d]
      (if csr = 0x014 then List.range 16 else []) true) noHold
    (fun c t => match t.readCsr c csr.toNat with
      | none => .error (c.raise 88)
      | some v => .ok (t.later c 1 (.slices (t.win d) 16 v 0) [])) s

/-- The TLOC bits that stand: those of class L causes (R464). -/
def tlocMask (hi : Bool) : Nat :=
  (List.range (if hi then 32 else 64)).foldl (fun m i => if causeLocal (i + if hi then 64 else 0) then m + 2 ^ i else m) 0

/-- Whether a CSRWR of a value to a CSR is refused, with the cause (R84, R156, R198, R287, R350, R464). -/
def csrRefused (n v : Nat) : Option Nat :=
  if n = 0x010 then (if 192 < v % 256 then some 21 else none)
  else if n = 0x011 ∨ n = 0x012 ∨ n = 0x013 ∨ n = 0x014 ∨ (0x018 ≤ n ∧ n < 0x020) then none
  else if n = 0x050 then (if 6 ≤ v % 8 then some 88 else none)
  else if n = 0x051 ∨ (0x060 ≤ n ∧ n < 0x066) then none
  else if 0x058 ≤ n ∧ n < 0x05E then (if bitsAt v 62 2 = 3 then some 88 else none)
  else if n = 0x070 then (if bitsAt v 4 2 = 3 then some 88 else none)
  else if n = 0x080 then (if v % 2 ^ 16 = 0 then some 88 else none)
  else if n = 0x098 then (if 192 < bitsAt v 16 8 then some 88 else none)
  else if n = 0x099 ∨ n = 0x09A ∨ n = 0x09B then none
  else some 88

/-- A written value with the reserved fields of its CSR at zero (R6, log 16). -/
def csrKeep (n v : Nat) : Nat :=
  if n = 0x010 then v % 256
  else if n = 0x011 then v % 2
  else if n = 0x012 ∨ n = 0x013 then bitsAt v 3 17 * 8
  else if n = 0x014 then v % 2 ^ 16
  else if 0x018 ≤ n ∧ n < 0x020 then v % 4096
  else if n = 0x050 then v % 16
  else if 0x058 ≤ n ∧ n < 0x05E then bitsAt v 62 2 * 2 ^ 62 + v % 2 ^ 56
  else if 0x060 ≤ n ∧ n < 0x066 then bitsAt v 63 1 * 2 ^ 63 + v % 2 ^ 32
  else if n = 0x070 then bitsAt v 8 4 * 256 + bitsAt v 4 2 * 16 + v % 4
  else if n = 0x080 then v % 2 ^ 16
  else if n = 0x098 then bitsAt v 31 1 * 2 ^ 31 + bitsAt v 16 8 * 2 ^ 16 + v % 4096
  else if n = 0x099 then v &&& tlocMask false
  else if n = 0x09A then v &&& tlocMask true
  else if n = 0x09B then v % 2
  else v % 2 ^ 64

/-- A CSR takes a value (R156): at its landing, or from an image's CSR section at cycle 0 (R102). -/
def Tile.setCsr (t : Tile) (n v : Nat) : Tile :=
  if n = 0x010 then { t with ctl := { t.ctl with winb := v } }
  else if n = 0x011 then { t with csr := { t.csr with sbmode := v == 1 } }
  else if n = 0x012 then { t with csr := { t.csr with sp := BitVec.ofNat 20 v } }
  else if n = 0x013 then { t with csr := { t.csr with splim := BitVec.ofNat 20 v } }
  else if n = 0x014 then { t with slices := { t.slices with preds := BitVec.ofNat 16 v } }
  else if 0x018 ≤ n ∧ n < 0x020 then { t with ctl := { t.ctl with btgt := vset t.ctl.btgt (n - 0x018) ⟨v, -5, true⟩ } }
  else if n = 0x050 then { t with csr := { t.csr with fpctl := BitVec.ofNat 4 v } }
  else if n = 0x051 then { t with csr := { t.csr with rseed := BitVec.ofNat 64 v } }
  else if 0x058 ≤ n ∧ n < 0x05E then { t with csr := { t.csr with nevcfg := vset t.csr.nevcfg (n - 0x058) (BitVec.ofNat 64 v) } }
  else if 0x060 ≤ n ∧ n < 0x066 then { t with csr := { t.csr with nevcnt := vset t.csr.nevcnt (n - 0x060) (BitVec.ofNat 64 v) } }
  else if n = 0x070 then { t with csr := { t.csr with mxctl := BitVec.ofNat 12 v } }
  else if n = 0x080 then { t with csr := { t.csr with ralat := v } }
  else if n = 0x098 then { t with trap := { t.trap with tvec := BitVec.ofNat 64 v } }
  else if n = 0x099 then { t with trap := { t.trap with tloc0 := BitVec.ofNat 64 v } }
  else if n = 0x09A then { t with trap := { t.trap with tloc1 := BitVec.ofNat 64 v } }
  else if n = 0x09B then { t with trap := { t.trap with skip := v == 1 } }
  else t

/-- CSRWR (R156): the write lands at k + 1; PREDS and BTGT land as the writes they stand for (R100, R102); TCTL outside a
handler is ignored (R464). -/
def execCsrwr (csr : BitVec 12) (a : BitVec 7) (s : State) : Host.Outcome State Fault Refusal :=
  issue (fun t => seqInfo (Instr.csrwr csr a).cause [t.pairSpan a] [] [] true) noHold
    (fun c t =>
      let n := csr.toNat
      let v := csrKeep n (t.pair a)
      match csrRefused n (t.pair a) with
      | some x => .error (c.raise x)
      | none =>
        if n = 0x014 then .ok (t.later c 1 (.preds 0xFFFF (BitVec.ofNat 16 v)) [])
        else if 0x018 ≤ n ∧ n < 0x020 then .ok (t.loadTarget c (n - 0x018) v)
        else if n = 0x09B ∧ !c.hand then .ok t
        else .ok (t.later c 1 (.csr n (BitVec.ofNat 64 v)) [])) s

/-- The description of WAITT and SIGT (R80, R151). -/
def tokenInfo : Info := seqInfo none [] [] [] true

/-- WAITT (R151): the cycle's grant tells whether it may take its tokens. -/
def execWaitt (t : BitVec 3) (n : BitVec 8) (s : State) : Host.Outcome State Fault Refusal :=
  issue (fun _ => tokenInfo) (fun c tl => if tl.granted.contains c.q then none else some .token)
    (fun _ tl => .ok { tl with tok := vset tl.tok t.toNat (vget tl.tok t.toNat - n.toNat) }) s

/-- SIGT (R151): the cycle's signals are added together at its end. -/
def execSigt (t : BitVec 3) (n : BitVec 8) (s : State) : Host.Outcome State Fault Refusal :=
  issue (fun _ => tokenInfo) noHold (fun c tl => .ok { tl with sigs := tl.sigs ++ [(t.toNat, n.toNat, queueNum c.q)] }) s

/-- PFX (R69, R70): it holds for the next entry of its queue, issues with it, and misuse by another PFX is raised here. -/
def execPfx (p : Pfx) (s : State) : Host.Outcome State Fault Refusal :=
  match s.at? with
  | none => .fault .noTile
  | some (f, t, c) =>
    if t.queueHeld c then .next (s.putTile f t)
    else
      match (Instr.pfx p).cause, (t.ctl.entries c.q)[1]? with
      | some x, _ => .next (s.putTile f (t.addRaise (c.inHand (c.raise x))))
      | none, none => .next (s.putTile f t)
      | none, some e =>
        if e.marker.isNone && major e.w0 == 0x5F then .next (s.putTile f (t.addRaise (c.inHand (c.raise 8))))
        else .next (s.putTile f { t with ctl := { t.ctl with pfx := some (c.q, p) } })

/-- The delay of a WAITC has expired (R154): the next SQ entry may issue. -/
def execWaitcDelayExpiry (s : State) : Host.Outcome State Fault Refusal :=
  match s.at? with
  | none => .fault .noTile
  | some (f, t, c) =>
    if t.ctl.notBefore ≤ c.k then .next (s.putTile f { t with ctl := { t.ctl with notBefore := 0 } })
    else .next (s.putTile f t)

end Sys2Proof.Machine
end

