-- ==== Sys2Proof/Machine/Land.lean ====
section
/-! DEFINITION. What lands in a tile's slice file and CSRs (R86-R92, R96), remote atomics at their home and their replies
(R350-R352), and the numerical events of a cycle (R199, R200). -/

namespace Sys2Proof.Machine

/-- Whether two writes have different writers (R91): another queue of the tile, or another agent outside it. -/
def PendWrite.differs (p q : PendWrite) : Bool := p.writer != q.writer || p.src != q.src

/-- Puts a write among others by issue cycle, after those of its own cycle. -/
def insertIssue (p : PendWrite) (l : List PendWrite) : List PendWrite :=
  match l with
  | [] => [p]
  | q :: r => if p.issue < q.issue then p :: q :: r else q :: insertIssue p r

/-- The writes of a cycle in the order of their issue, which for one queue is program order (R90). -/
def byIssue (l : List PendWrite) : List PendWrite := l.foldl (fun acc p => insertIssue p acc) []

/-- The slices of a pending write: first and count. -/
def PendWrite.range (p : PendWrite) : Option (Nat × Nat) :=
  match p.dest with
  | .slices s n _ _ => some (s, n)
  | _ => none

/-- The predicates of a pending write. -/
def PendWrite.mask (p : PendWrite) : Nat :=
  match p.dest with
  | .preds m _ => m.toNat
  | _ => 0

/-- Two colliding writers of one cycle in the order in which the trap state names them, a free value (R473, log 24). -/
def twoWriters (p q : PendWrite) : PendWrite × PendWrite :=
  let r := if q.writer < p.writer then (q, p) else (p, q)
  if Config.higherWriterLow r.1.writer r.2.writer r.1.issue r.2.issue then (r.2, r.1) else r

/-- The slices that different writers write in one cycle (R91): first, past the last, and the writers. -/
def clashes (l : List PendWrite) : List (Nat × Nat × PendWrite × PendWrite) :=
  match l with
  | [] => []
  | p :: r =>
    (r.filterMap fun q =>
      match p.range, q.range with
      | some a, some b =>
        if p.differs q && meets a.1 a.2 b.1 b.2 then
          some (max a.1 b.1, min (a.1 + a.2) (b.1 + b.2), twoWriters p q)
        else none
      | _, _ => none) ++ clashes r

/-- The predicates that different writers write in one cycle (R91). -/
def predClashes (l : List PendWrite) : List (Nat × PendWrite × PendWrite) :=
  match l with
  | [] => []
  | p :: r =>
    (r.filterMap fun q =>
      let m := p.mask &&& q.mask
      if p.differs q && m != 0 then some (m, twoWriters p q) else none) ++ predClashes r

/-- The granules whose tag a pending write writes (R96, R246). -/
def PendWrite.tagged (p : PendWrite) : List Nat :=
  match p.dest with
  | .slices s n _ _ => granules s n
  | .tag g _ => [g]
  | _ => []

/-- Whether a pending write is TAGSET's. -/
def PendWrite.setsTag (p : PendWrite) : Bool :=
  match p.dest with
  | .tag .. => true
  | _ => false

/-- The granules whose tag TAGSET and another writer write in one cycle (R246), with the writers. -/
def tagClashes (l : List PendWrite) : List (Nat × PendWrite × PendWrite) :=
  match l with
  | [] => []
  | p :: r =>
    (r.flatMap fun q =>
      if p.differs q && (p.setsTag || q.setsTag) then
        (p.tagged.filter fun g => q.tagged.contains g).map fun g => (g, twoWriters p q)
      else []) ++ tagClashes r

/-- Lands a slice write but for the slices that collide (R91, R96). -/
def Slices.landExcept (s : Slices) (start n v tag : Nat) (blocked : Nat → Bool) : Slices :=
  let v' := (List.range n).foldr (fun i x => (if blocked (start + i) then s.span (start + i) 1 else bitsAt v (4 * i) 4) + 16 * x) 0
  (granules start n).foldl (fun s g =>
    if (List.range 16).any fun i => decide (start ≤ 16 * g + i) && decide (16 * g + i < start + n) && !blocked (16 * g + i) then
      tagGranules s start n tag g 1
    else s) (s.put start n v')

/-- One write lands (R86, R96, R99, R102, R145, R156, R357, R358). -/
def Tile.landWrite (t : Tile) (p : PendWrite) (blocked : List (Nat × Nat)) (held : Nat) : Tile :=
  let t := if p.hand || p.events.isEmpty then t else { t with evNow := t.evNow ++ [(p.writer, p.issue, p.events)] }
  match p.dest with
  | .slices s n v tag =>
    if blocked.any fun r => meets s n r.1 (r.2 - r.1) then
      { t with slices := t.slices.landExcept s n v tag.toNat fun x => blocked.any fun r => decide (r.1 ≤ x) && decide (x < r.2) }
    else { t with slices := t.slices.land s n v tag.toNat }
  | .preds m v =>
    let m := m &&& ~~~(BitVec.ofNat 16 held)
    { t with slices := { t.slices with preds := (t.slices.preds &&& ~~~m) ||| (v &&& m) } }
  | .tag g tag => { t with slices := t.slices.setTag g tag.toNat }
  | .csr n v => t.setCsr n v.toNat
  | .target i x => { t with ctl := { t.ctl with btgt := vset t.ctl.btgt i x } }
  | .winb b => { t with ctl := { t.ctl with winb := b } }
  | .slot i v w size host vpn pa => { t with wins := vset t.wins i ⟨v, w, size, host, vpn, pa⟩ }
  | .nothing => t

/-- What cause 18 says of a collision (R473). -/
def clashRaise (low : Nat) (p q : PendWrite) : Raise :=
  raiseEnd 18 (low + p.writer * 2 ^ 12 + q.writer * 2 ^ 16) (p.issue % 2 ^ 32 * 2 ^ 32 + q.issue % 2 ^ 32)

/-- The trap of a cycle's collisions: the lowest slice, else the lowest predicate (R91, R473). -/
def clashTrap (cl : List (Nat × Nat × PendWrite × PendWrite)) (pc : List (Nat × PendWrite × PendWrite)) : Option Raise :=
  let low := cl.foldl (fun m x => match m with
    | none => some x
    | some (y : Nat × Nat × PendWrite × PendWrite) => if x.1 < y.1 then some x else some y) none
  match low with
  | some x => some (clashRaise x.1 x.2.2.1 x.2.2.2)
  | none =>
    (List.range 16).findSome? fun n => (pc.find? fun x => x.1.testBit n).map fun x => clashRaise (n + 2 ^ 20) x.2.1 x.2.2

/-- The writes due by cycle k on one of the tile's clocks land, and leave the pending list (R86-R91). A granule whose tag
writes collide keeps its tag, and the trap names its first slice (R246). -/
def Tile.landAll (t : Tile) (hand : Bool) (k : Nat) : Tile :=
  let due := byIssue (t.pend.filter fun p => p.hand == hand && decide (p.land ≤ k))
  let cl := clashes due
  let pc := predClashes due
  let tc := tagClashes due
  let old := t.slices
  let t := { t with pend := t.pend.filter fun p => !(p.hand == hand && decide (p.land ≤ k)) }
  let t := due.foldl (fun t p => t.landWrite p (cl.map fun x => (x.1, x.2.1)) (pc.foldl (fun m x => m ||| x.1) 0)) t
  let t := { t with slices := tc.foldl (fun z x => z.setTag x.1 (old.tag x.1)) t.slices }
  match clashTrap (cl ++ tc.map fun x => (16 * x.1, 16 * x.1, x.2)) pc with
  | some r => t.addRaise r
  | none => t

/-- Slice, predicate, tag and CSR writes land (R86): on the handler's clock inside a handler. -/
def execSliceWriteLanding (s : State) : Host.Outcome State Fault Refusal :=
  match s.at? with
  | none => .fault .noTile
  | some (f, t, c) => .next (s.putTile f (t.landAll c.hand c.k))

/-- A remote atomic performs at its home (R347, R350, R352): what it answers, and the home. A request that is uncorrectable in the
landing buffer is discarded with cause 84 (R475). -/
def Tile.homeAtomic (t : Tile) (g : Flit) : Tile × Option RatomReply :=
  match g.pay with
  | .request _ op addr w a b u rnd =>
    if g.bad then (t.addRaise (raiseEnd 84 4 0), none)
    else match t.badWord addr (w / 8) with
    | some _ => (t.poisonWords (t.badWords addr (w / 8)), some ⟨0, true, [], false⟩)
    | none =>
      let t := t.corrects addr (w / 8)
      let old := t.bytes addr (w / 8)
      let x := atomApply op w old a b u rnd
      let t := match x.1 with
        | some y => (t.store addr (w / 8) y).wroteBy addr (w / 8) g.srcX g.srcY 2
        | none => t
      (t, some ⟨old, false, evOf x.2, false⟩)
  | _ => (t, none)

/-- The remote atomics that have reached the tile perform in the order of their senders, and their replies leave (R319,
R350). -/
def Tile.homeAtomics (t : Tile) (x y k : Nat) : Tile :=
  let out := t.net.router.out
  let t := t.onRouter fun r => { r with out := [] }
  (sortFlits out).foldl (fun t g =>
    let r := t.homeAtomic g
    match g.pay, r.2 with
    | .request id .., some a =>
      let f : Flit := { srcX := x, srcY := y, tgts := [(g.srcX, g.srcY)], born := k + 1, bad := false
                        pay := .reply id a.value a.poison a.events }
      r.1.onRouter fun r => { r with inj := r.inj ++ [f] }
    | _, _ => r.1) t

/-- The senders of the requests that a tile performs in cycle k know that their home has performed them (R318, R350). -/
def Folio.homed (f : Folio) (out : List Flit) (k : Nat) : Folio :=
  out.foldl (fun f g => match g.pay, g.bad with
    | .request id .., false => f.onTile (f.tileAt g.srcX g.srcY) fun t =>
        { t with ap := { t.ap with ratoms := t.ap.ratoms.map fun r => if r.id == id then { r with homed := some k } else r } }
    | _, _ => f) f

/-- Remote atomics perform at the tile (R350). -/
def execRatomHomePerform (s : State) : Host.Outcome State Fault Refusal :=
  match s.at? with
  | none => .fault .noTile
  | some (f, t, c) =>
    let f' := f.onTile s.cursor.tile fun t => t.homeAtomics c.fx c.fy c.cyc
    .next (s.setFolio (f'.homed t.net.router.out c.cyc))

/-- The replies due in cycle k land, or are late (R350, R352), or uncorrectable (R475). -/
def Tile.replies (t : Tile) (k : Nat) : Tile :=
  t.ap.ratoms.foldl (fun t r =>
    if r.land != k then t
    else match r.reply with
      | none => t.addRaise (raiseEnd 63 k 0)
      | some a =>
        if a.bad then t.addRaise (raiseEnd 84 4 0)
        else if a.poison then t.addRaise (raiseEnd 80 r.addr 0)
        else t.post { land := k, issue := r.issue, writer := 2, hand := false, dest := .slices r.vs (r.w / 4) a.value 0
                      events := a.events }) t

/-- The replies of remote atomics land (R350). -/
def execRatomReplyLanding (s : State) : Host.Outcome State Fault Refusal :=
  match s.at? with
  | none => .fault .noTile
  | some (f, t, c) => .next (s.putTile f (t.replies c.cyc))

/-- The configuration of a class in cycle k: a write that takes effect now counts (R199, log 64). -/
def Tile.nevCfgAt (t : Tile) (n k : Nat) : Dword :=
  t.pend.foldl (fun v p => match p.dest with
    | .csr m x => if !p.hand && p.land == k && m == 0x058 + n then x else v
    | _ => v) (vget t.csr.nevcfg n)

/-- The windows of the six classes that start in cycle k (R199). -/
def Tile.nevStarts (t : Tile) (k : Nat) : Tile :=
  { t with csr := { t.csr with nevcnt := Vector.ofFn fun i => nevStart (t.nevCfgAt i.val k) t.csr.nevcnt[i] k } }

/-- Event windows start (R199). -/
def execNevWindowStart (s : State) : Host.Outcome State Fault Refusal :=
  match s.at? with
  | none => .fault .noTile
  | some (f, t, c) => .next (s.putTile f (t.nevStarts c.cyc))

/-- Events of a class in a cycle. -/
def evCount (l : List (Nat × Nat × List (Nat × Nat))) (n : Nat) : Nat :=
  (l.map fun x => ((x.2.2.filter fun p => p.1 == n).map Prod.snd).sum).sum

/-- The first contributing instruction of some classes: lowest queue, then issue cycle (R200). -/
def firstContributor (l : List (Nat × Nat × List (Nat × Nat))) (mask : Nat) : Nat × Nat :=
  let hit := l.filter fun x => x.2.2.any fun p => mask.testBit p.1 && p.2 != 0
  match hit with
  | [] => (0, 0)
  | x :: r => r.foldl (fun m y => if y.1 < m.1 || (y.1 == m.1 && decide (y.2.1 < m.2)) then (y.1, y.2.1) else m) (x.1, x.2.1)

/-- The classes of a mode that acted. -/
def actedMask (acts : List (Nat × Nat)) (mode : Nat) : Nat := ((acts.filter fun x => x.2 == mode).map fun x => 2 ^ x.1).sum

/-- The lowest class of a mask. -/
def lowBit (mask : Nat) : Nat := ((List.range 6).find? fun n => mask.testBit n).getD 0

/-- Adds the cycle's events to the counts (R199, R200): the tile, with the traps of mode 1, one for each class (R461, R472), and the
notification of mode 2 as
mask, queue and issue cycle. -/
def Tile.countEvents (t : Tile) : Tile × Option (Nat × Nat × Nat) :=
  if t.evNow.isEmpty then (t, none)
  else
    let r := fun (i : Fin 6) => nevAdd (vget t.csr.nevcfg i.val) t.csr.nevcnt[i] (evCount t.evNow i.val)
    let acts := (List.finRange 6).filterMap fun i => if (r i).2 then some (i.val, nevMode (vget t.csr.nevcfg i.val)) else none
    let t' := { t with csr := { t.csr with nevcnt := Vector.ofFn fun i => (r i).1 }, evNow := [] }
    let m1 := actedMask acts 1
    let m2 := actedMask acts 2
    let a := firstContributor t.evNow m1
    let t' := { t' with
      raises := t'.raises ++ ((List.range 6).filter m1.testBit).map fun n => { raiseEnd (32 + n) a.1 a.2 with cls := m1 } }
    let b := firstContributor t.evNow m2
    (t', if m2 = 0 then none else some (m2, b.1, b.2))

end Sys2Proof.Machine
end

