-- ==== Sys2Proof/Machine/Order.lean ====
section
/-! DEFINITION. When accesses have performed (R311-R318, R354, R355, R358, R392), and the grant of a cycle: energy (R135),
tokens (R151), and the fences that may issue. -/

namespace Sys2Proof.Machine

/-- Cycles after its slot's start at which a posted line has reached the readers of a scope; none is not awaited (R354,
R355). -/
def reachDelay (scope : Option Nat) (host : Bool) (hlat : Nat) : Option Nat :=
  match scope, host with
  | none, _ => some 0
  | some s, false => some (if s < 2 then 2 else 240)
  | some s, true => if s = 3 then some hlat else none

/-- Whether a posted line has still to reach a scope's readers before cycle k (R355). -/
def CeLine.unreached (l : CeLine) (k : Nat) (scope : Option Nat) (hlat : Nat) : Bool :=
  l.route == .write && (match reachDelay scope (inHostWindow l.pa) hlat with
    | some d => decide (k ≤ l.start + d)
    | none => false)

/-- Whether a command posts its lines (R364). -/
def CeCmd.posts (m : CeCmd) : Bool := m.fn == 2 || (m.fn == 5 && m.mod == 0)

/-- Whether a command still has a posted line to bind that is awaited in a scope: a chained write of a block (R373). -/
def CeCmd.unbound (m : CeCmd) (scope : Option Nat) (hlat : Nat) : Bool :=
  match m.kind with
  | .block b => b.wq.any fun x => (reachDelay scope (inHostWindow x.1) hlat).isSome
  | _ => false

/-- Whether a CE command has an access that has not performed, or reached the readers of a scope, before cycle k: its reads in
the request stage, its posted lines, its completion signal word. -/
def Tile.cmdPending (t : Tile) (k : Nat) (scope : Option Nat) (m : CeCmd) : Bool :=
  if m.posts then
    (m.stop.isNone && decide (k < m.q0 + m.total)) || m.unbound scope t.csr.hlat || !m.signalled k
    || t.ce.lines.any fun l => l.cmd == m.id && l.unreached k scope t.csr.hlat
  else !m.performed k

/-- Whether a remote atomic has performed at its home before cycle k (R350). -/
def Ratom.performed (r : Ratom) (k : Nat) : Bool := match r.homed with
  | some h => decide (h < k)
  | none => false

/-- Whether an access that the tile issued before a cycle, with a class that is selected, has not performed before cycle k
(R313, R318, R354), or not reached a scope (R355). A fence waits for a remote atomic's landing (R354), a barrier for its
performing at its home (R318, R405). -/
def Tile.accessPending (t : Tile) (k before : Nat) (sel : Nat → Bool) (scope : Option Nat) (fence : Bool) : Bool :=
  (t.ap.accs.any fun a => !a.hand && decide (a.issue < before) && sel a.cls && decide (k ≤ a.perf))
  || (t.ap.ratoms.any fun r => decide (r.issue < before) && sel r.cls && (if fence then decide (k ≤ r.land) else !r.performed k))
  || (match t.ap.sleep with
      | some w => decide (w.issue < before) && sel w.cls
      | none => false)
  || (t.mx.pend.any fun p => decide (p.issue < before) && sel p.cls && decide (k ≤ p.land))
  || (match t.mx.mma with
      | some m => decide (m.issue < before) && sel m.cls
      | none => false)
  || (t.net.router.inj.any fun f => match f.pay with
      | .message _ _ _ i cl => decide (i < before) && sel cl
      | _ => false)
  || (t.net.recvs.any fun r => decide (r.issue < before) && sel r.cls && decide (k ≤ r.land))
  || (t.ce.cmds.any fun m => decide (m.issue < before) && sel m.cls && t.cmdPending k scope m)

/-- The same for a fence at a cursor: inside a handler, whose clock alone runs, the handler's own accesses (R313, R465). -/
def Tile.fencePending (t : Tile) (c : Ctx) (sel : Nat → Bool) (scope : Option Nat) : Bool :=
  if c.hand then t.ap.accs.any fun a => a.hand && decide (a.issue < c.k) && sel a.cls && decide (c.k ≤ a.perf)
  else t.accessPending c.k c.k sel scope true

/-- A queue's head: its PFX, if it has one, and the instruction behind it. -/
def Tile.headOf (t : Tile) (q : Queue) : Option (Option Entry × Entry) :=
  match t.ctl.entries q with
  | [] => none
  | e :: r =>
    if e.marker.isNone && major e.w0 == 0x5F then r.head?.map fun x => (some e, x)
    else some (none, e)

/-- The instruction at a queue's head, when its words decode. -/
def Tile.headInstr (t : Tile) (q : Queue) : Option Instr :=
  match t.headOf q with
  | some (_, e) => if e.marker.isSome then none else (decode q e.w0 e.w1).toOption
  | none => none

/-- What the head of a queue knows in this cycle (for its hold). -/
def headCtx (c : Ctx) (t : Tile) (q : Queue) : Ctx :=
  match t.headOf q with
  | some (p, e) => { c with q := q, e := e, pe := p }
  | none => { c with q := q, e := noEntry, pe := none }

/-- Whether a queue has a head that its queue does not hold. -/
def Tile.headReady (t : Tile) (c : Ctx) (q : Queue) : Bool :=
  (t.headOf q).isSome && !t.queueHeld (headCtx c t q)

/-- The WAITT heads that take their tokens in this cycle (R151), from the tokens left. -/
def grantTokens (t : Tile) (c : Ctx) (tok : Vector Nat 8) (qs : List Queue) : List Queue :=
  match qs with
  | [] => []
  | q :: r =>
    match t.headInstr q with
    | some (.waitt n count) =>
      if t.headReady c q && decide (count.toNat ≤ vget tok n.toNat) then
        q :: grantTokens t c (vset tok n.toNat (vget tok n.toNat - count.toNat)) r
      else grantTokens t c tok r
    | _ => grantTokens t c tok r

/-- Whether the fence or UNPIN at the head of AP may issue in cycle k (R354, R355, R358); log 17. -/
def Tile.fenceGo (t : Tile) (c : Ctx) : Bool :=
  t.headReady c .ap && (match t.headInstr .ap with
    | some (.fence mask) => !t.fencePending c (inMask mask.toNat) none
    | some (.sfence scope mask) => !t.fencePending c (inMask mask.toNat) (some scope.toNat)
    | some (.unpin _) => t.ce.cmds.all fun m => m.completed c.k
    | _ => false)

/-- Since when each head is at its head (R354). -/
def Tile.markHeads (t : Tile) (c : Ctx) : Tile :=
  allQueues.foldl (fun t q =>
    if (t.ctl.since q).isNone && t.headReady c q then
      { t with ctl := { t.ctl with headAt := vset t.ctl.headAt (queueNum q - 1) (some c.k) } }
    else t) t

/-- The grant of a cycle: the balance is refilled (R135), heads take their tokens, and a fence learns that it may issue.
Inside a handler no energy moves (R465). -/
def Tile.grant (t : Tile) (c : Ctx) : Tile :=
  let t := t.markHeads c
  let e := if c.hand then t.csr.ebal else min t.csr.ecap (t.csr.ebal + t.csr.erate)
  { t with
    csr := { t.csr with ebal := e }
    avail := e, blocked := false, fenced := []
    granted := grantTokens t c t.tok [.sq, .ap, .xu, .ce, .mx, .net]
    apGo := t.fenceGo c }

/-- The balance after the cycle's debits (R135). -/
def Tile.settleEnergy (t : Tile) : Tile := { t with csr := { t.csr with ebal := t.avail } }

end Sys2Proof.Machine
end

