-- ==== Sys2Proof/Machine/Lines.lean ====
section
/-! DEFINITION. What the copy engine's lines, slots, signals and Inkwell lanes do in a cycle (R126-R130, R321-R324, R363-R388),
after their requests (R362). -/

namespace Sys2Proof.Machine

/-- Whether line i of a command still moves (R364). -/
def CeCmd.moves (m : CeCmd) (i : Nat) : Bool :=
  match m.stop with
  | some j => decide (i < j)
  | none => true

/-- The command of a line, when the line still moves. -/
def Tile.cmdOf (t : Tile) (l : CeLine) : Option CeCmd := t.ce.cmds.find? fun m => m.id == l.cmd && m.moves l.idx

/-- Whether line i of a command has arrived at every target (R364). -/
def Tile.arrived (t : Tile) (id i : Nat) : Bool :=
  t.ce.lines.any fun l => l.route == .mesh && l.cmd == id && l.idx == i && l.targets.all fun x => l.got.contains x

/-- The on-chip lines of a command due in cycle k that have not arrived stop it (R364). -/
def Tile.lateLine (t : Tile) (k : Nat) (m : CeCmd) : Tile :=
  if !usesLat m.fn m.mod then t
  else if m.fn = 6 then
    if m.e = some k ∧ m.stop.isNone then
      (match (List.range m.total).find? fun i => !t.arrived m.id i with
        | some i => t.stopCmd m.id i (raiseEnd 64 k i)
        | none => t)
    else t
  else
    let first := m.issue + dLat m.desc
    if first ≤ k ∧ k - first < m.total ∧ m.moves (k - first) ∧ !t.arrived m.id (k - first) then
      t.stopCmd m.id (k - first) (raiseEnd 64 k (k - first))
    else t

/-- The value that a CPYSF lands (R376). -/
def Tile.sfValue (t : Tile) (m : CeCmd) : Nat :=
  (t.ce.lines.filter fun l => l.cmd == m.id).foldl (fun v l => v + l.data * 2 ^ (512 * l.idx)) 0

/-- The write of some of a CPYSF's slices from slice i of the command on, by the tile at ti (R91, R92, R376). -/
def CeCmd.sfWrite (m : CeCmd) (ti k i n v : Nat) : PendWrite :=
  { land := k, issue := m.issue, writer := if m.own then 4 else 7, hand := false, events := [], src := if m.own then 0 else 1 + ti
    dest := .slices (2 * bitsAt m.desc 64 11 + dHalf m.desc + i) n (v % 2 ^ (4 * n)) (BitVec.ofNat 5 (dTag m.desc)) }

/-- A CPYSF lands in its target's slice file (R92, R376): every other tile is a writer of its own there (R91). A line that is
uncorrectable in the landing buffer is discarded with cause 84, and the others land (R475). -/
def Folio.sfLand (f : Folio) (ti : Nat) (t : Tile) (k : Nat) (m : CeCmd) : Folio :=
  if m.fn = 6 ∧ m.e = some k ∧ m.stop.isNone then
    match m.targets with
    | x :: _ =>
      let n := dLen m.desc
      let lines := t.ce.lines.filter fun l => l.cmd == m.id
      f.onTile (f.tileAt x.1 x.2) fun d =>
        if lines.all fun l => !l.bad.contains x then d.post (m.sfWrite ti k 0 n (t.sfValue m))
        else lines.foldl (fun d l =>
          if l.bad.contains x then d.addRaise (raiseEnd 84 4 0)
          else d.post (m.sfWrite ti k (128 * l.idx) (min 128 (n - 128 * l.idx)) l.data)) d
    | [] => f
  else f

/-- What completes with a command in cycle k: TIMLD's overlay entry (R378) and the faults of its blocks (R373, R461). -/
def Tile.cmdDone (t : Tile) (k : Nat) (m : CeCmd) : Tile :=
  if m.e = some k ∧ m.stop.isNone then
    let t := if m.fn = 12 then
        t.setOvt (tlOvl m.desc) (BitVec.ofNat 64 (2 ^ 63 + tlCount m.desc * 2 ^ 16 + tlEntry m.desc))
      else t
    m.fault.foldl (fun t x => t.addRaise (raiseNamed x.1 m.line m.lane 4 x.2 0)) t
  else t

/-- The signal words that the tile at i sends: completions of this cycle, and a SIGW issued in the last one (R370, R379). -/
def Folio.sendSignal (f : Folio) (i k : Nat) (m : CeCmd) : Folio :=
  let me := (i % f.place.w, i / f.place.w)
  match m.sig, f.tiles[i]? with
  | some g, some t =>
    if m.fn = 7 then
      if m.issue + 1 = k then
        { f with signals := f.signals ++ [{ land := m.perf, sig := g, srcX := me.1, srcY := me.2, unit := 4 }] }
      else f
    else if m.e = some k ∧ m.stop.isNone then
      let at_ := t.signalAt (k + 1)
      let w : SignalFlight :=
        { land := at_ + hops f.place me.1 me.2 g.fx g.fy, sig := g, srcX := me.1, srcY := me.2, unit := 7 }
      Folio.onTile { f with signals := f.signals ++ [w] } i fun (t : Tile) =>
        ({ t with ce := { t.ce with sigFree := at_ + 1, sigLand := max t.ce.sigLand w.land } } : Tile).onCmd m.id
          fun m => { m with sland := some w.land }
    else f
  | _, _ => f

/-- What the commands of the tile at i do at the start of cycle k: late lines, slice-file copies, completions, signals. -/
def Folio.ceStart (f : Folio) (i k : Nat) : Folio :=
  match f.tiles[i]? with
  | none => f
  | some t =>
    if t.ce.cmds.isEmpty then f
    else
      let t := t.ce.cmds.foldl (fun t m => t.lateLine k m) t
      let t := t.ce.cmds.foldl (fun t m => t.cmdDone k m) t
      let f := { f with tiles := f.tiles.set i t }
      let f := t.ce.cmds.foldl (fun f m => f.sfLand i t k m) f
      t.ce.cmds.foldl (fun f m => f.sendSignal i k m) f

/-- A COLL lands its result at the tile (R382). -/
def execCollResultLanding (s : State) : Host.Outcome State Fault Refusal :=
  match s.at? with
  | none => .fault .noTile
  | some (f, t, c) =>
    .next (s.setFolio (t.ce.cmds.foldl (fun f m => match m.kind with
      | .coll n => if m.e = some c.cyc ∧ m.stop.isNone then f.collLand s.far s.cursor.tile c.cyc m n else f
      | _ => f) f))

/-- The data of a line with the marks of its words: a host read's are its completion's (R505). -/
def State.lineData (s : State) (l : CeLine) : Nat × Nat :=
  match l.outside with
  | none => (l.data, l.poison)
  | some id => ((s.hostReads.find? fun r => r.id == id).bind (·.got)).getD (0, 255)

/-- The lines of the tile's commands that land in cycle k are written (R364, R365): windows of the folio, or the buffer of a
block copy. One that is uncorrectable in its landing buffer is discarded with cause 84 (R475). -/
def State.landLines (s : State) (f : Folio) (t : Tile) (c : Ctx) : Folio :=
  t.ce.lines.foldl (fun f l =>
    match t.cmdOf l with
    | none => f
    | some m =>
      if l.land ≠ c.cyc ∨ m.fn = 6 then f
      else
        let d := s.lineData l
        let bad (x : Nat × Nat) (r : Tile) (y : Tile) : Tile := if l.bad.contains x then r.addRaise (raiseEnd 84 4 0) else y
        match l.route with
        | .mesh => l.targets.foldl (fun f x => f.onTile (f.tileAt x.1 x.2) fun r => bad x r <|
            (r.landLine l.off l.len d.1 d.2 m.form).wroteBy l.off l.len c.fx c.fy 4) f
        | .read => f.onTile s.cursor.tile fun r => bad (c.fx, c.fy) r <|
            (r.landLine l.off l.len (d.1 % 2 ^ (8 * l.len)) d.2 m.form).wroteBy l.off l.len c.fx c.fy (if l.outside.isSome then 9 else 4)
        | .blockRead => f.onTile s.cursor.tile fun r => bad (c.fx, c.fy) r (r.blockLine c m.id l.idx d.1 d.2)
        | _ => f) f

/-- Lines land (R364). -/
def execLineLanding (s : State) : Host.Outcome State Fault Refusal :=
  match s.at? with
  | none => .fault .noTile
  | some (f, t, c) => .next (s.setFolio (s.landLines f t c))

/-- Changes a line of a tile. -/
def Tile.onLine (t : Tile) (l : CeLine) (h : CeLine → CeLine) : Tile :=
  { t with ce := { t.ce with lines := t.ce.lines.map fun x => if x = l then h x else x } }

/-- The access of one line in its HBM slot (R321, R322, R367, R476). -/
def State.slotAccess (s : State) (f : Nat) (i : Nat) (l : CeLine) : State :=
  if l.route = .write then s.writeLine l.pa l.data (l.poison != 0)
  else
    let r := s.readLine l.pa
    r.2.2.onFolio f fun g => g.onTile i fun t => t.onLine l fun (x : CeLine) =>
      { x with data := r.1, poison := if r.2.1 then 255 else 0 }

/-- Whether a line of a copy uses a slot that begins in cycle k. -/
def CeLine.startsAt (l : CeLine) (k : Nat) : Bool :=
  l.start == k && (l.route == .read || l.route == .write || l.route == .blockRead)

/-- HBM line accesses perform (R126, R321). -/
def execHbmSlotAccess (s : State) : Host.Outcome State Fault Refusal :=
  match s.at? with
  | none => .fault .noTile
  | some (_, t, c) =>
    .next (t.ce.lines.foldl (fun s l =>
      if l.startsAt c.cyc && !inHostWindow l.pa && (t.cmdOf l).isSome then s.slotAccess s.cursor.folio s.cursor.tile l else s) s)

/-- The access of one line in its host slot (R130, R324, R505): a read takes the host's memory as it stands when it is sent and
awaits its completion; a write is sent, poisoned or not (log 25). Both wait while another world is served (R425). -/
def State.hostAccess (s : State) (f : Folio) (i : Nat) (l : CeLine) : State :=
  let r : HostRead :=
    { id := s.readCtr, folio := f.place.idx, world := f.place.func, addr := s.hostAddr f.place.func l.pa, data := none, got := none
      write := if l.route = .write then some (l.data, l.poison != 0) else none }
  let s := ({ s.keepRead r with readCtr := s.readCtr + 1 } : State).serveReads
  if l.route = .write then s
  else
    s.onFolio f.place.idx fun g => g.onTile i fun t => t.onLine l fun (x : CeLine) => { x with outside := some (s.readCtr - 1) }

/-- Host-slot requests are sent (R130). -/
def execHostSlotAccess (s : State) : Host.Outcome State Fault Refusal :=
  match s.at? with
  | none => .fault .noTile
  | some (f, t, c) =>
    .next (t.ce.lines.foldl (fun s l =>
      if l.startsAt c.cyc && inHostWindow l.pa && (t.cmdOf l).isSome then s.hostAccess f s.cursor.tile l else s) s)

/-- The slot access of an Inkwell line (R384, R387): a bound slot of an item that failed stays idle. -/
def State.inkAccess (s : State) (f i : Nat) (t : Tile) (l : CeLine) : State :=
  match t.cmdOf l with
  | none => s
  | some m =>
    if l.route = .inkRead then
      match m.kind with
      | .ink k =>
        if ikLimit m.desc k ≤ l.idx then s
        else
          let r := s.readLine l.pa
          r.2.2.onFolio f fun g => g.onTile i fun t => t.inkGot l r.1 r.2.1
      | _ => s
    else
      match m.inkStore l with
      | none => s
      | some x => (s.writeLine l.pa x.1 false).onFolio f fun g => g.onTile i fun t => t.inkWrote l x.2.1 x.2.2

/-- Whether an Inkwell line of an op uses a slot that begins in cycle k. -/
def Tile.inkStarts (t : Tile) (op k : Nat) (l : CeLine) : Bool :=
  l.start == k && (l.route == .inkRead || l.route == .inkWrite)
  && t.ce.cmds.any fun m => m.id == l.cmd && m.fn == 10 && ikOp m.desc == op

/-- The slot accesses of an Inkwell op at the tile (R384, R385). -/
def inkSlots (op : Nat) (s : State) : Host.Outcome State Fault Refusal :=
  match s.at? with
  | none => .fault .noTile
  | some (_, t, c) =>
    .next ((t.ce.lines.filter (t.inkStarts op c.cyc)).foldl (fun s l =>
      match (s.folio? s.cursor.folio).bind fun f => f.tiles[s.cursor.tile]? with
      | some t => s.inkAccess s.cursor.folio s.cursor.tile t l
      | none => s) s)

/-- FILL (R384). -/
def execInkwellFill (s : State) : Host.Outcome State Fault Refusal := inkSlots 1 s

/-- COPY (R384). -/
def execInkwellCopy (s : State) : Host.Outcome State Fault Refusal := inkSlots 2 s

/-- AXPBY (R384). -/
def execInkwellAxpby (s : State) : Host.Outcome State Fault Refusal := inkSlots 3 s

/-- SGDWF (R384). -/
def execInkwellSgdwf (s : State) : Host.Outcome State Fault Refusal := inkSlots 4 s

/-- MOMWF (R384). -/
def execInkwellMomwf (s : State) : Host.Outcome State Fault Refusal := inkSlots 5 s

/-- RQNT (R384). -/
def execInkwellRqnt (s : State) : Host.Outcome State Fault Refusal := inkSlots 6 s

/-- DIGEST (R384). -/
def execInkwellDigest (s : State) : Host.Outcome State Fault Refusal := inkSlots 7 s

/-- The status words of Inkwell commands land (R386). -/
def Tile.inkStatuses (t : Tile) (k : Nat) : Tile :=
  t.ce.cmds.foldl (fun t m => match m.kind with
    | .ink i =>
      if m.e = some k then (t.store (ikSt m.desc) 8 (ikStatus m.desc i)).wroteBy (ikSt m.desc) 8 255 255 8 else t
    | _ => t) t

/-- Inkwell status words land (R386). -/
def execInkwellStatusLanding (s : State) : Host.Outcome State Fault Refusal :=
  match s.at? with
  | none => .fault .noTile
  | some (f, t, c) => .next (s.putTile f (t.inkStatuses c.cyc))

/-- The signal words that land in cycle k are written (R370), in the order of log 54. -/
def Folio.landSignals (f : Folio) (k : Nat) : Folio :=
  let due := f.signals.filter fun g => g.land == k
  due.foldl (fun f g => f.onTile (f.tileAt g.sig.fx g.sig.fy) fun t =>
    (t.store g.sig.off 8 g.sig.value).wroteBy g.sig.off 8 g.srcX g.srcY g.unit)
    { f with signals := f.signals.filter fun g => g.land != k }

/-- Signal words land (R370). -/
def execCompletionSignalWrite (s : State) : Host.Outcome State Fault Refusal :=
  match s.folio? s.cursor.folio with
  | none => .fault .noTile
  | some f => .next (s.setFolio (f.landSignals f.cycle))

/-- Posted writes of the tile complete (R128, R130). -/
def execPostedWriteCompletion (s : State) : Host.Outcome State Fault Refusal :=
  match s.at? with
  | none => .fault .noTile
  | some (f, t, c) =>
    let l := t.ce.lines.filter fun l => !((l.route == .write || l.route == .inkWrite) && decide (l.land ≤ c.cyc))
    .next (s.putTile f { t with ce := { t.ce with lines := l } })

/-- Whether a result from outside that is due at the tile at i in the folio's next cycle has not arrived (R121, R123): a collective
whose members are known to differ waits for none (R381, log 109). -/
def State.lateTile (s : State) (f : Folio) (i : Nat) (t : Tile) : Bool :=
  (t.ce.lines.any fun l => l.land == f.cycle && (t.cmdOf l).isSome && (match l.outside with
    | some id => ((s.hostReads.find? fun r => r.id == id).bind (·.got)).isNone
    | none => false))
  || (t.ce.cmds.any fun m => match m.kind with
    | .coll n => m.e == some f.cycle
      && !((t.ce.shares.find? fun sh => sh.num == n).any fun sh => f.collDiffers s.far (i % f.place.w) (i / f.place.w) sh)
      && ((farIds f.place.idx f.launch.lpkg.toNat n m.desc).any fun x => !s.far.any fun p => p.id % 2 ^ 88 == x)
    | _ => false)

/-- Counts the landings that freeze the folio (R497). -/
def State.countLate (s : State) (f : Folio) : Folio :=
  if f.freeze.late then f
  else { f with tiles := f.tiles.zipIdx.map fun p =>
    let t := p.1
    if s.lateTile f p.2 t then { t with prof := { t.prof with late := t.prof.late + 1 } } else t }

/-- Whether a slot of the agenda belongs to a folio's cycle. -/
def Slot.ofFolio (f : Nat) (x : Slot) : Bool :=
  match x with
  | .act c _ => c.folio == f
  | .issue c | .reissue c => c.folio == f
  | .stage _ g => g == f
  | .service | .hub => false

/-- The folio freezes before a cycle whose outside results have not all arrived, and thaws once they have (R121). -/
def execLateLandingFreeze (s : State) : Host.Outcome State Fault Refusal :=
  match s.folio? s.cursor.folio with
  | none => .fault .noTile
  | some f =>
    let late := f.tiles.zipIdx.any fun p => s.lateTile f p.2 p.1
    let s := s.setFolio { s.countLate f with freeze := { f.freeze with late := late } }
    .next (if late then { s with agenda := s.agenda.filter fun x => !x.ofFolio f.place.idx } else s)

/-- Cleans up the copy engine after cycle k: Inkwell commands that end, lines and commands that are over; a command stays until
its completion signal word has landed (R311). -/
def Tile.ceFinish (t : Tile) (k : Nat) : Tile :=
  if t.ce.cmds.isEmpty && t.ce.lines.isEmpty then t
  else
    let t := t.ce.cmds.foldl (fun t m => t.inkFinish k m) t
    { t with ce := { t.ce with
      cmds := t.ce.cmds.filter fun m => (match m.e with
        | some e => decide (k < e)
        | none => true) || (match m.sland with
        | some l => decide (k < l)
        | none => false)
      lines := t.ce.lines.filter fun l => decide (k < l.land) } }

/-- Whether a member's share is still to be used: some member of its group has not issued its COLL of that number, or not
landed it (R382). -/
def Folio.shareLive (f : Folio) (sh : Share) : Bool :=
  f.tiles.zipIdx.any fun p => keyHas sh.key (p.2 % f.place.w, p.2 / f.place.w) && p.1.awaitsColl sh.num

/-- Drops the shares of collectives that are over. -/
def Folio.dropShares (f : Folio) : Folio :=
  if f.tiles.all fun t => t.ce.shares.isEmpty then f
  else { f with tiles := f.tiles.map fun t => { t with ce := { t.ce with shares := t.ce.shares.filter f.shareLive } } }

end Sys2Proof.Machine
end

