-- ==== Sys2Proof/Machine/Debug.lean ====
section
/-! DEFINITION. The debug machinery (R488-R498): debug stops with their dump, trace, watchpoints, the wait log, snapshots and
profiling; and the drain entries of flits (R172). None of it changes a region-local cycle. -/

namespace Sys2Proof.Machine

/-- Whether a log field names 2^8 to 2^20 entries (R492). -/
def capOn (base : Dword) : Bool := decide (8 ≤ base.toNat % 32) && decide (base.toNat % 32 ≤ 20)

/-- Whether a folio's trace is on. -/
def Capture.tracing (c : Capture) : Bool := capOn c.trbase && c.trsel.getLsbD 0 && !c.done

/-- Puts a row of the table at the head of what is still to be done. -/
def State.next (s : State) (c : Cursor) (i : Instr) : State := { s with agenda := .act c i :: s.agenda }

/-- The cursor of a folio's tile. -/
def cursorAt (f t : Nat) (q : Queue) : Cursor := { folio := f, tile := t, queue := q, func := 0 }

/-- Changes a folio's capture block. -/
def State.onCap (s : State) (f : Nat) (h : Capture → Capture) : State := s.onFolio f fun x => { x with cap := h x.cap }

/-- Capture stops once the entries after the trigger have been written (R493). -/
def State.endTrace (s : State) (f : Nat) : State :=
  match s.folio? f with
  | some x => if x.cap.left = some 0 ∧ !x.cap.done then s.next (cursorAt f 0 .sq) .traceCaptureEnd else s
  | none => s

/-- The first trigger of a trace (R492, R493), in a cycle of the folio: src is the bit of TRTRIG. -/
def State.trigger (s : State) (f src cyc : Nat) : State :=
  match s.folio? f with
  | none => s
  | some x =>
    if x.cap.tracing && x.cap.trtrig.getLsbD src && x.cap.left.isNone then
      (s.onCap f fun c => { c with left := some (c.trtrig.toNat / 2 ^ 32), trigAt := cyc }).endTrace f
    else s

/-- Whether a trace takes an entry of a tile: an issue of a selected queue, or another event (R492). -/
def Capture.takes (c : Capture) (x y kind queue : Nat) : Bool :=
  c.tracing && c.left != some 0 && bitsAt c.trsel.toNat 24 8 == x && bitsAt c.trsel.toNat 16 8 == y
  && (if kind = 0 then c.trsel.getLsbD (1 + queue) else c.trsel.getLsbD 1)

/-- Writes a trace entry of the tile at i in a cycle (R493); kind 0 issue, 1 trap, 2 stop, 3 wake. Its layout is log 26. -/
def State.trace (s : State) (f i cyc kind queue lane line w0 w1 : Nat) : State :=
  match s.folio? f with
  | none => s
  | some x =>
    if !x.cap.takes (i % x.place.w) (i / x.place.w) kind queue then s
    else
      let v := cyc % 2 ^ 64 + kind * 2 ^ 64 + queue * 2 ^ 72 + lane * 2 ^ 80 + line * 2 ^ 96 + w0 * 2 ^ 128 + w1 * 2 ^ 160
      let b := x.cap.trbase.toNat
      let s := { s with hostMem := s.hostMem.writeN (b / 2 ^ 12 * 2 ^ 12 + x.cap.written % 2 ^ (b % 32) * 32) 32 v }
      (s.onCap f fun c => { c with written := c.written + 1, left := c.left.map (· - 1) }).endTrace f

/-- Capture ends with its record (R493). -/
def execTraceCaptureEnd (s : State) : Host.Outcome State Fault Refusal :=
  match s.folio? s.cursor.folio with
  | none => .next s
  | some f =>
    let s := s.onCap f.place.idx fun c => { c with done := true }
    .next (s.event 0 (Event.plain 9 0 f.launch.job.toNat f.cap.written f.cap.trigAt))

/-- TRTRIG bit 3 triggers at once (R492). -/
def execTraceTriggerNow (n : Nat) (s : State) : Host.Outcome State Fault Refusal :=
  match s.folio? n with
  | none => .next s
  | some f =>
    if f.cap.tracing && f.cap.left.isNone then
      .next ((s.onCap n fun c => { c with left := some (c.trtrig.toNat / 2 ^ 32), trigAt := f.cycle }).endTrace n)
    else .next s

/-- Writes an entry of the wait log (R495), for the waiter at i: kind, queue, object, cycles waited, setter as tile and unit,
whether it still waits, wake cycle. -/
def State.waitLog (s : State) (f i kind queue object waited : Nat) (by_ : Nat × Nat × Nat) (still : Bool) (wake : Nat) : State :=
  match s.folio? f with
  | none => s
  | some x =>
    if !capOn x.cap.wlbase || (!still && decide (waited < max 1 x.cap.wlmin.toNat)) then s
    else
      let v := i % x.place.w + i / x.place.w * 2 ^ 8 + queue * 2 ^ 16 + kind * 2 ^ 24 + object % 2 ^ 32 * 2 ^ 32
        + waited % 2 ^ 32 * 2 ^ 64 + by_.1 * 2 ^ 96 + by_.2.1 * 2 ^ 104 + by_.2.2 * 2 ^ 112 + (if still then 2 ^ 120 else 0)
        + wake % 2 ^ 64 * 2 ^ 128
      let b := x.cap.wlbase.toNat
      let s := { s with hostMem := s.hostMem.writeN (b / 2 ^ 12 * 2 ^ 12 + x.cap.logged % 2 ^ (b % 32) * 32) 32 v }
      s.onCap f fun c => { c with logged := c.logged + 1 }

/-- The agent that last wrote bytes of program SPAD, as tile and unit (R495); 255 stands for the tile at i itself. -/
def Tile.setterOf (t : Tile) (p : Place) (i off : Nat) : Nat × Nat × Nat :=
  match t.setters.find? fun w => meets w.first w.len off 8 with
  | some w => if w.fx = 255 then (i % p.w, i / p.w, w.unit) else (w.fx, w.fy, w.unit)
  | none => (0, 0, 0)

/-- Logs the end of a WAITA's sleep (R495), and traces its wake (R493). -/
def State.wakeLog (s : State) (f i : Nat) (t : Tile) (w : Sleep) : State :=
  match s.folio? f with
  | none => s
  | some x =>
    (s.trace f i x.cycle 3 2 w.lane w.line w.w0.toNat w.w1.toNat).waitLog f i 1 2 w.addr (x.cycle - w.issue)
      (t.setterOf x.place i w.addr) false x.cycle

/-- The wait that a queue's head makes, if it is one of the wait log's (R495): its kind, its object, and the setter that
ends it. -/
def Tile.waitOf (t : Tile) (f : Folio) (i : Nat) (q : Queue) : Option (Nat × Nat × (Nat × Nat × Nat)) :=
  let own (u : Nat) : Nat × Nat × Nat := (i % f.place.w, i / f.place.w, u)
  match t.headInstr q with
  | some (.waitt n _) => some (2, n.toNat, own (vget t.sigBy n.toNat))
  | some (.recvw o) =>
    let h := t.chan o.ch
    some (3, o.ch.toNat, match h.msgs.find? fun m => m.ord == h.taken with
      | some m => (m.srcX, m.srcY, 6)
      | none => (0, 0, 0))
  | some (.barw n) => let l := vget f.barLast n.toNat; some (4, n.toNat, (l.1, l.2, 6))
  | some (.inkf _) => some (5, 0, own 8)
  | _ => none

/-- Logs what a queue's head waited for when it issued in cycle k (R495): t is the tile before its issue. -/
def State.issueLog (s : State) (f : Folio) (i : Nat) (t : Tile) (q : Queue) (k : Nat) : State :=
  match t.waitOf f i q with
  | some w => s.waitLog f.place.idx i w.1 (queueNum q) w.2.1 (k - (t.ctl.since q).getD k) w.2.2 false k
  | none => s

/-- Logs the waits of the tile at i that are still open at a debug stop after cycle cyc (R495): a sleeping WAITA, and every head
that has held. -/
def State.openWaits (s : State) (f : Folio) (cyc : Nat) (i : Nat) (t : Tile) : State :=
  let s := match t.ap.sleep with
    | some w => s.waitLog f.place.idx i 1 2 w.addr (cyc - w.issue) (0, 0, 0) true 0
    | none => s
  allQueues.foldl (fun s q =>
    match t.waitOf f i q, t.ctl.since q with
    | some w, some k => s.waitLog f.place.idx i w.1 (queueNum q) w.2.1 (cyc - k) (0, 0, 0) true 0
    | _, _ => s) s

/-- Fields of a watchpoint (R494). -/
def wpType (w : Nat) : Nat := bitsAt w 62 2
def wpOn (w : Nat) : Nat := bitsAt w 60 2

/-- Whether a watchpoint's tile fields take a tile; 0xFF is any. -/
def wpTile (w x y : Nat) : Bool :=
  (bitsAt w 48 8 == x || bitsAt w 48 8 == 255) && (bitsAt w 40 8 == y || bitsAt w 40 8 == 255)

/-- The hits of a watchpoint in the folio's cycle (R494), or in a cycle of its handlers, which only write words. -/
def Folio.wpHits (f : Folio) (w : Nat) (hand : Bool) : Nat :=
  if wpType w = 1 then
    if wpOn w ≠ 0 then 0
    else (f.tiles.zipIdx.map fun p =>
      if bitsAt w 48 8 = p.2 % f.place.w ∧ bitsAt w 40 8 = p.2 / f.place.w then
        (p.1.wrote.filter fun x => meets x.first x.len (8 * bitsAt w 20 17) 8).length
      else 0).sum
  else if wpType w = 2 ∧ !hand then
    let n := bitsAt w 20 5
    let now (t : Tile) : Bool := vget t.net.bars n == some f.cycle
    if wpOn w = 2 then (if f.barFlips.contains n then 1 else 0)
    else if wpOn w = 1 ∧ !(f.tiles.all fun t => (vget t.net.bars n).isSome) then 0
    else if wpOn w ≤ 1 then
      let l := (f.tiles.zipIdx.filter fun p => now p.1 && wpTile w (p.2 % f.place.w) (p.2 / f.place.w)).length
      if wpOn w = 1 then min 1 l else l
    else 0
  else 0

/-- A folio's watchpoints at the end of a cycle, its own or its handlers': hits and their actions (R494). -/
def State.watch (s : State) (fi : Nat) (hand : Bool) : State :=
  (List.range 8).foldl (fun s m =>
    match s.folio? fi with
    | none => s
    | some f =>
      let w := (vget f.cap.wp m).toNat
      let h := f.wpHits w hand
      if h = 0 then s
      else
        let hits := min 0xFFFF (w % 2 ^ 16 + h)
        let s := s.onCap fi fun c => { c with wp := vset c.wp m (BitVec.ofNat 64 (w / 2 ^ 16 * 2 ^ 16 + hits)) }
        let s := if w.testBit 59 then s.event 0 (Event.plain 10 0 f.launch.job.toNat m hits) else s
        let s := if w.testBit 58 then
            s.onFolio fi fun x => { x with dbg := { x.dbg with stopReq := x.dbg.stopReq.or (some 3) } }
          else s
        if w.testBit 57 then s.trigger fi 0 f.cycle else s) s

/-- The totals of the catalog's events at a tile (R497). -/
def Prof.totals (p : Prof) (cycles : Nat) : Vector Nat 12 :=
  Vector.ofFn fun i =>
    match i.val with
    | 0 => cycles
    | 7 => p.holdSb
    | 8 => p.holdEnergy
    | 9 => (p.slots.map fun x => x.2.2).sum
    | 10 => p.late
    | 11 => p.lost
    | n => vget p.issues (n - 1)

/-- The selected counters advance by a running cycle's events (R497). -/
def Prof.count (p : Prof) (b : ProfBlock) (cycles : Nat) : Prof :=
  let now := p.totals cycles
  { p with
    last := now
    cnt := if b.cfg.getLsbD 0 then Vector.ofFn fun i =>
        let e := bitsAt b.sel.toNat (8 * i.val) 8
        if 12 ≤ e then 0 else p.cnt[i] + BitVec.ofNat 64 (vget now e - vget p.last e)
      else p.cnt }

/-- PROFSTAT.mis (R497). -/
def ProfBlock.mismatch (b : ProfBlock) : Bool :=
  bitsAt b.cfg.toNat 32 32 != 0x4B5A0001 || (List.range 8).any fun m => decide (12 ≤ bitsAt b.sel.toNat (8 * m) 8)

/-- Writes of the profiling block take effect at a cycle boundary (R497). -/
def ProfBlock.apply (b : ProfBlock) : ProfBlock :=
  { cfg := b.newCfg.getD b.cfg, sel := b.newSel.getD b.sel, tile := b.newTile.getD b.tile
    newCfg := none, newSel := none, newTile := none }

/-- A drain entry of a flit (R172). -/
def drainEntry (payload place order dx dy chan crossed land : Nat) : Nat :=
  payload % 2 ^ 512 + place * 2 ^ 512 + order % 256 * 2 ^ 520 + dx * 2 ^ 544 + dy * 2 ^ 552 + chan * 2 ^ 560 + crossed * 2 ^ 568
  + land % 2 ^ 64 * 2 ^ 576

/-- What a flit carries, as drain data (log 27). -/
def Folio.payload (f : Folio) (g : Flit) : Nat :=
  match g.pay with
  | .message _ _ v _ _ => v
  | .reply _ v _ _ => v
  | .request _ _ _ w a b _ _ => a + b * 2 ^ w
  | .line c i =>
    match (f.tiles[f.tileAt g.srcX g.srcY]?).bind fun t => t.ce.lines.find? fun l => l.cmd == c && l.idx == i with
    | some l => l.data
    | none => 0
  | .share n i =>
    match (f.tiles[f.tileAt g.srcX g.srcY]?).bind fun t => t.ce.shares.find? fun sh => sh.num == n with
    | some sh => bitsAt sh.data (512 * i) 512
    | none => 0

/-- The landing cycle that a flit's receiver has named (R172): for a line its command's, for a remote atomic and its reply the
atomic's; a message in the mesh has none yet. -/
def Folio.landOf (f : Folio) (g : Flit) : Nat :=
  let atomAt (x y id : Nat) : Nat :=
    ((f.tiles[f.tileAt x y]?).bind fun t => (t.ap.ratoms.find? fun r => r.id == id).map (·.land)).getD 0
  match g.pay with
  | .message .. => 0
  | .reply id .. => let x := g.tgts.headD (0, 0); atomAt x.1 x.2 id
  | .request id .. => atomAt g.srcX g.srcY id
  | .share n _ =>
    let x := g.tgts.headD (0, 0)
    ((f.tiles[f.tileAt x.1 x.2]?).bind fun t => (t.ce.shares.find? fun sh => sh.num == n).map (·.land)).getD 0
  | .line c i =>
    ((f.tiles[f.tileAt g.srcX g.srcY]?).bind fun t =>
      (t.ce.lines.find? fun l => l.cmd == c && l.idx == i).map (·.land)).getD 0

/-- The messages in a tile's landing buffer with their channels, oldest first (R172). -/
def Tile.landed (t : Tile) : List (Nat × Msg) :=
  ((t.net.chans.toList.zipIdx).flatMap fun c => c.1.msgs.map fun m => (c.2, m)).mergeSort fun a b => decide (a.2.came ≤ b.2.came)

/-- The landing cycle that a receive has named for a message (R391). -/
def Tile.recvLand (t : Tile) (ch : Nat) (m : Msg) : Nat :=
  ((t.net.recvs.find? fun r => r.ch == ch && r.ord == m.ord).map (·.land)).getD 0

/-- The drain entry of a flit that the tile at i holds (R172). -/
def Folio.flitEntry (f : Folio) (i place order : Nat) (g : Flit) : Nat :=
  let x := g.tgts.headD (0, 0)
  drainEntry (f.payload g) place order (ofSigned 8 ((x.1 : Int) - (i % f.place.w : Nat))) (ofSigned 8 ((x.2 : Int) - (i / f.place.w : Nat)))
    (match g.pay with
      | .message ch .. => ch
      | _ => 0)
    (if seamCost f.place g.srcX x.1 = 0 then 0 else 1) (f.landOf g)

/-- The queue whose instruction sent a flit (R489). -/
def Payload.unit (p : Payload) : Nat :=
  match p with
  | .line .. | .share .. => 4
  | .message .. => 6
  | .request .. | .reply .. => 2

/-- The flits that the tile at i holds, as drain entries (R172) with the queues that sent them: its landing buffer, router inputs,
injection queue and the seam stages that lead into its router. -/
def Folio.flitsAt (f : Folio) (i : Nat) (t : Tile) : List (Nat × Nat) :=
  let port (place first : Nat) (l : List Flit) : List (Nat × Nat) :=
    l.zipIdx.map fun p => (p.1.pay.unit, f.flitEntry i place (first + p.2) p.1)
  let r := t.net.router
  let held := t.landed.zipIdx.map fun p => (6, drainEntry p.1.2.value 0 p.2 0 0 p.1.1 0 (t.recvLand p.1.1 p.1.2))
  let seam := f.seams.flatMap fun l =>
    if f.tileAt (if l.east then f.place.seam else f.place.seam - 1) l.row = i then
      (l.stages.reverse.zipIdx).filterMap fun p => p.1.map fun g => (g.pay.unit, f.flitEntry i (if l.east then 6 else 7) p.2 g)
    else []
  held ++ port 0 held.length r.out ++ port 1 0 r.negX ++ port 2 0 r.posX ++ port 3 0 r.negY ++ port 4 0 r.posY ++ port 5 0 r.inj
    ++ seam

/-- The drain entries of the tile at i (R172). -/
def Folio.flitEntries (f : Folio) (i : Nat) (t : Tile) : List Nat := (f.flitsAt i t).map Prod.snd

/-- Writes entries of 128 bytes into the drain area (R172, R489). -/
def Tile.drain (t : Tile) (l : List Nat) : Tile :=
  ((l.take 256).zipIdx).foldl (fun t p => { t with stores := { t.stores with mem := t.stores.mem.writeN (0xF8000 + 128 * p.2) 128 p.1 } }) t

/-- An in-flight item of a debug stop (R489). -/
structure Item where
  data : Nat
  kind : Nat
  unit : Nat
  size : Nat
  dest : Nat
  land : Nat
  extra : Nat
  ref : ItemRef

/-- The issuing queue of a pending write: another tile's CPYSF is CE's, a message NET's (R473, R489). -/
def PendWrite.unit (p : PendWrite) : Nat := if p.writer = 7 then 4 else if p.writer = 8 then 6 else p.writer

/-- The window offset of a CSR (R22). -/
def csrOff (n : Nat) : Nat := 0x1F0000 + 8 * n

/-- The item of a tile's pending write: kinds 1-3, and 9 inside a handler (R489). A write of a CSR, a target register, WINB or a
window slot names its CSR's window offset, as kind 4 outside a handler (log 69). -/
def pendItem (p : PendWrite) (n : Nat) : Option Item :=
  let mk (kind data size dest : Nat) : Item :=
    { data := data, kind := if p.hand then 9 else kind, unit := p.unit, size := size, dest := dest, land := p.land, extra := 0
      ref := .pend n }
  match p.dest with
  | .slices s k v _ => some (mk 1 v (4 * k) s)
  | .preds m v => some (mk 2 v.toNat 16 m.toNat)
  | .tag g x => some (mk 3 x.toNat 5 g)
  | .csr c v => some (mk 4 v.toNat 8 (csrOff c))
  | .target i x => some (mk 4 (ofSigned 12 x.line) 8 (csrOff (0x018 + i)))
  | .winb b => some (mk 4 b 8 (csrOff 0x010))
  | .slot i v w size host vpn pa => some (mk 4 (Window.csr ⟨v, w, size, host, vpn, pa⟩) 8 (csrOff (0x200 + i)))
  | .nothing => none

/-- The item of an access of the AP that has not performed: a store's bytes, or, with no data yet, the slices that a load or an
atomic will write (R489, log 69). -/
def ApAcc.item (a : ApAcc) (n : Nat) : Item :=
  let mk (kind data size dest land : Nat) (ref : ItemRef) : Item :=
    { data := data, kind := if a.hand then 9 else kind, unit := 2, size := size, dest := dest, land := land, extra := 0, ref := ref }
  match a.kind with
  | .load _ _ vs w _ => mk 1 0 w vs (a.issue + 4) .fixed
  | .store addr nb v => mk 4 v nb addr a.perf (.acc n)
  | .atom _ _ w vs _ _ _ _ => mk 1 0 w vs (a.issue + 6) .fixed

/-- The items of a pending write of MX (R297, R489): as bytes of its destination store. -/
def MxPend.item (p : MxPend) (n : Nat) : Item :=
  let mk (data size dest : Nat) : Item :=
    { data := data, kind := 4, unit := 5, size := size, dest := dest, land := p.land, extra := 0, ref := .mx n }
  match p.dest with
  | .acc k v => mk v 0x4000 (0x140000 + k * 0x4000)
  | .spad off len v => mk v len off
  | .wbuf off len v _ => mk v len (0x100000 + off)

/-- The landing cycle of a running MMA whose chunks are not held back (R289). -/
def Mma.landAt (m : Mma) : Nat := m.lastStart + (m.n - m.chunks.length + 1) * m.t

/-- Whether a command stands in the request stage after cycle k: requests or lines of it are still to come (R362, R489). -/
def CeCmd.inStage (m : CeCmd) (k : Nat) : Bool := m.stop.isNone && (m.left != 0 || decide (k + 1 < m.q0 + m.total))

/-- The state bytes of kind 8 after cycle k (R489): the descriptor's first slice, the next line to be requested, and up to three
slot cursors of 8 bytes each as channel above slot number (log 69). -/
def CeCmd.stage (m : CeCmd) (cursors : List SlotCursor) (k : Nat) : Nat :=
  m.dstart + min m.total (k + 1 - m.q0) % 2 ^ 64 * 2 ^ 64
  + ((cursors.take 3).zipIdx.map fun p => (p.1.last % 2 ^ 48 + p.1.ch % 2 ^ 16 * 2 ^ 48) * 2 ^ (128 + 64 * p.2)).sum

/-- Whether a pending write is one whose value the hub is still to name, a PROBE's (R357): no resume puts it back (log 69). -/
def Tile.awaitsHub (t : Tile) (p : PendWrite) : Bool := t.probe.any fun x => !p.hand && p.writer == 2 && p.issue == x.2.2.2

/-- Every in-flight item of the tile at i after cycle k in ascending order of landing cycle (R489). -/
def Folio.items (f : Folio) (i : Nat) (t : Tile) (k : Nat) : List Item :=
  let fixed (kind unit land extra data : Nat) : Item :=
    { data := data, kind := kind, unit := unit, size := 0, dest := 0, land := land, extra := extra, ref := .fixed }
  let pends := t.pend.zipIdx.filterMap fun p => (pendItem p.1 p.2).map fun x => if t.awaitsHub p.1 then { x with ref := .fixed } else x
  let lines := t.ce.lines.zipIdx.filterMap fun p =>
    if p.1.route == .mesh || p.1.route == .read then
      some { data := p.1.data, kind := 4, unit := 4, size := p.1.len, dest := p.1.off, land := p.1.land, extra := 0, ref := .line p.2 : Item }
    else none
  let flits := (f.flitsAt i t).map fun e => fixed 5 e.1 (bitsAt e.2 576 64) (bitsAt e.2 512 128) (bitsAt e.2 0 512)
  let mma := match t.mx.mma with
    | some m => [fixed 6 5 m.landAt (m.w0.toNat + m.w1.toNat * 2 ^ 32 + m.chunks.length * 2 ^ 64 + m.lastStart % 2 ^ 64 * 2 ^ 128) 0]
    | none => []
  let replies := t.ap.ratoms.zipIdx.filterMap fun p => p.1.reply.map fun r =>
    { data := r.value, kind := 7, unit := 2, size := p.1.w / 8, dest := p.1.vs, land := p.1.land, extra := 0, ref := .reply p.2 : Item }
  let reqs := t.ce.cmds.filterMap fun m =>
    if m.inStage k then some (fixed 8 4 0 (m.stage t.ce.cursors k) 0) else none
  let sleep := match t.ap.sleep with
    | some w => [fixed 10 2 0 (w.w0.toNat + w.w1.toNat * 2 ^ 32) 0]
    | none => []
  let accs := t.ap.accs.zipIdx.map fun p => p.1.item p.2
  let mx := t.mx.pend.zipIdx.map fun p => p.1.item p.2
  let recvs := t.net.recvs.map fun r =>
    let m := (vget t.net.chans r.ch).msgs.find? fun m => m.ord == r.ord
    { data := (m.map fun m => m.value % 2 ^ r.w).getD 0, kind := 1, unit := 6, size := r.w, dest := r.vs, land := r.land, extra := 0
      ref := if m.isSome then .msg r.ch r.ord else .fixed : Item }
  let signals := f.signals.zipIdx.filterMap fun p =>
    if f.tileAt p.1.sig.fx p.1.sig.fy = i then
      some { data := p.1.sig.value, kind := 4, unit := 4, size := 8, dest := p.1.sig.off, land := p.1.land, extra := 0, ref := .signal p.2 : Item }
    else none
  (pends ++ lines ++ flits ++ mma ++ replies ++ reqs ++ sleep ++ accs ++ mx ++ recvs ++ signals).mergeSort fun a b => decide (a.land ≤ b.land)

/-- The 128 bytes of an item's dump entry (R489). -/
def Item.entry (x : Item) (cyc : Nat) : Nat :=
  x.data % 2 ^ 512 + x.kind * 2 ^ 512 + x.unit * 2 ^ 520 + x.size % 2 ^ 16 * 2 ^ 528 + x.dest % 2 ^ 32 * 2 ^ 544
  + x.land % 2 ^ 64 * 2 ^ 576 + (x.land - cyc) % 2 ^ 64 * 2 ^ 640 + x.extra % 2 ^ 320 * 2 ^ 704

/-- Changes element n of a list of pending writes and the like to carry dump data (R490). -/
def PendWrite.withData (p : PendWrite) (d : Nat) : PendWrite :=
  { p with dest := match p.dest with
    | .slices s k v tag => .slices s k (putBits v 0 (min 512 (4 * k)) d) tag
    | .preds m _ => .preds m (BitVec.ofNat 16 d)
    | .tag g _ => .tag g (BitVec.ofNat 5 d)
    | .csr c _ => .csr c (BitVec.ofNat 64 (csrKeep c d))
    | .target i x => .target i (if d % 2 ^ 64 = ofSigned 12 x.line then x else { x with line := (d % 4096 : Nat) })
    | .winb _ => .winb (d % 256)
    | .slot i _ _ _ _ _ pa => let w := Window.ofCsr d pa; .slot i w.v w.w w.size w.host w.vpn w.pa
    | .nothing => .nothing }

/-- A pending write of MX carries dump data (R490). -/
def MxPend.withData (p : MxPend) (d : Nat) : MxPend :=
  { p with dest := match p.dest with
    | .acc k v => .acc k (putBits v 0 512 d)
    | .spad off len v => .spad off len (putBits v 0 (min 512 (8 * len)) d)
    | .wbuf off len v form => .wbuf off len (putBits v 0 (min 512 (8 * len)) d) form }

/-- A store under way carries dump data (R490). -/
def ApAcc.withData (a : ApAcc) (d : Nat) : ApAcc :=
  { a with kind := match a.kind with
    | .store addr nb v => .store addr nb (putBits v 0 (min 512 (8 * nb)) d)
    | x => x }

/-- A message that a receive will land carries dump data (R490). -/
def Channel.withData (h : Channel) (ord d : Nat) : Channel :=
  { h with msgs := h.msgs.map fun m => if m.ord == ord then { m with value := putBits m.value 0 m.width d } else m }

/-- The data of a dump entry as they stand (R490). -/
def Tile.dumped (t : Tile) (n : Nat) : Nat := t.bytes (0xF8000 + 128 * n) 64

/-- An item takes the data of its dump entry as they stand at resume (R490). -/
def Tile.restoreItem (t : Tile) (n : Nat) (x : ItemRef) : Tile :=
  let d := t.dumped n
  match x with
  | .pend i => { t with pend := lmap t.pend i fun p => p.withData d }
  | .line i => { t with ce := { t.ce with lines := lmap t.ce.lines i fun (l : CeLine) => { l with data := d % 2 ^ (8 * l.len) } } }
  | .reply i => { t with ap := { t.ap with ratoms := lmap t.ap.ratoms i fun (r : Ratom) =>
      { r with reply := r.reply.map fun (a : RatomReply) => { a with value := d % 2 ^ r.w } } } }
  | .acc i => { t with ap := { t.ap with accs := lmap t.ap.accs i fun a => a.withData d } }
  | .mx i => { t with mx := { t.mx with pend := lmap t.mx.pend i fun p => p.withData d } }
  | .msg ch ord => { t with net := { t.net with chans := vset t.net.chans ch ((vget t.net.chans ch).withData ord d) } }
  | .signal _ | .fixed => t

/-- The signal words under way take the data of their dump entries (R490). -/
def Folio.restoreSignals (f : Folio) : List SignalFlight :=
  (f.tiles.zip f.dbg.items).foldl (fun l p => p.2.zipIdx.foldl (fun l x =>
    match x.1 with
    | .signal n => lmap l n fun (g : SignalFlight) => { g with sig := { g.sig with value := p.1.dumped x.2 % 2 ^ 64 } }
    | _ => l) l) f.signals

/-- A debug stop of a folio at its cycle boundary (R489): the dump, the record, the open waits, and the freeze. A stop that is due at
the pen-lift point just run waits for the first one after the resume (R491). -/
def State.debugStop (s : State) (fi source : Nat) : State :=
  match s.folio? fi with
  | none => s
  | some f =>
    let cyc := if f.freeze.handler || f.freeze.posted then f.cycle else f.cycle - 1
    let l := f.tiles.zipIdx.map fun p => f.items p.2 p.1 cyc
    let brk := f.tiles.zipIdx.findSome? fun p => p.1.brkNow.map fun b => (p.2, b)
    let tiles := f.tiles.zipIdx.map fun p => { p.1.drain ((l.getD p.2 []).map fun x => x.entry cyc) with brkNow := none }
    let count := (l.map fun x => min 256 x.length).sum
    let s := s.setFolio { f with
      tiles := tiles
      freeze := { f.freeze with debug := true }
      penDue := false
      dbg := { f.dbg with items := l.map fun x => (x.take 256).map fun y => y.ref
                          stopReq := none, source := source, state := 2, cnt := count % 2 ^ 16
                          stopAt := if f.dbg.stopAt.any fun n => decide (n ≤ cyc) then none else f.dbg.stopAt
                          ovf := l.any fun x => decide (256 < x.length) } }
    let e := Event.plain 8 (if source = 4 then 91 else 0) f.launch.job.toNat source count
    let e := match brk with
      | some b => { e with fx := b.1 % f.place.w, fy := b.1 / f.place.w, line := b.2.1, lane := b.2.2.1, queue := 1, arg := b.2.2.2
                           cycle := cyc }
      | none => { e with cycle := cyc }
    let s := s.event 0 e
    let s := f.tiles.zipIdx.foldl (fun s p => s.openWaits f cyc p.2 p.1) s
    let s := f.tiles.zipIdx.foldl (fun s p => s.trace fi p.2 cyc 2 0 0 0 0 0) s
    s.trigger fi 2 cyc

/-- The placement index that DBGCMD names (R488). -/
def State.dbgTarget (s : State) : Nat := bitsAt s.dev.dbgcmd.toNat 0 12

/-- A debug stop takes effect (R489): by DBGCMD op 1, or at the end of a cycle by the source that asked for it. -/
def execDebugStop (s : State) : Host.Outcome State Fault Refusal :=
  match s.folio? s.cursor.folio with
  | none => .next s
  | some f => if f.freeze.debug then .next s else .next (s.debugStop f.place.idx (f.dbg.stopReq.getD 1))

/-- The folio has reached DBGCYC (R489). -/
def execDebugCycleReached (s : State) : Host.Outcome State Fault Refusal := .next (s.debugStop s.cursor.folio 2)

/-- DBGCMD op 2 (R490): the dumped data go back, the drain area is cleared, and the folio may run. -/
def execDebugResume (s : State) : Host.Outcome State Fault Refusal :=
  match s.folio? s.cursor.folio with
  | none => .next s
  | some f =>
    if !f.freeze.debug then .next s
    else
      let tiles := f.tiles.zipIdx.map fun p =>
        let t := (f.dbg.items.getD p.2 []).zipIdx.foldl (fun t x => t.restoreItem x.2 x.1) p.1
        { t with stores := { t.stores with mem := t.stores.mem.clear 0xF8000 0x8000 } }
      .next (s.setFolio { f with
        tiles := tiles
        signals := f.restoreSignals
        freeze := { f.freeze with debug := false }
        dbg := { f.dbg with items := [], state := if f.dbg.stopAt.isSome then 1 else 0, cnt := 0, ovf := false } })

/-- DBGCMD op 3 (R489): a stop after cycle DBGCYC, refused for a cycle already past. A folio that is stopped keeps reading as
stopped (log 100). -/
def execDebugStopAtCycle (s : State) : Host.Outcome State Fault Refusal :=
  .next (s.onFolio s.cursor.folio fun f =>
    let past := decide (s.dev.dbgcyc.toNat < f.cycle)
    { f with dbg := { f.dbg with
      stopAt := if past then f.dbg.stopAt else some s.dev.dbgcyc.toNat
      state := if f.freeze.debug then f.dbg.state else if past then 3 else 1 } })

/-- DBGCMD op 4 (R488). -/
def execArmBrk (s : State) : Host.Outcome State Fault Refusal :=
  .next (s.onFolio s.cursor.folio fun f => { f with dbg := { f.dbg with brkArmed := true } })

/-- DBGCMD op 5 (R488). -/
def execDisarmBrk (s : State) : Host.Outcome State Fault Refusal :=
  .next (s.onFolio s.cursor.folio fun f => { f with dbg := { f.dbg with brkArmed := false } })

/-- Latches a folio's snapshot registers (R496). -/
def State.snapshot (s : State) (f : Folio) : State :=
  { s with dev := { s.dev with
    snaps := (s.dev.snaps.filter fun x => x.1 != f.place.idx) ++ f.tiles.zipIdx.map fun p => (f.place.idx, p.2, p.1.prof) } }

/-- SNAPGO op 1 (R496). -/
def execSnapshotFolio (s : State) : Host.Outcome State Fault Refusal :=
  match s.folio? s.cursor.folio with
  | none => .next s
  | some f => .next (s.snapshot f)

/-- SNAPGO op 2 (R496). -/
def execSnapshotPackage (s : State) : Host.Outcome State Fault Refusal := .next (s.folios.foldl State.snapshot s)

/-- The value of a counter of a folio's selected tile (R497). -/
def Folio.profCounter (f : Folio) (m : Nat) : Dword :=
  match f.tiles[f.tileAt (bitsAt f.prof.tile.toNat 8 8) (bitsAt f.prof.tile.toNat 0 8)]? with
  | some t => if 12 ≤ bitsAt f.prof.sel.toNat (8 * m) 8 then 0 else vget t.prof.cnt m
  | none => 0

/-- A read of a counter's low half answers it and latches the high half for the function (R497, R498). -/
def execProfcntLowRead (func n m : Nat) (s : State) : Host.Outcome State Fault Refusal :=
  let v := match s.folio? n with
    | some f => if func = 0 ∨ func = f.place.func then (f.profCounter m).toNat else 0
    | none => 0
  .next { s with dev := { s.dev with
    reply := v % 2 ^ 32, replyPoison := false
    latched := (s.dev.latched.filter fun x => !(x.1 == func && x.2.1 == n && x.2.2.1 == m)) ++ [(func, n, m, v / 2 ^ 32)] } }

end Sys2Proof.Machine
end

