-- ==== Sys2Proof/Machine/Translate.lean ====
section
/-! DEFINITION. Translation (R431-R443): page walks, the folio's distributed TLB, PROBE's resolution with its fault
records and their answers, TLBINV, and the migration of a page. -/

namespace Sys2Proof.Machine

/-- A page that a walk maps: its physical address, size code, and whether it is writable and in host memory. -/
structure Page where
  pa : Nat
  size : Nat
  w : Bool
  host : Bool
  deriving DecidableEq, Repr, Inhabited

/-- How a walk ends (R436), before the check that the channel is bound; a mapped walk names the address of its leaf. -/
inductive WalkEnd where
  | mapped (p : Page) (leaf : Nat)
  | absent
  | malformed
  deriving DecidableEq, Repr

/-- Whether a channel is leased to a function. -/
def State.leased (s : State) (ch f : Nat) : Bool :=
  let c := vget s.dram.chans ch
  c.v && c.func == f

/-- The line of a table that holds an entry, as the walker reads it (R435, R436): none when the walk may not or cannot read
it. -/
def State.tableLine (s : State) (f pa : Nat) : Option Nat × State :=
  if !backed pa || !s.leased (chanNum pa) f then (none, s)
  else
    let r := s.hubRead pa
    (if r.2.1 then none else some r.1, r.2.2)

/-- Bits of the virtual address that each level indexes: lowest bit and width (R435). -/
def levelBits (level : Nat) : Nat × Nat :=
  match level with
  | 0 => (43, 11) | 1 => (30, 13) | 2 => (21, 9) | _ => (16, 5)

/-- Bytes of a level's table (R435). -/
def tableBytes (level : Nat) : Nat := 8 * 2 ^ (levelBits level).2

/-- Whether a page of a size lies wholly in the backed part of one channel (R432, R436). -/
def pageBacked (pa size : Nat) : Bool :=
  decide (pa < 2 ^ 39) && decide (bitsAt pa 0 31 + pageBytes size ≤ 0x60000000)

/-- A leaf at a level (R435, R436). -/
def leafPage (level entry at_ : Nat) : WalkEnd :=
  let size := 3 - level
  let pa := bitsAt entry 8 40 * 256
  let host := entry.testBit 60
  if level = 0 ∨ pa % pageBytes size ≠ 0 then .malformed
  else if host then
    (if inHostWindow pa && decide (pa + pageBytes size ≤ 0xF00000000000) then
      .mapped ⟨pa, size, entry.testBit 61, true⟩ at_ else .malformed)
  else if pageBacked pa size then .mapped ⟨pa, size, entry.testBit 61, false⟩ at_ else .malformed

/-- The walk of a virtual address from a table on (R436), over the levels that are left. -/
def State.walkFrom (s : State) (f va level table fuel : Nat) : WalkEnd × State :=
  match fuel with
  | 0 => (.malformed, s)
  | fuel + 1 =>
    let b := levelBits level
    let at_ := table + 8 * bitsAt va b.1 b.2
    match s.tableLine f at_ with
    | (none, s) => (.malformed, s)
    | (some l, s) =>
      let e := bitsAt l (8 * (at_ % 64)) 64
      if !e.testBit 63 then (.absent, s)
      else if bitsAt e 48 12 ≠ 0 ∨ bitsAt e 0 8 ≠ 0 then (.malformed, s)
      else if e.testBit 62 then (leafPage level e at_, s)
      else if e.testBit 61 || e.testBit 60 then (.malformed, s)
      else
        let next := bitsAt e 8 40 * 256
        if 3 ≤ level ∨ next % tableBytes (level + 1) ≠ 0 then (.malformed, s)
        else State.walkFrom s f va (level + 1) next fuel

/-- The walk of a virtual address of a function (R434-R436); translation that is not enabled finds no mapping. -/
def State.walk (s : State) (f va : Nat) : WalkEnd × State :=
  let r := (s.func f).ptroot.toNat
  if !r.testBit 0 then (.absent, s) else s.walkFrom f va 0 (bitsAt r 14 34 * 2 ^ 14) 4

/-- Whether a mapped page is bound to a folio (R436, R420). -/
def Place.bound (p : Place) (g : Page) : Bool := g.host || p.chans.any fun x => x.2 == chanNum g.pa

/-- The home tile of an address in the distributed TLB (R437). -/
def homeTile (p : Place) (va : Nat) : Nat :=
  let vpn := bitsAt va 16 38
  crng32 (vpn % 2 ^ 32 ^^^ vpn / 2 ^ 32) 0 % (p.w * p.h)

/-- Fills the home's slice, whose least recently filled entry makes room (R437). -/
def Tile.fillTlb (t : Tile) (va : Nat) (g : Page) : Tile :=
  let l := t.tlb ++ [⟨bitsAt va 16 38, g.pa, g.size, g.w, g.host⟩]
  { t with tlb := l.drop (l.length - 256) }

/-- The status word of a PROBE (R357). -/
def probeStatus (g : Option Page) : Nat :=
  match g with
  | none => 1
  | some g => g.size * 64 + (if g.w then 32 else 0) + (if g.host then 16 else 0)

/-- What the hub makes of a pending write of the tile, when it is one of the PROBE that issued in cycle k: its status word, and
its slot where the page is mapped (R357). -/
def PendWrite.probed (p : PendWrite) (slot va k : Nat) (g : Option Page) : PendWrite :=
  if p.hand || p.writer != 2 || p.issue != k then p
  else match p.dest, g with
    | .slices d 8 _ _, g => { p with dest := .slices d 8 (probeStatus g) 0 }
    | .nothing, some g =>
      { p with dest := .slot slot true g.w g.size g.host (va / pageBytes g.size * pageBytes g.size / 2 ^ 16) g.pa }
    | _, _ => p

/-- The window slot and status word that a PROBE lands in the first cycle after its freeze (R357). -/
def Tile.probeDone (t : Tile) (slot va k : Nat) (g : Option Page) : Tile :=
  { t with probe := none, pend := t.pend.map fun p => p.probed slot va k g }

/-- A PROBE of the tile at i ends; the folio thaws once none is left (R357). -/
def Folio.endProbe (f : Folio) (i slot va k : Nat) (g : Option Page) : Folio :=
  let f := f.onTile i fun t => t.probeDone slot va k g
  let f := match g with
    | some g => f.onTile (homeTile f.place va) fun t =>
        if t.tlb.any fun e => e.vpn == bitsAt va 16 38 then t else t.fillTlb va g
    | none => f
  { f with freeze := { f.freeze with probe := f.tiles.any fun t => t.probe.isSome } }

/-- Writes a fault record (R439). -/
def State.faultRecord (s : State) (f : Folio) (i slot va kind : Nat) : State :=
  let n := f.place.func
  let r := s.func n
  let v := va + f.launch.job.toNat * 2 ^ 64 + i % f.place.w * 2 ^ 96 + i / f.place.w * 2 ^ 104 + slot * 2 ^ 112
    + kind * 2 ^ 120 + r.frtail.toNat * 2 ^ 128
  let s := { s with hostMem := s.hostMem.writeN (ringSlot r.frbase r.frtail.toNat 32) 32 v }
  (s.onFunc n fun r => { r with frtail := r.frtail + 1 }).interrupt n 2

/-- Whether a migration is moving the page of a function's virtual address: a PROBE of it waits (R329, R442; log 104). -/
def State.migHolds (s : State) (f va : Nat) : Bool :=
  let z := pageBytes (bitsAt s.mig.va.toNat 56 2)
  s.mig.state == 1 && bitsAt s.mig.va.toNat 58 6 == f && va / z == s.mig.va.toNat % 2 ^ 38 * 2 ^ 16 / z

/-- What a walk for a PROBE of the tile at i comes to (R436, R439); again says that it follows an answer of the host. -/
def State.probeWalk (s : State) (f : Folio) (i slot va k : Nat) (again : Bool) : State :=
  let n := f.place.func
  let r := s.walk n va
  let s := r.2
  let fin (s : State) (g : Option Page) : State := s.onFolio f.place.idx fun f => f.endProbe i slot va k g
  let fault (kind : Nat) : State :=
    if again || !ringOn (s.func n).frbase then fin s none
    else if kind = 0 then
      { s.faultRecord f i slot va 0 with
        faults := s.faults ++ [⟨n, (s.func n).frtail.toNat, f.place.idx, i, false⟩] }
    else fin (s.faultRecord f i slot va kind) none
  match r.1 with
  | .mapped g _ => if f.place.bound g then fin s (some g) else fault 2
  | .absent => fault 0
  | .malformed => fault 1

/-- Whether a PROBE of a tile awaits the host's answer (R439). -/
def State.awaitsHost (s : State) (f i : Nat) : Bool := s.faults.any fun x => x.folio == f && x.tile == i && !x.again

/-- Whether the fault of a tile's PROBE has been answered and its second walk is still to come (R439). -/
def OpenFault.walksAgain (x : OpenFault) (f i : Nat) : Bool := x.folio == f && x.tile == i && x.again

/-- The hub resolves the PROBE of a tile through the TLB and the page tables (R357, R437). -/
def execProbeResolve (s : State) : Host.Outcome State Fault Refusal :=
  match s.at? with
  | none => .fault .noTile
  | some (f, t, _) =>
    match t.probe with
    | none => .next s
    | some (slot, va, _, k) =>
      if s.awaitsHost f.place.idx s.cursor.tile || s.migHolds f.place.func va then .next s
      else
        let second := fun (x : OpenFault) => x.walksAgain f.place.idx s.cursor.tile
        let again := s.faults.any second
        let s := { s with faults := s.faults.filter fun x => !second x }
        match (f.tiles[homeTile f.place va]?).bind fun h => h.tlb.find? fun e => e.vpn == bitsAt va 16 38 with
        | some e => .next (s.setFolio (f.endProbe s.cursor.tile slot va k (some ⟨e.pa, e.size, e.w, e.host⟩)))
        | none => .next (s.probeWalk f s.cursor.tile slot va k again)

/-- A write of FACK (R439): the record with its number is answered. A second walk waits while the page migrates (log 104). -/
def execFack (func : Nat) (value : BitVec 64) (s : State) : Host.Outcome State Fault Refusal :=
  let s := s.onFunc func fun r => { r with fack := keepFields [(0, 33)] value }
  match s.faults.find? fun x => x.func == func && x.seq == value.toNat % 2 ^ 32 && !x.again with
  | none => .next s
  | some x =>
    let old := s
    let s := { s with faults := s.faults.filter fun y => y != x }
    match s.folio? x.folio with
    | none => .next s
    | some f =>
      match (f.tiles[x.tile]?).bind fun t => t.probe with
      | none => .next s
      | some (slot, va, _, k) =>
        if value.getLsbD 32 then .next (s.setFolio (f.endProbe x.tile slot va k none))
        else if s.migHolds f.place.func va then
          .next { old with faults := old.faults.map fun y => if y == x then { y with again := true } else y }
        else .next (s.probeWalk f x.tile slot va k true)

/-- Drops the entries of a function's slices that lie within a page, or all of them (R438). -/
def State.dropTlb (s : State) (f vpn size : Nat) (all : Bool) : State :=
  let z := pageBytes size / 2 ^ 16
  let keep (e : Tlb) : Bool := !all && e.vpn / z != vpn / z
  { s with folios := s.folios.map fun g =>
      if g.place.func != f then g
      else { g with tiles := g.tiles.map fun t => { t with tlb := t.tlb.filter keep } } }

/-- A write of TLBINV (R438). -/
def execTlbinv (func : Nat) (value : BitVec 64) (s : State) : Host.Outcome State Fault Refusal :=
  .next ((s.onFunc func fun r => { r with tlbinv := keepFields [(26, 38), (0, 3)] value }).dropTlb func (bitsAt value.toNat 26 38)
    (value.toNat % 4) (value.getLsbD 2))

/-- Whether a pending write pins a page: a PROBE's that lands in the first cycle after its freeze (R357). -/
def PendWrite.pins (p : PendWrite) (pa : Nat) : Bool :=
  match p.dest with
  | .slot _ v _ _ _ _ a => v && a == pa
  | _ => false

/-- How many window slots pin a page of a function (R440), those that are about to be filled among them. -/
def State.pinCount (s : State) (f pa : Nat) : Nat :=
  ((s.folios.filter fun g => g.place.func == f).map fun g =>
    (g.tiles.map fun t => (t.wins.toList.filter fun w => w.v && w.pa == pa).length + (t.pend.filter fun p => p.pins pa).length).sum).sum

/-- Fields of MIGVA and MIGDST (R441). -/
def Mig.func (m : Mig) : Nat := bitsAt m.va.toNat 58 6
def Mig.size (m : Mig) : Nat := bitsAt m.va.toNat 56 2
def Mig.vaddr (m : Mig) : Nat := m.va.toNat % 2 ^ 38 * 2 ^ 16
def Mig.dest (m : Mig) : Nat := bitsAt m.dst.toNat 16 32 * 2 ^ 16

/-- Whether a migration of a mapped page is refused (R442). -/
def State.migRefused (s : State) (g : Page) : Bool :=
  let f := s.mig.func
  let d := s.mig.dest
  g.size != s.mig.size || s.pinCount f g.pa != 0
  || (s.folios.any fun x => x.place.func == f && !x.held && !g.host && x.place.chans.any fun c => c.2 == chanNum g.pa)
  || d % pageBytes g.size != 0 || !pageBacked d g.size || !s.leased (chanNum d) f

/-- A write of MIGDST with go = 1 (R442): refused, or the copier starts. -/
def execMigratePage (s : State) : Host.Outcome State Fault Refusal :=
  if s.mig.state = 1 then .next s
  else
    let refuse (s : State) : State := { s with mig := { s.mig with state := 3 } }
    match s.walk s.mig.func s.mig.vaddr with
    | (.mapped g leaf, s) =>
      if s.migRefused g then .next (refuse s)
      else .next { s with mig := { s.mig with state := 1, line := 0, srcPa := g.pa, leafPa := leaf, lines := pageBytes g.size / 64 } }
    | (_, s) => .next (refuse s)

/-- PROBEs that waited for the end of a migration are resolved (R357). -/
def State.retryProbes (s : State) (f : Nat) : State :=
  let rows (g : Folio) : List Slot := g.tiles.zipIdx.filterMap fun p =>
    if p.1.probe.isSome && !s.awaitsHost g.place.idx p.2 then some (.act ⟨g.place.idx, p.2, .sq, f⟩ .probeResolve) else none
  { s with agenda := s.agenda ++ (s.folios.filter fun g => g.place.func == f).flatMap rows }

/-- The migration ends in a state (R441). -/
def State.migEnd (s : State) (n : Nat) : State := ({ s with mig := { s.mig with state := n } } : State).retryProbes s.mig.func

/-- The migration aborts at its line (R443). -/
def State.migAbort (s : State) : State := s.migEnd 4

/-- The copier's last step (R442): the leaf names the new place, and the page leaves every slice of the function. A leaf's line that
reads poisoned keeps its mark (R477, log 112). -/
def State.migFinish (s : State) : State :=
  let m := s.mig
  let r := s.hubRead m.leafPa
  let old := bitsAt r.1 (8 * (m.leafPa % 64)) 64
  let e := putBits (putBits old 8 40 (m.dest / 256)) 60 1 0
  let s := r.2.2.writeLine m.leafPa (putBits r.1 (8 * (m.leafPa % 64)) 64 e) r.2.1
  (s.dropTlb m.func (m.vaddr / 2 ^ 16) m.size false).migEnd 2

/-- The source line of a migration as the copier reads it (R442, R446): its data and mark, or none when it fails or is poisoned (R443,
R476; log 102). -/
def State.migRead (s : State) (pa : Nat) : Option (Nat × Bool) × State :=
  if inHostWindow pa then (some (s.hostMem.readN (s.hostAddr s.mig.func pa) 64, false), s)
  else
    let r := s.hubRead pa
    (if s.lineStops pa then none else some (r.1, false), r.2.2)

/-- The copier moves one line of the migrating page (R442, R443). -/
def execMigrationLineCopy (s : State) : Host.Outcome State Fault Refusal :=
  if s.mig.state ≠ 1 then .next s
  else
    let d := s.mig.dest + 64 * s.mig.line
    match s.migRead (s.mig.srcPa + 64 * s.mig.line) with
    | (none, s) => .next s.migAbort
    | (some v, s) =>
      if !s.leased (chanNum d) s.mig.func then .next s.migAbort
      else
        let s := s.writeLine d v.1 v.2
        let s := { s with mig := { s.mig with line := s.mig.line + 1 } }
        .next (if s.mig.line = s.mig.lines then s.migFinish else s)

end Sys2Proof.Machine
end

