-- ==== Sys2Proof/Machine/End.lean ====
section
/-! DEFINITION. How a folio ends: completion records (R163), phases (R169), the clearing and release of tiles (R176), the
save of a stopped folio (R172-R174, R486), commit (R170), eviction (R173) and the end after a trap (R471). -/

namespace Sys2Proof.Machine

/-- A launch queue whose registers are zero (R161). -/
def LaunchQueue.zero (q owner : Nat) : LaunchQueue :=
  { q := q, owner := owner, base := 0, log := 0, tail := 0, head := 0, weight := 0, level := 0, cbase := 0, done := 0
    en := false, since := none, early := [] }

/-- A launch queue whose registers are zero again, with no place left for the records that it had (R161, R426). -/
def LaunchQueue.anew (x : LaunchQueue) (owner : Nat) : LaunchQueue := { LaunchQueue.zero x.q owner with epoch := x.epoch + 1 }

/-- The registers of a launch queue; a queue that nothing has written holds zeros and belongs to function 0 (R161). -/
def State.queue (s : State) (q : Nat) : LaunchQueue :=
  (s.queues.find? fun x => x.q == q).getD (LaunchQueue.zero q 0)

/-- Changes the registers of a launch queue. -/
def State.onQueue (s : State) (q : Nat) (h : LaunchQueue → LaunchQueue) : State :=
  if s.queues.any fun x => x.q == q then { s with queues := s.queues.map fun x => if x.q == q then h x else x }
  else { s with queues := s.queues ++ [h (LaunchQueue.zero q 0)] }

/-- Whether a queue's ring size enables it (R160). -/
def LaunchQueue.sized (x : LaunchQueue) : Bool := decide (4 ≤ x.log) && decide (x.log ≤ 16)

/-- A function's phase domain (R169): phase 0 before anything has set it (R161). -/
def State.domain (s : State) (f d : Nat) : Domain :=
  (s.domains.find? fun x => x.func == f && x.num == d).getD { func := f, num := d, phase := 0, members := none, count := 0 }

/-- Replaces a phase domain. -/
def State.setDomain (s : State) (x : Domain) : State :=
  { s with domains := (s.domains.filter fun y => !(y.func == x.func && y.num == x.num)) ++ [x] }

/-- A member of a phase has completed (R169): the last one raises the phase. -/
def State.memberDone (s : State) (f d : Nat) (phase : BitVec 32) : State :=
  if d = 0 then s
  else
    let x := s.domain f d
    if x.phase != phase then s
    else if x.members == some (x.count + 1) then s.setDomain { x with phase := x.phase + 1, members := none, count := 0 }
    else s.setDomain { x with count := x.count + 1 }

/-- Writes a queue's completion records that are next in order, and counts their phases (R163, R169, R170): n counts the
tries. -/
def State.flushDone (s : State) (q n : Nat) : State :=
  match n with
  | 0 => s
  | n + 1 =>
    let x := s.queue q
    match x.early.find? fun e => e.1 == x.done.toNat with
    | none => s
    | some e =>
      let a := x.cbase.toNat / 32 * 32 + e.1 % 2 ^ x.log * 32
      let s := if x.sized then { s with hostMem := s.hostMem.writeN a 32 e.2.1.toNat } else s
      let s := s.onQueue q fun x => { x with done := x.done + 1, early := x.early.filter fun y => y.1 != e.1 }
      let s := if e.2.2.1 then s.interrupt x.owner 0 else s
      State.flushDone (s.memberDone x.owner e.2.2.2 (e.2.1.extractLsb' 96 32)) q n

/-- Completes a record of a queue (R163): its completion is written once every earlier one has been,
with the time stamp of now (log 40). A record of an earlier
epoch of the queue has no place in its ring any more (log 33); its phase counts it all the same (R169). -/
def State.complete (s : State) (q n func : Nat) (d : Done) : State :=
  let x := s.queue q
  if x.epoch ≠ d.epoch then s.memberDone func d.dom d.phase
  else if n < x.done.toNat ∨ x.head.toNat ≤ n ∨ (x.early.any fun e => e.1 == n) then s
  else
    let v := n % 2 ^ 32 + d.status * 2 ^ 32 + d.detail * 2 ^ 40 + d.job.toNat * 2 ^ 64 + d.phase.toNat * 2 ^ 96
      + d.cycle % 2 ^ 64 * 2 ^ 128 + s.nowNs % 2 ^ 64 * 2 ^ 192
    let s := s.onQueue q fun x => { x with early := x.early ++ [(n, BitVec.ofNat 256 v, d.irq, d.dom)] }
    s.flushDone q (x.early.length + 1)

/-- A folio leaves its tiles (R176): nothing of it remains in any store, and its footprint awaits its release, which writes
the given completion record. -/
def State.clearFolio (s : State) (f : Folio) (done : Option (Nat × Nat × Done)) (stops : List Stop) : State :=
  let i := f.place.idx
  { s with
    folios := s.folios.filter fun g => g.place.idx != i
    releasing := s.releasing ++ [⟨f.place, f.launch.job, f.cycle, done, stops, f.launch.queue⟩]
    hostReads := s.hostReads.filter fun r => r.folio != i || r.write.isSome
    faults := s.faults.filter fun x => x.folio != i
    far := s.far.filter fun p => farFolio p.id != i
    agenda := s.agenda.filter fun x => !x.ofFolio i }

/-- Two stops of one pre-empt record. -/
def Stop.same (x y : Stop) : Bool := x.queue == y.queue && x.recNo == y.recNo && x.epoch == y.epoch

/-- A stop that has stopped a folio (R173). -/
def Stop.hit (x : Stop) : Stop := { x with acted := true }

/-- Pre-empt records have stopped a folio: their stops that still pend elsewhere, or await a release, know it (R173). -/
def State.stopsActed (s : State) (stops : List Stop) : State :=
  let mark (x : Stop) : Stop := if stops.any x.same then x.hit else x
  { s with
    folios := s.folios.map fun g => if g.stops.isEmpty then g else { g with stops := g.stops.map mark }
    releasing := s.releasing.map fun r => { r with stops := r.stops.map mark } }

/-- The folio of a place no longer holds pre-empt records open (R153, R171, R173): the last of a record's folios completes
it, with status 4 where the record stopped a folio, or ended one that its trap held (R471), and with 7 where every one ran to
its end. -/
def State.stopOver (s : State) (p : Place) (job : BitVec 32) (cycle : Nat) (stops : List Stop) : State :=
  stops.foldl (fun s x =>
    if s.folios.any fun g => g.place.idx != p.idx && g.stops.any x.same then s
    else s.complete x.queue x.recNo p.func ⟨if x.acted then 4 else 7, 0, job, x.phase, if x.acted then cycle else 0, x.irq, 0, x.epoch⟩) s

/-- A folio has gone: a checkpoint of its job may have reached its snapshot point (R484). -/
def State.checkSnapshot (s : State) (f : Folio) : State :=
  if (s.func f.place.func).ckstate = 1 then
    { s with agenda := s.agenda ++ [.act { s.cursor with func := f.place.func } .ckptSnapshot] }
  else s

/-- A folio ends (R170, R471): cleared; its release writes its completion and counts its phase. -/
def State.endFolio (s : State) (f : Folio) (status detail : Nat) : State :=
  let l := f.launch
  (s.clearFolio f (some (l.queue, l.recNo, ⟨status, detail, l.job, l.phase, f.cycle, l.irq, l.domain, l.epoch⟩)) f.stops).checkSnapshot f

/-- Commit (R170). -/
def execFolioCommit (s : State) : Host.Outcome State Fault Refusal :=
  match s.folio? s.cursor.folio with
  | none => .fault .noTile
  | some f => .next (s.endFolio f 0 0)

/-- The items that a stop saves of a tile (R153, R174): its PENLIFT's live map, or for a halted tile its halt map, else the
whole of the stores that R153 names. -/
def Tile.savedItems (t : Tile) : List (Nat × Nat × Nat × Nat) :=
  let map (n : Nat) : List (Nat × Nat × Nat × Nat) := ((t.tables.livemaps.find? fun m => m.1 == n).map Prod.snd).getD []
  if t.halted then
    match t.tables.haltMap with
    | some n => map n
    | none => [(1, 0, 0, 0xF8000), (2, 0, 0, 0x40000), (3, 0, 0, 0), (3, 1, 0, 0), (3, 2, 0, 0), (3, 3, 0, 0), (0, 0, 0, 4096)]
  else
    match t.penNow with
    | some p => map p.1
    | none => []

/-- The window bytes that saved items cover (R113), with TIM and the drain area (R174; log 28). -/
def savedBytes (l : List (Nat × Nat × Nat × Nat)) : List (Nat × Nat) :=
  (0x180000, 0x20000) :: (0xF8000, 0x8000) :: l.filterMap fun x =>
    match x.1 with
    | 1 => some (x.2.2.1, x.2.2.2)
    | 2 => some (0x100000 + x.2.2.1, x.2.2.2)
    | 3 => some (accBase x.2.1, 0x4000)
    | _ => none

/-- Whether an offset lies in one of some ranges. -/
def within (l : List (Nat × Nat)) (a : Nat) : Bool := l.any fun r => decide (r.1 ≤ a) && decide (a < r.1 + r.2)

/-- The stores that a save keeps. -/
def Stores.kept (s : Stores) (l : List (Nat × Nat)) : Stores :=
  { s with
    mem := s.mem.filter fun c => within l c.1
    poison := s.poison.filter fun w => within l (8 * w)
    bad := s.bad.filter fun w => within l (8 * w)
    forms := (List.range 1024).foldl (fun v n =>
      if within l (0x100000 + 256 * n) then v ||| BitVec.ofNat 2048 (s.form n * 2 ^ (2 * n)) else v) 0 }

/-- The slices that a save keeps, with the tags of their granules (R98). -/
def Slices.kept (s : Slices) (l : List (Nat × Nat × Nat × Nat)) : Slices :=
  (l.filter fun x => x.1 == 0).foldl (fun r x =>
    (granules x.2.2.1 x.2.2.2).foldl (fun r g => r.setTag g (s.tag g)) (r.put x.2.2.1 x.2.2.2 (s.span x.2.2.1 x.2.2.2)))
    { s with sf := 0, tags := 0 }

/-- A tile whose stores hold nothing (R176), with the CSRs at their values at cycle 0 (R102, R133, R158, R198, R287, R350,
R464). -/
def Tile.cleared : Tile :=
  { ctl := Control.handler 0 0
    slices := { sf := 0, tags := 0, preds := 0, bad := [] }
    stores := { mem := [], poison := [], bad := [], badTim := [], forms := 0 }
    tok := Vector.replicate 8 0
    csr := { sbmode := false, sp := 0xF8000, splim := 0, ebal := 0, erate := 0, ecap := 0, hlat := 0, ovcur := 256, ovbase := 0
             ovt := Vector.replicate 256 0, fpctl := 0, rseed := 0, nevcfg := Vector.replicate 6 0
             nevcnt := Vector.replicate 6 0, mxctl := 0, ralat := 256, barph := 0 }
    trap := { tcause := 0, tcyc := 0, tpos := 0, targ := 0, tinfo := 0, tinfo2 := 0, tvec := 0, tloc0 := 0, tloc1 := 0
              act := false, skip := false, hcyc := 0, ret := false }
    wins := Vector.replicate 32 ⟨false, false, 0, false, 0, 0⟩
    tlb := [], pend := []
    ap := { accs := [], ratoms := [], sleep := none, notBefore := 0 }
    ce := { nextId := 0, lastReq := 0, cmds := [], lines := [], cursors := [], collSeq := 0, shares := []
            sigFree := 0, sigLand := 0 }
    mx := { mma := none, pend := [], wportFree := 0, aportFree := 0 }
    net := { router := ⟨[], [], [], [], [], []⟩, chans := Vector.replicate 16 ⟨0, 0, [], 0⟩, recvs := []
             bars := Vector.replicate 32 none, hold := none }
    tables := { livemaps := [], penlifts := [], haltMap := none, trailers := [] }
    shadow := none, halting := false, halted := false, penNow := none, brkNow := none, raises := [], avail := 0
    blocked := false, granted := [], apGo := false, sigs := [], evNow := [], note := none
    prof := { issues := Vector.replicate 6 0, holdSb := 0, holdEnergy := 0, holdToken := 0, holdFence := 0, slots := []
              late := 0, flits := Vector.replicate 5 0, lost := 0, last := Vector.replicate 12 0, cnt := Vector.replicate 8 0 }
    probe := none, wrote := [], setters := [], sigBy := Vector.replicate 8 0 }

/-- The seam link's stages (R132): twenty per row and direction. -/
def Place.seamLanes (p : Place) : List SeamLane :=
  if p.seam = 0 then []
  else (List.range p.h).flatMap fun y => [⟨y, true, List.replicate 20 none⟩, ⟨y, false, List.replicate 20 none⟩]

/-- A capture block that nothing has written (R492). -/
def Capture.off : Capture :=
  { trbase := 0, trsel := 0, trtrig := 0, wp := Vector.replicate 8 0, wlbase := 0, wlmin := 0, written := 0, left := none
    trigAt := 0, logged := 0, done := false }

/-- A folio at the start of its cycle 0 (R120). -/
def folioAt (p : Place) (l : Launch) (cal : List CalEntry) (tiles : List Tile) : Folio :=
  { place := p, launch := l, calendar := cal, tiles := tiles, seams := p.seamLanes, cycle := 0
    freeze := ⟨false, false, false, false, false, false⟩, stops := [], ckStop := false, held := false, lastPen := 0
    barLast := Vector.replicate 32 (0, 0), barFlips := [], signals := []
    dbg := { brkArmed := false, stopAt := none, stopReq := none, source := 0, state := 0, cnt := 0, ovf := false }
    cap := Capture.off
    prof := { cfg := 0, sel := 0, tile := 0, newCfg := none, newSel := none, newTile := none }
    trapped := false }

/-- The record of a tile (R174): its items, with the window table as page numbers. -/
def Tile.record (t : Tile) : TileRec :=
  let l := t.savedItems
  { csr := t.csr, trap := t.trap, cnt := t.prof.cnt, ctl := t.ctl
    slices := t.slices.kept l, stores := t.stores.kept (savedBytes l), tok := t.tok
    wins := t.wins.map fun w => { w with pa := 0 }
    pend := t.pend, ap := t.ap, ce := t.ce, mx := t.mx, net := t.net, tables := t.tables, halting := t.halting, halted := t.halted }

/-- A tile restored from its record: everything else is as in a cleared tile (R175, R176). -/
def TileRec.tile (r : TileRec) : Tile :=
  let t := Tile.cleared
  { t with
    csr := r.csr, trap := r.trap, prof := { t.prof with cnt := r.cnt }
    ctl := r.ctl, slices := r.slices, stores := r.stores, tok := r.tok, wins := r.wins, pend := r.pend, ap := r.ap, ce := r.ce
    mx := r.mx, net := r.net, tables := r.tables, halting := r.halting, halted := r.halted }

/-- The records of a folio, its tiles in ascending fy and then fx (R174). -/
def Folio.record (f : Folio) : FolioRec :=
  { tiles := f.tiles.map Tile.record, launch := f.launch, calendar := f.calendar, seams := f.seams, lastPen := f.lastPen
    turns := f.turns, barLast := f.barLast, signals := f.signals }

/-- A folio restored from its records, at a place and with its cycle count. -/
def FolioRec.folio (r : FolioRec) (p : Place) (cycle : Nat) : Folio :=
  { folioAt p r.launch r.calendar (r.tiles.map TileRec.tile) with
    seams := r.seams, cycle := cycle, lastPen := r.lastPen, turns := r.turns, barLast := r.barLast, signals := r.signals }

/-- The bytes of a folio's records. -/
def Folio.recordBytes (f : Folio) : List Byte := codecFolioRec.put f.record

/-- The magic number of a save region's header (log 9). -/
def saveMagic : Nat := 0x000000014B5A5356

/-- The header of a save region, 4 KiB (R174, R486, log 9): magic and version, image address, cycle count, W, H, seam, channel count,
the length of the records, the channel bound to each abstract channel, and the digest of the records. -/
def Folio.saveHeader (f : Folio) (l : List Byte) : Nat :=
  let p := f.place
  saveMagic + f.launch.image.toNat * 2 ^ 64 + f.cycle % 2 ^ 64 * 2 ^ 128 + p.w % 256 * 2 ^ 192 + p.h % 256 * 2 ^ 200
  + p.seam % 256 * 2 ^ 208 + p.chans.length % 2 ^ 16 * 2 ^ 224 + l.length * 2 ^ 256
  + (p.chans.map fun x => x.2 % 2 ^ 16 * 2 ^ (512 + 16 * (x.1 % 256))).sum
  + shake256 (ofBytes l) l.length * 2 ^ (8 * 4032)

/-- A save region: its bytes as a little-endian value, and their number. -/
def Folio.region (f : Folio) : Nat × Nat :=
  let l := f.recordBytes
  (f.saveHeader l + ofBytes l * 2 ^ (8 * 4096), 4096 + l.length)

/-- The Folio Manager writes bytes of HBM line by line, a line that they do not cover as a write of a part (log 112); n counts the
lines. -/
def State.writeLines (s : State) (pa len v n : Nat) : State :=
  match n with
  | 0 => s
  | n + 1 =>
    if len = 0 then s
    else
      let m := min len (64 - pa % 64)
      let s := if m = 64 then s.writeLine pa (v % 2 ^ 512) false
        else s.patchLine (pa / 64 * 64) fun old => putBits old (8 * (pa % 64)) (8 * m) (v % 2 ^ (8 * m))
      State.writeLines s (pa + m) (len - m) (v / 2 ^ (8 * m)) n

/-- The Folio Manager writes bytes at a virtual address of a function, page by page (R174, R434): bytes of a page that is not mapped,
or not on a channel of the function, are dropped (log 103). n counts the pages. -/
def State.writeVirt (s : State) (f va len v n : Nat) : State :=
  match n with
  | 0 => s
  | n + 1 =>
    if len = 0 then s
    else
      match s.walk f va with
      | (.mapped g _, s) =>
        let z := pageBytes g.size
        let m := min len (z - va % z)
        let pa := g.pa + va % z
        let x := v % 2 ^ (8 * m)
        let s := if g.host then s.writeHost (s.hostAddr f pa) m x false
          else if s.leased (chanNum pa) f then s.writeLines pa m x (m / 64 + 2) else s
        State.writeVirt s f (va + m) (len - m) (v / 2 ^ (8 * m)) n
      | (_, s) => State.writeVirt s f (va + (0x10000 - va % 0x10000)) (len - (0x10000 - va % 0x10000)) (v / 2 ^ (8 * (0x10000 - va % 0x10000))) n

/-- Saves a folio to a save region (R174, R484, R486). -/
def State.saveFolio (s : State) (f : Folio) (save : Nat) : State :=
  let r := f.region
  s.writeVirt f.place.func save r.2 r.1 (r.2 / 65536 + 2)

/-- Changes what is kept of a job (R450, R452). -/
def State.onJob (s : State) (f : Nat) (j : BitVec 32) (h : Job → Job) : State :=
  { s with trust := { s.trust with jobs := s.trust.jobs.map fun x => if x.func == f && x.job == j then h x else x } }

/-- A job's layout generation rises (R450). -/
def State.newLayout (s : State) (f : Nat) (j : BitVec 32) : State := s.onJob f j fun x => { x with gen := (x.gen + 1) % 2 ^ 64 }

/-- A folio's eviction is known until a resume record brings it back (R173, R175). -/
def State.noteEvicted (s : State) (f : Folio) : State :=
  let v : Saved := ⟨f.place.func, f.launch.job, f.launch.save⟩
  { s with saved := (s.saved.filter fun x => x != v) ++ [v] }

/-- Eviction (R173): saved and cleared; the release writes the pre-empt record's completion, with status 4. -/
def execFolioEviction (s : State) : Host.Outcome State Fault Refusal :=
  match s.folio? s.cursor.folio with
  | none => .fault .noTile
  | some f =>
    let s := ((s.saveFolio f f.launch.save.toNat).noteEvicted f).newLayout f.place.func f.launch.job
    .next (((s.stopsActed f.stops).clearFolio f none (f.stops.map Stop.hit)).checkSnapshot f)

/-- The folio's tiles that trapped in this cycle, in ascending (fy, fx) (R463). -/
def Folio.trapping (f : Folio) : List (Nat × Tile) :=
  f.tiles.zipIdx.filterMap fun p => if p.1.raises.isEmpty then none else some (p.2, p.1)

/-- The event record of a tile's recorded trap (R470). -/
def Folio.trapEvent (f : Folio) (i : Nat) (t : Tile) : Event :=
  let c := t.trap
  { kind := if causeFatal c.cause then 3 else 1, cause := c.cause, queue := c.tpos.toNat % 8
    flags := (if c.tpos.getLsbD 7 then 1 else 0) + (if c.tcause.getLsbD 7 then 2 else 0) + (if c.act then 4 else 0)
    job := f.launch.job.toNat, fx := i % f.place.w, fy := i / f.place.w, line := bitsAt c.tpos.toNat 12 12
    lane := bitsAt c.tpos.toNat 8 3, cls := bitsAt c.tcause.toNat 8 6, arg := c.targ.toNat % 2 ^ 16, cycle := c.tcyc.toNat
    info := c.tinfo.toNat, info2 := c.tinfo2.toNat }

/-- The event record of a numerical notification (R472). -/
def Folio.noteEvent (f : Folio) (i : Nat) (n : Nat × Nat × Nat) : Event :=
  { Event.plain 2 (32 + lowBit n.1) f.launch.job.toNat n.2.1 n.2.2 with
    fx := i % f.place.w, fy := i / f.place.w, cls := n.1, cycle := f.cycle }

/-- Writes the notifications of the cycle (R472). -/
def State.writeNotes (s : State) (fi : Nat) : State :=
  match s.folio? fi with
  | none => s
  | some f =>
    let s := f.tiles.zipIdx.foldl (fun s p => match p.1.note with
      | some n => s.event f.place.func (f.noteEvent p.2 n)
      | none => s) s
    if f.tiles.all fun t => t.note.isNone then s
    else s.onFolio fi fun f => { f with tiles := f.tiles.map fun t => { t with note := none } }

/-- The cause of the first trapping tile (R471). -/
def Folio.firstCause (f : Folio) : Nat := ((f.trapping.head?).map fun p => p.2.trap.cause).getD 0

/-- Ends a folio whose trap was posted (R471): status 3 for a timeout, else 2, with the first trapping tile's cause. -/
def State.endTrapped (s : State) (f : Folio) : State := s.endFolio f (if f.cause = 94 then 3 else 2) f.cause

/-- Trapping tiles post their records (R463, R470), and the folio ends at once, or is kept for a pre-empt record when hold is
set and no cause is fatal (R471). -/
def execTrapPostToHost (s : State) : Host.Outcome State Fault Refusal :=
  match s.folio? s.cursor.folio with
  | none => .fault .noTile
  | some f =>
    let s := f.trapping.foldl (fun s p => s.event f.place.func (f.trapEvent p.1 p.2)) s
    let s := s.writeNotes f.place.idx
    if (s.func f.place.func).evctl.getLsbD 0 && !(f.trapping.any fun p => causeFatal p.2.trap.cause) then
      .next (s.onFolio f.place.idx fun g => { g with trapped := true, cause := f.firstCause })
    else .next (s.endTrapped { f with cause := f.firstCause })

end Sys2Proof.Machine
end

