-- ==== Sys2Proof/Machine/Integer.lean ====
section
/-! DEFINITION. The results of the common integer block at an operation width (R226, R229-R236, R241, R245, R250) and
its operand shapes, shared by the short and the long forms (R222-R225). -/

namespace Sys2Proof.Machine

/-- A result of a block instruction: the value, or a wrapped or saturated one with its event (R226). -/
abbrev IntFn := Bool → Nat → Nat → Rounded

/-- A source as signed or unsigned integer (R229). -/
def readInt (w : Nat) (signed : Bool) (v : Nat) : Int := if signed then toSigned w v else v

/-- ADD of R229. -/
def intAdd (w : Nat) (signed : Bool) : IntFn := fun sat a b => fit (readInt w signed a + readInt w signed b) w signed sat

/-- SUB of R229. -/
def intSub (w : Nat) (signed : Bool) : IntFn := fun sat a b => fit (readInt w signed a - readInt w signed b) w signed sat

/-- MUL of R229. -/
def intMul (w : Nat) (signed : Bool) : IntFn := fun sat a b => fit (readInt w signed a * readInt w signed b) w signed sat

/-- MULH of R229. -/
def intMulh (w : Nat) : IntFn := fun _ a b => (ofSigned w ((toSigned w a * toSigned w b).fdiv (2 ^ w)), none)

/-- MULHZ of R229. -/
def intMulhz (w : Nat) : IntFn := fun _ a b => (a * b / 2 ^ w, none)

/-- DIV of R230. -/
def intDiv (w : Nat) : IntFn := fun sat a b =>
  if b = 0 then (2 ^ w - 1, some 0)
  else if toSigned w a = -(2 ^ (w - 1) : Int) ∧ toSigned w b = -1 then fit (2 ^ (w - 1)) w true sat
  else (ofSigned w ((toSigned w a).tdiv (toSigned w b)), none)

/-- DIVZ of R230. -/
def intDivz (w : Nat) : IntFn := fun _ a b => if b = 0 then (2 ^ w - 1, some 0) else (a / b, none)

/-- REM of R230. -/
def intRem (w : Nat) : IntFn := fun _ a b =>
  if b = 0 then (a, some 0) else (ofSigned w ((toSigned w a).tmod (toSigned w b)), none)

/-- REMZ of R230. -/
def intRemz (_ : Nat) : IntFn := fun _ a b => if b = 0 then (a, some 0) else (a % b, none)

/-- MIN of R229. -/
def intMin (w : Nat) : IntFn := fun _ a b => (if toSigned w b < toSigned w a then b else a, none)

/-- MAX of R229. -/
def intMax (w : Nat) : IntFn := fun _ a b => (if toSigned w a < toSigned w b then b else a, none)

/-- MINZ of R229. -/
def intMinz (_ : Nat) : IntFn := fun _ a b => (if b < a then b else a, none)

/-- MAXZ of R229. -/
def intMaxz (_ : Nat) : IntFn := fun _ a b => (if a < b then b else a, none)

/-- AND of R231. -/
def intAnd : IntFn := fun _ a b => (a &&& b, none)

/-- OR of R231. -/
def intOr : IntFn := fun _ a b => (a ||| b, none)

/-- XOR of R231. -/
def intXor : IntFn := fun _ a b => (a ^^^ b, none)

/-- ANDN of R231. -/
def intAndn (w : Nat) : IntFn := fun _ a b => (a &&& (2 ^ w - 1 - b % 2 ^ w), none)

/-- SHL of R232; the amount comes at its own width. -/
def intShl (w : Nat) : IntFn := fun _ a n => (if w ≤ n then 0 else (a <<< n) % 2 ^ w, none)

/-- SHR of R232. -/
def intShr (w : Nat) : IntFn := fun _ a n => (if w ≤ n then 0 else a >>> n, none)

/-- SAR of R232. -/
def intSar (w : Nat) : IntFn := fun _ a n =>
  (if w ≤ n then (if toSigned w a < 0 then 2 ^ w - 1 else 0) else ofSigned w ((toSigned w a).fdiv (2 ^ n)), none)

/-- ROTL of R232. -/
def intRotl (w : Nat) : IntFn := fun _ a n =>
  let m := n % w
  (((a <<< m) ||| (a >>> (w - m))) % 2 ^ w, none)

/-- NEG of R229. -/
def intNeg (w : Nat) : IntFn := fun sat a _ => fit (-toSigned w a) w true sat

/-- ABS of R229. -/
def intAbs (w : Nat) : IntFn := fun sat a _ => fit (toSigned w a).natAbs w true sat

/-- NOT of R231. -/
def intNot (w : Nat) : IntFn := fun _ a _ => (2 ^ w - 1 - a % 2 ^ w, none)

/-- CLZ of R233. -/
def intClz (w : Nat) : IntFn := fun _ a _ => (if a = 0 then w else w - 1 - Nat.log2 a, none)

/-- Zero bits from bit 0 upward within n bits. -/
def lowZeros (a n : Nat) : Nat :=
  match n with
  | 0 => 0
  | n + 1 => if a % 2 = 1 then 0 else lowZeros (a / 2) n + 1

/-- CTZ of R233. -/
def intCtz (w : Nat) : IntFn := fun _ a _ => (lowZeros a w, none)

/-- One bits among the low n bits. -/
def oneBits (a n : Nat) : Nat :=
  match n with
  | 0 => 0
  | n + 1 => a % 2 + oneBits (a / 2) n

/-- POPC of R233. -/
def intPopc (w : Nat) : IntFn := fun _ a _ => (oneBits a w, none)

/-- The low n bits in reverse order, joined above an accumulator. -/
def revBits (a n acc : Nat) : Nat :=
  match n with
  | 0 => acc
  | n + 1 => revBits (a / 2) n (2 * acc + a % 2)

/-- BREV of R233. -/
def intBrev (w : Nat) : IntFn := fun _ a _ => (revBits a w 0, none)

/-- MOV of R237. -/
def intMov : IntFn := fun _ a _ => (a, none)

/-- SATN of R245: a clamped to n bits, delivered at width w. -/
def intSatn (w : Nat) (z : Bool) (n : Nat) : IntFn := fun _ a _ =>
  let x := toSigned w a
  let lo : Int := if z then 0 else -(2 ^ (n - 1) : Int)
  let hi : Int := if z then 2 ^ n - 1 else 2 ^ (n - 1) - 1
  if x < lo then (ofSigned w lo, some 3) else if hi < x then (ofSigned w hi, some 3) else (ofSigned w x, none)

/-- The generators of R250 on lanes of lw bits. -/
def intCrng (lw : Nat) (gen : Nat → Nat → Nat) (w : Nat) : IntFn := fun _ a b =>
  (packLanes lw ((List.range (w / lw)).map fun i => gen (laneOf lw a i) (laneOf lw b i)), none)

/-- A control word of R234 that has a nonzero reserved bit. -/
def badControl (ctl : Nat) (dep : Bool) : Bool :=
  ctl / 2 ^ 19 != 0 || ctl.testBit 11 || (dep && ctl.testBit 18)

/-- EXT of R235: the field of a under a control word, extended to w. -/
def intExt (w : Nat) (a ctl : Nat) : Nat :=
  let len := bitsAt ctl 12 6 + 1
  extendTo len w (ctl.testBit 18) (bitsAt a (bitsAt ctl 0 11) len)

/-- DEP of R236: d with the field of a put in. -/
def intDep (w : Nat) (d a ctl : Nat) : Nat :=
  putBits d (bitsAt ctl 0 11) (bitsAt ctl 12 6 + 1) a % 2 ^ w

/-- The description common to the integer block (R224, R466): only sv varies among the PFX fields it accepts. -/
def blockInfo (cause : Option Nat) (srcs dsts : List (Nat × Nat)) (preds : List Nat) (wides : List (Nat × Nat))
    (cls least : Nat) (sv : Bool) : Info :=
  { cause := cause, srcs := srcs, dsts := dsts, preds := preds, wides := wides, cls := cls, least := least
    rv := false, sv := sv, ov := false, acc := none, hand := true }

/-- A short form with two sources and a destination (R228). -/
def short3Info (least : Nat) (sv : Bool) (d a b : BitVec 7) (t : Tile) : Info :=
  blockInfo none [t.wSpan a, t.wSpan b] [t.wSpan d] [] [] 1 least sv

/-- A short form with one source and a destination. -/
def short2Info (sv : Bool) (d a : BitVec 7) (t : Tile) : Info :=
  blockInfo none [t.wSpan a] [t.wSpan d] [] [] 1 0 sv

/-- The effect of a short form with two sources: the result lands whole with tag 0 (R85, R95). -/
def short3Body (lat : Nat) (f : IntFn) (d a b : BitVec 7) (c : Ctx) (t : Tile) : Except Raise Tile :=
  let r := f c.sat (t.word a) (t.word b)
  .ok (t.later c lat (.slices (t.win d) 8 r.1 0) (evOf r.2))

/-- The effect of a short form with one source. -/
def short2Body (f : IntFn) (d a : BitVec 7) (c : Ctx) (t : Tile) : Except Raise Tile :=
  let r := f c.sat (t.word a) 0
  .ok (t.later c 1 (.slices (t.win d) 8 r.1 0) (evOf r.2))

/-- The least energy class of a long form: class 2 beyond 256 bits (R225). -/
def longLeast (least w : Nat) : Nat := if 256 < w then 2 else least

/-- A long form with two sources at operation width wd (R58, R85). -/
def long3Info (cause : Option Nat) (least : Nat) (sv : Bool) (o : Long3) (_ : Tile) : Info :=
  blockInfo cause [o.aSpan, o.bSpan] [o.dSpan] [] [(o.aBits, o.dBits), (o.bBits, o.dBits)] o.ecl.toNat
    (longLeast least o.dBits) sv

/-- A long form whose b is read at its own width: a shift amount, a control word (R232, R234); wideA tells whether a is
extended to the operation width. -/
def longOwnInfo (cause : Option Nat) (wideA : Bool) (o : Long3) (_ : Tile) : Info :=
  blockInfo cause [o.aSpan, o.bSpan] [o.dSpan] [] (if wideA then [(o.aBits, o.dBits)] else []) o.ecl.toNat
    (longLeast 0 o.dBits) false

/-- A long form with one source at operation width wd, or at its own width (R223, R233). -/
def long2Info (cause : Option Nat) (sv own : Bool) (o : Long3) (_ : Tile) : Info :=
  blockInfo cause [o.aSpan] [o.dSpan] [] (if own then [] else [(o.aBits, o.dBits)]) o.ecl.toNat
    (longLeast 0 (if own then o.aBits else o.dBits)) sv

/-- Lands a long result with a tag (R85, R95). -/
def longLand (lat : Nat) (o : Long3) (tag : Nat) (r : Rounded) (c : Ctx) (t : Tile) : Except Raise Tile :=
  .ok (t.later c lat (.slices o.ds.toNat (o.dBits / 4) (r.1 % 2 ^ o.dBits) tag) (evOf r.2))

/-- The effect of a long form with two sources. -/
def long3Body (lat : Nat) (f : Nat → IntFn) (o : Long3) (c : Ctx) (t : Tile) : Except Raise Tile :=
  longLand lat o 0 (f o.dBits c.sat (o.srcA t o.dBits) (o.srcB t o.dBits)) c t

/-- The effect of a long shift: the amount at its own width (R232). -/
def longShiftBody (f : Nat → IntFn) (o : Long3) (c : Ctx) (t : Tile) : Except Raise Tile :=
  longLand 1 o 0 (f o.dBits false (o.srcA t o.dBits) (t.spanBits o.bs.toNat o.bBits)) c t

/-- The effect of a long form with one source at width wd. -/
def long2Body (f : Nat → IntFn) (o : Long3) (c : Ctx) (t : Tile) : Except Raise Tile :=
  longLand 1 o 0 (f o.dBits c.sat (o.srcA t o.dBits) 0) c t

/-- The effect of a long bit count at width wa (R233). -/
def longCountBody (f : Nat → IntFn) (o : Long3) (c : Ctx) (t : Tile) : Except Raise Tile :=
  longLand 1 o 0 (f o.aBits false (t.spanBits o.as.toNat o.aBits) 0) c t

/-- A write of one predicate at issue + 1 (R241, R243). -/
def predBody (pd : BitVec 4) (v : Bool) (c : Ctx) (t : Tile) : Except Raise Tile :=
  .ok (t.later c 1 (predWrite pd.toNat v) [])

end Sys2Proof.Machine
end

