-- ==== Sys2Proof/Machine/IntLong.lean ====
section
/-! DEFINITION. The meanings of the long forms of the common integer block (R222-R250). -/

namespace Sys2Proof.Machine

/-- ADD, long form (R229). -/
def execAddLong (o : Long3) (s : State) : Host.Outcome State Fault Refusal :=
  issue (long3Info (Instr.addLong o).cause 0 true o) noHold (long3Body 1 (fun w => intAdd w (!o.sxa)) o) s

/-- SUB, long form (R229). -/
def execSubLong (o : Long3) (s : State) : Host.Outcome State Fault Refusal :=
  issue (long3Info (Instr.subLong o).cause 0 true o) noHold (long3Body 1 (fun w => intSub w (!o.sxa)) o) s

/-- MUL, long form (R229). -/
def execMulLong (o : Long3) (s : State) : Host.Outcome State Fault Refusal :=
  issue (long3Info (Instr.mulLong o).cause 1 true o) noHold (long3Body 3 (fun w => intMul w (!o.sxa)) o) s

/-- MULH, long form (R229). -/
def execMulhLong (o : Long3) (s : State) : Host.Outcome State Fault Refusal :=
  issue (long3Info (Instr.mulhLong o).cause 1 false o) noHold (long3Body 3 (intMulh) o) s

/-- MULHZ, long form (R229). -/
def execMulhzLong (o : Long3) (s : State) : Host.Outcome State Fault Refusal :=
  issue (long3Info (Instr.mulhzLong o).cause 1 false o) noHold (long3Body 3 (intMulhz) o) s

/-- DIV, long form (R230). -/
def execDivLong (o : Long3) (s : State) : Host.Outcome State Fault Refusal :=
  issue (long3Info (Instr.divLong o).cause 1 true o) noHold (long3Body 18 (intDiv) o) s

/-- DIVZ, long form (R230). -/
def execDivzLong (o : Long3) (s : State) : Host.Outcome State Fault Refusal :=
  issue (long3Info (Instr.divzLong o).cause 1 false o) noHold (long3Body 18 (intDivz) o) s

/-- REM, long form (R230). -/
def execRemLong (o : Long3) (s : State) : Host.Outcome State Fault Refusal :=
  issue (long3Info (Instr.remLong o).cause 1 false o) noHold (long3Body 18 (intRem) o) s

/-- REMZ, long form (R230). -/
def execRemzLong (o : Long3) (s : State) : Host.Outcome State Fault Refusal :=
  issue (long3Info (Instr.remzLong o).cause 1 false o) noHold (long3Body 18 (intRemz) o) s

/-- MIN, long form (R229). -/
def execMinLong (o : Long3) (s : State) : Host.Outcome State Fault Refusal :=
  issue (long3Info (Instr.minLong o).cause 0 false o) noHold (long3Body 1 (intMin) o) s

/-- MAX, long form (R229). -/
def execMaxLong (o : Long3) (s : State) : Host.Outcome State Fault Refusal :=
  issue (long3Info (Instr.maxLong o).cause 0 false o) noHold (long3Body 1 (intMax) o) s

/-- MINZ, long form (R229). -/
def execMinzLong (o : Long3) (s : State) : Host.Outcome State Fault Refusal :=
  issue (long3Info (Instr.minzLong o).cause 0 false o) noHold (long3Body 1 (intMinz) o) s

/-- MAXZ, long form (R229). -/
def execMaxzLong (o : Long3) (s : State) : Host.Outcome State Fault Refusal :=
  issue (long3Info (Instr.maxzLong o).cause 0 false o) noHold (long3Body 1 (intMaxz) o) s

/-- AND, long form (R231). -/
def execAndLong (o : Long3) (s : State) : Host.Outcome State Fault Refusal :=
  issue (long3Info (Instr.andLong o).cause 0 false o) noHold (long3Body 1 (fun _ => intAnd) o) s

/-- OR, long form (R231). -/
def execOrLong (o : Long3) (s : State) : Host.Outcome State Fault Refusal :=
  issue (long3Info (Instr.orLong o).cause 0 false o) noHold (long3Body 1 (fun _ => intOr) o) s

/-- XOR, long form (R231). -/
def execXorLong (o : Long3) (s : State) : Host.Outcome State Fault Refusal :=
  issue (long3Info (Instr.xorLong o).cause 0 false o) noHold (long3Body 1 (fun _ => intXor) o) s

/-- ANDN, long form (R231). -/
def execAndnLong (o : Long3) (s : State) : Host.Outcome State Fault Refusal :=
  issue (long3Info (Instr.andnLong o).cause 0 false o) noHold (long3Body 1 (intAndn) o) s

/-- SHL, long form (R232). -/
def execShlLong (o : Long3) (s : State) : Host.Outcome State Fault Refusal :=
  issue (longOwnInfo (Instr.shlLong o).cause true o) noHold (longShiftBody intShl o) s

/-- SHR, long form (R232). -/
def execShrLong (o : Long3) (s : State) : Host.Outcome State Fault Refusal :=
  issue (longOwnInfo (Instr.shrLong o).cause true o) noHold (longShiftBody intShr o) s

/-- SAR, long form (R232). -/
def execSarLong (o : Long3) (s : State) : Host.Outcome State Fault Refusal :=
  issue (longOwnInfo (Instr.sarLong o).cause true o) noHold (longShiftBody intSar o) s

/-- ROTL, long form (R232). -/
def execRotlLong (o : Long3) (s : State) : Host.Outcome State Fault Refusal :=
  issue (longOwnInfo (Instr.rotlLong o).cause true o) noHold (longShiftBody intRotl o) s

/-- NEG, long form (R229). -/
def execNegLong (o : Long3) (s : State) : Host.Outcome State Fault Refusal :=
  issue (long2Info (Instr.negLong o).cause true false o) noHold (long2Body intNeg o) s

/-- ABS, long form (R229). -/
def execAbsLong (o : Long3) (s : State) : Host.Outcome State Fault Refusal :=
  issue (long2Info (Instr.absLong o).cause true false o) noHold (long2Body intAbs o) s

/-- NOT, long form (R231). -/
def execNotLong (o : Long3) (s : State) : Host.Outcome State Fault Refusal :=
  issue (long2Info (Instr.notLong o).cause false false o) noHold (long2Body intNot o) s

/-- CLZ, long form (R233). -/
def execClzLong (o : Long3) (s : State) : Host.Outcome State Fault Refusal :=
  issue (long2Info (Instr.clzLong o).cause false true o) noHold (longCountBody intClz o) s

/-- CTZ, long form (R233). -/
def execCtzLong (o : Long3) (s : State) : Host.Outcome State Fault Refusal :=
  issue (long2Info (Instr.ctzLong o).cause false true o) noHold (longCountBody intCtz o) s

/-- POPC, long form (R233). -/
def execPopcLong (o : Long3) (s : State) : Host.Outcome State Fault Refusal :=
  issue (long2Info (Instr.popcLong o).cause false true o) noHold (longCountBody intPopc o) s

/-- BREV, long form (R233). -/
def execBrevLong (o : Long3) (s : State) : Host.Outcome State Fault Refusal :=
  issue (long2Info (Instr.brevLong o).cause false true o) noHold (longCountBody intBrev o) s

/-- MOV, long form (R237): the tag is the common tag of the source's granules (R95). -/
def execMovLong (o : Long3) (s : State) : Host.Outcome State Fault Refusal :=
  issue (long2Info (Instr.movLong o).cause false false o) noHold (fun c t =>
    longLand 1 o (t.slices.commonTag [o.aSpan]) (o.srcA t o.dBits, none) c t) s

/-- SATN, long form (R245). -/
def execSatnLong (o : Long3) (s : State) : Host.Outcome State Fault Refusal :=
  issue (long2Info (Instr.satnLong o).cause false false o) noHold
    (long2Body (fun w => intSatn w (o.bs.getLsbD 6) (o.bs.toNat % 64 + 1)) o) s

/-- CRNG.16, long form (R250): sources at their own width. -/
def execCrng16Long (o : Long3) (s : State) : Host.Outcome State Fault Refusal :=
  issue (fun t => { long3Info (Instr.crng16Long o).cause 1 false o t with wides := [] }) noHold
    (long3Body 3 (intCrng 16 Machine.crng16) o) s

/-- CRNG.32, long form (R250). -/
def execCrng32Long (o : Long3) (s : State) : Host.Outcome State Fault Refusal :=
  issue (fun t => { long3Info (Instr.crng32Long o).cause 1 false o t with wides := [] }) noHold
    (long3Body 3 (intCrng 32 Machine.crng32) o) s

/-- EXT, long form (R235). -/
def execExtLong (o : Long3) (s : State) : Host.Outcome State Fault Refusal :=
  issue (longOwnInfo (Instr.extLong o).cause false o) noHold (fun c t =>
    let w := t.spanBits o.bs.toNat 32
    if badControl w false then .error (c.raise 5)
    else longLand 1 o 0 (intExt o.dBits (t.spanBits o.as.toNat o.aBits) w, none) c t) s

/-- DEP, long form (R236): d is a source too. -/
def execDepLong (o : Long3) (s : State) : Host.Outcome State Fault Refusal :=
  issue (fun t => { longOwnInfo (Instr.depLong o).cause false o t with srcs := [o.dSpan, o.aSpan, o.bSpan] }) noHold
    (fun c t =>
      let w := t.spanBits o.bs.toNat 32
      if badControl w true then .error (c.raise 5)
      else longLand 1 o 0 (intDep o.dBits (t.spanBits o.ds.toNat o.dBits) (t.spanBits o.as.toNat o.aBits) w, none) c t) s

/-- The description of a long immediate form (R60). -/
def longImmInfo (cause : Option Nat) (o : LongImm) (reads : Bool) : Info :=
  let d := spanOf o.ds.toNat (widthBits o.wd)
  blockInfo cause (if reads then [d] else []) [d] [] [] o.ecl.toNat (longLeast 0 (widthBits o.wd)) false

/-- MOVI, long form (R239). -/
def execMoviLong (o : LongImm) (s : State) : Host.Outcome State Fault Refusal :=
  issue (fun _ => longImmInfo (Instr.moviLong o).cause o false) noHold (fun c t =>
    .ok (t.later c 1 (.slices o.ds.toNat (widthBits o.wd / 4) (extendTo 32 (widthBits o.wd) o.z o.imm.toNat) 0) [])) s

/-- MOVIH, long form (R239). -/
def execMovihLong (o : LongImm) (s : State) : Host.Outcome State Fault Refusal :=
  issue (fun _ => longImmInfo (Instr.movihLong o).cause o true) noHold (fun c t =>
    let w := widthBits o.wd
    .ok (t.later c 1 (.slices o.ds.toNat (w / 4)
      (extendTo 32 (w - 32) o.z o.imm.toNat * 2 ^ 32 + t.spanBits o.ds.toNat w % 2 ^ 32) 0) [])) s

/-- The description of a long compare (R241). -/
def longCmpInfo (cause : Option Nat) (o : LongCmp) : Info :=
  blockInfo cause [spanOf o.as.toNat (widthBits o.wa), spanOf o.bs.toNat (widthBits o.wb)] [] [] [] o.ecl.toNat 0 false

/-- The sources of a long compare at the operation width (R85). -/
def longCmpVals (o : LongCmp) (t : Tile) : Nat × Nat :=
  let w := Nat.max (widthBits o.wa) (widthBits o.wb)
  (extendTo (widthBits o.wa) w o.sxa (t.spanBits o.as.toNat (widthBits o.wa)),
   extendTo (widthBits o.wb) w o.sxb (t.spanBits o.bs.toNat (widthBits o.wb)))

/-- CMP, long form (R241). -/
def execCmpLong (cond : Cond) (o : LongCmp) (s : State) : Host.Outcome State Fault Refusal :=
  issue (fun _ => longCmpInfo (Instr.cmpLong cond o).cause o) noHold (fun c t =>
    let v := longCmpVals o t
    predBody o.pd (condHolds cond (Nat.max (widthBits o.wa) (widthBits o.wb)) v.1 v.2) c t) s

/-- TST, long form (R241). -/
def execTstLong (wantZero : Bool) (o : LongCmp) (s : State) : Host.Outcome State Fault Refusal :=
  issue (fun _ => longCmpInfo (Instr.tstLong wantZero o).cause o) noHold (fun c t =>
    let v := longCmpVals o t
    predBody o.pd ((v.1 &&& v.2 == 0) == wantZero) c t) s

/-- SEL, long form (R242). -/
def execSelLong (o : LongSel) (s : State) : Host.Outcome State Fault Refusal :=
  let w := widthBits o.wd
  let aS := spanOf o.as.toNat (widthBits o.wa)
  let bS := spanOf o.bs.toNat (widthBits o.wb)
  issue (fun _ => blockInfo none [aS, bS] [spanOf o.ds.toNat w] [o.p.toNat]
      [(widthBits o.wa, w), (widthBits o.wb, w)] o.ecl.toNat (longLeast 0 w) false) noHold
    (fun c t =>
      let a := extendTo (widthBits o.wa) w o.sxa (t.spanBits o.as.toNat (widthBits o.wa))
      let b := extendTo (widthBits o.wb) w o.sxb (t.spanBits o.bs.toNat (widthBits o.wb))
      .ok (t.later c 1 (.slices o.ds.toNat (w / 4) (if t.pred o.p.toNat then a else b)
        (t.slices.commonTag [aS, bS])) [])) s

end Sys2Proof.Machine
end

