-- ==== Sys2Proof/Machine/IntShort.lean ====
section
/-! DEFINITION. The meanings of the short forms of the common integer block (R222-R250). -/

namespace Sys2Proof.Machine

/-- ADD (R229). -/
def execAdd (d a b : BitVec 7) (s : State) : Host.Outcome State Fault Refusal :=
  issue (short3Info 0 true d a b) noHold (short3Body 1 (intAdd 32 true) d a b) s

/-- SUB (R229). -/
def execSub (d a b : BitVec 7) (s : State) : Host.Outcome State Fault Refusal :=
  issue (short3Info 0 true d a b) noHold (short3Body 1 (intSub 32 true) d a b) s

/-- MUL (R229). -/
def execMul (d a b : BitVec 7) (s : State) : Host.Outcome State Fault Refusal :=
  issue (short3Info 1 true d a b) noHold (short3Body 3 (intMul 32 true) d a b) s

/-- MULH (R229). -/
def execMulh (d a b : BitVec 7) (s : State) : Host.Outcome State Fault Refusal :=
  issue (short3Info 1 false d a b) noHold (short3Body 3 (intMulh 32) d a b) s

/-- MULHZ (R229). -/
def execMulhz (d a b : BitVec 7) (s : State) : Host.Outcome State Fault Refusal :=
  issue (short3Info 1 false d a b) noHold (short3Body 3 (intMulhz 32) d a b) s

/-- DIV (R230). -/
def execDiv (d a b : BitVec 7) (s : State) : Host.Outcome State Fault Refusal :=
  issue (short3Info 1 true d a b) noHold (short3Body 18 (intDiv 32) d a b) s

/-- DIVZ (R230). -/
def execDivz (d a b : BitVec 7) (s : State) : Host.Outcome State Fault Refusal :=
  issue (short3Info 1 false d a b) noHold (short3Body 18 (intDivz 32) d a b) s

/-- REM (R230). -/
def execRem (d a b : BitVec 7) (s : State) : Host.Outcome State Fault Refusal :=
  issue (short3Info 1 false d a b) noHold (short3Body 18 (intRem 32) d a b) s

/-- REMZ (R230). -/
def execRemz (d a b : BitVec 7) (s : State) : Host.Outcome State Fault Refusal :=
  issue (short3Info 1 false d a b) noHold (short3Body 18 (intRemz 32) d a b) s

/-- MIN (R229). -/
def execMin (d a b : BitVec 7) (s : State) : Host.Outcome State Fault Refusal :=
  issue (short3Info 0 false d a b) noHold (short3Body 1 (intMin 32) d a b) s

/-- MAX (R229). -/
def execMax (d a b : BitVec 7) (s : State) : Host.Outcome State Fault Refusal :=
  issue (short3Info 0 false d a b) noHold (short3Body 1 (intMax 32) d a b) s

/-- MINZ (R229). -/
def execMinz (d a b : BitVec 7) (s : State) : Host.Outcome State Fault Refusal :=
  issue (short3Info 0 false d a b) noHold (short3Body 1 (intMinz 32) d a b) s

/-- MAXZ (R229). -/
def execMaxz (d a b : BitVec 7) (s : State) : Host.Outcome State Fault Refusal :=
  issue (short3Info 0 false d a b) noHold (short3Body 1 (intMaxz 32) d a b) s

/-- AND (R231). -/
def execAnd (d a b : BitVec 7) (s : State) : Host.Outcome State Fault Refusal :=
  issue (short3Info 0 false d a b) noHold (short3Body 1 (intAnd) d a b) s

/-- OR (R231). -/
def execOr (d a b : BitVec 7) (s : State) : Host.Outcome State Fault Refusal :=
  issue (short3Info 0 false d a b) noHold (short3Body 1 (intOr) d a b) s

/-- XOR (R231). -/
def execXor (d a b : BitVec 7) (s : State) : Host.Outcome State Fault Refusal :=
  issue (short3Info 0 false d a b) noHold (short3Body 1 (intXor) d a b) s

/-- ANDN (R231). -/
def execAndn (d a b : BitVec 7) (s : State) : Host.Outcome State Fault Refusal :=
  issue (short3Info 0 false d a b) noHold (short3Body 1 (intAndn 32) d a b) s

/-- SHL (R232). -/
def execShl (d a b : BitVec 7) (s : State) : Host.Outcome State Fault Refusal :=
  issue (short3Info 0 false d a b) noHold (short3Body 1 (intShl 32) d a b) s

/-- SHR (R232). -/
def execShr (d a b : BitVec 7) (s : State) : Host.Outcome State Fault Refusal :=
  issue (short3Info 0 false d a b) noHold (short3Body 1 (intShr 32) d a b) s

/-- SAR (R232). -/
def execSar (d a b : BitVec 7) (s : State) : Host.Outcome State Fault Refusal :=
  issue (short3Info 0 false d a b) noHold (short3Body 1 (intSar 32) d a b) s

/-- ROTL (R232). -/
def execRotl (d a b : BitVec 7) (s : State) : Host.Outcome State Fault Refusal :=
  issue (short3Info 0 false d a b) noHold (short3Body 1 (intRotl 32) d a b) s

/-- CRNG16 (R250). -/
def execCrng16 (d a b : BitVec 7) (s : State) : Host.Outcome State Fault Refusal :=
  issue (short3Info 1 false d a b) noHold (short3Body 3 (intCrng 16 Machine.crng16 32) d a b) s

/-- CRNG32 (R250). -/
def execCrng32 (d a b : BitVec 7) (s : State) : Host.Outcome State Fault Refusal :=
  issue (short3Info 1 false d a b) noHold (short3Body 3 (intCrng 32 Machine.crng32 32) d a b) s

/-- NEG (R229). -/
def execNeg (d a : BitVec 7) (s : State) : Host.Outcome State Fault Refusal :=
  issue (short2Info true d a) noHold (short2Body (intNeg 32) d a) s

/-- ABS (R229). -/
def execAbs (d a : BitVec 7) (s : State) : Host.Outcome State Fault Refusal :=
  issue (short2Info true d a) noHold (short2Body (intAbs 32) d a) s

/-- NOT (R231). -/
def execNot (d a : BitVec 7) (s : State) : Host.Outcome State Fault Refusal :=
  issue (short2Info false d a) noHold (short2Body (intNot 32) d a) s

/-- CLZ (R233). -/
def execClz (d a : BitVec 7) (s : State) : Host.Outcome State Fault Refusal :=
  issue (short2Info false d a) noHold (short2Body (intClz 32) d a) s

/-- CTZ (R233). -/
def execCtz (d a : BitVec 7) (s : State) : Host.Outcome State Fault Refusal :=
  issue (short2Info false d a) noHold (short2Body (intCtz 32) d a) s

/-- POPC (R233). -/
def execPopc (d a : BitVec 7) (s : State) : Host.Outcome State Fault Refusal :=
  issue (short2Info false d a) noHold (short2Body (intPopc 32) d a) s

/-- BREV (R233). -/
def execBrev (d a : BitVec 7) (s : State) : Host.Outcome State Fault Refusal :=
  issue (short2Info false d a) noHold (short2Body (intBrev 32) d a) s

/-- MOV (R237): the tag is the common tag of the source's granules (R95). -/
def execMov (d a : BitVec 7) (s : State) : Host.Outcome State Fault Refusal :=
  issue (short2Info false d a) noHold (fun c t =>
    .ok (t.later c 1 (.slices (t.win d) 8 (t.word a) (t.slices.commonTag [t.wSpan a])) [])) s

/-- SATN (R245). -/
def execSatn (d a : BitVec 7) (z : Bool) (n : BitVec 5) (s : State) : Host.Outcome State Fault Refusal :=
  issue (short2Info false d a) noHold (short2Body (intSatn 32 z (n.toNat + 1)) d a) s

/-- EXT (R235). -/
def execExt (d a b : BitVec 7) (s : State) : Host.Outcome State Fault Refusal :=
  issue (short3Info 0 false d a b) noHold (fun c t =>
    if badControl (t.word b) false then .error (c.raise 5)
    else .ok (t.later c 1 (.slices (t.win d) 8 (intExt 32 (t.word a) (t.word b)) 0) [])) s

/-- DEP (R236): d is a source too. -/
def execDep (d a b : BitVec 7) (s : State) : Host.Outcome State Fault Refusal :=
  issue (fun t => blockInfo none [t.wSpan d, t.wSpan a, t.wSpan b] [t.wSpan d] [] [] 1 0 false) noHold (fun c t =>
    if badControl (t.word b) true then .error (c.raise 5)
    else .ok (t.later c 1 (.slices (t.win d) 8 (intDep 32 (t.word d) (t.word a) (t.word b)) 0) [])) s

/-- ADDI (R229). -/
def execAddi (d a : BitVec 7) (imm : BitVec 11) (s : State) : Host.Outcome State Fault Refusal :=
  issue (short2Info true d a) noHold
    (short2Body (fun sat x _ => fit (toSigned 32 x + toSigned 11 imm.toNat) 32 true sat) d a) s

/-- MOVI (R238). -/
def execMovi (d : BitVec 7) (imm : BitVec 18) (s : State) : Host.Outcome State Fault Refusal :=
  issue (fun t => blockInfo none [] [t.wSpan d] [] [] 1 0 false) noHold (fun c t =>
    .ok (t.later c 1 (.slices (t.win d) 8 (extendTo 18 32 false imm.toNat) 0) [])) s

/-- MOVIH (R238): bits 31:14 replaced. -/
def execMovih (d : BitVec 7) (imm : BitVec 18) (s : State) : Host.Outcome State Fault Refusal :=
  issue (fun t => blockInfo none [t.wSpan d] [t.wSpan d] [] [] 1 0 false) noHold (fun c t =>
    .ok (t.later c 1 (.slices (t.win d) 8 (imm.toNat * 2 ^ 14 + t.word d % 2 ^ 14) 0) [])) s

/-- CMP (R241). -/
def execCmp (cond : Cond) (pd : BitVec 4) (a b : BitVec 7) (s : State) : Host.Outcome State Fault Refusal :=
  issue (fun t => blockInfo none [t.wSpan a, t.wSpan b] [] [] [] 1 0 false) noHold (fun c t =>
    predBody pd (condHolds cond 32 (t.word a) (t.word b)) c t) s

/-- CMPI (R241): the immediate zero-extended under a .z condition. -/
def execCmpi (cond : Cond) (pd : BitVec 4) (a : BitVec 7) (imm : BitVec 10) (s : State) :
    Host.Outcome State Fault Refusal :=
  issue (fun t => blockInfo none [t.wSpan a] [] [] [] 1 0 false) noHold (fun c t =>
    predBody pd (condHolds cond 32 (t.word a) (extendTo 10 32 (condZero cond) imm.toNat)) c t) s

/-- TST (R241). -/
def execTst (wantZero : Bool) (pd : BitVec 4) (a b : BitVec 7) (s : State) : Host.Outcome State Fault Refusal :=
  issue (fun t => blockInfo none [t.wSpan a, t.wSpan b] [] [] [] 1 0 false) noHold (fun c t =>
    predBody pd ((t.word a &&& t.word b == 0) == wantZero) c t) s

/-- SEL (R242). -/
def execSel (p : BitVec 4) (d a b : BitVec 7) (s : State) : Host.Outcome State Fault Refusal :=
  issue (fun t => blockInfo none [t.wSpan a, t.wSpan b] [t.wSpan d] [p.toNat] [] 1 0 false) noHold (fun c t =>
    .ok (t.later c 1 (.slices (t.win d) 8 (if t.pred p.toNat then t.word a else t.word b)
      (t.slices.commonTag [t.wSpan a, t.wSpan b])) [])) s

/-- PAND (R243). -/
def execPand (pd pa pb : BitVec 4) (s : State) : Host.Outcome State Fault Refusal :=
  issue (fun _ => blockInfo none [] [] [pa.toNat, pb.toNat] [] 1 0 false) noHold (fun c t =>
    predBody pd (t.pred pa.toNat && t.pred pb.toNat) c t) s

/-- POR (R243). -/
def execPor (pd pa pb : BitVec 4) (s : State) : Host.Outcome State Fault Refusal :=
  issue (fun _ => blockInfo none [] [] [pa.toNat, pb.toNat] [] 1 0 false) noHold (fun c t =>
    predBody pd (t.pred pa.toNat || t.pred pb.toNat) c t) s

/-- PXOR (R243). -/
def execPxor (pd pa pb : BitVec 4) (s : State) : Host.Outcome State Fault Refusal :=
  issue (fun _ => blockInfo none [] [] [pa.toNat, pb.toNat] [] 1 0 false) noHold (fun c t =>
    predBody pd (t.pred pa.toNat != t.pred pb.toNat) c t) s

/-- PNOT (R243). -/
def execPnot (pd pa : BitVec 4) (s : State) : Host.Outcome State Fault Refusal :=
  issue (fun _ => blockInfo none [] [] [pa.toNat] [] 1 0 false) noHold (fun c t =>
    predBody pd (!t.pred pa.toNat) c t) s

/-- PMOV (R243). -/
def execPmov (pd pa : BitVec 4) (s : State) : Host.Outcome State Fault Refusal :=
  issue (fun _ => blockInfo none [] [] [pa.toNat] [] 1 0 false) noHold (fun c t =>
    predBody pd (t.pred pa.toNat) c t) s

/-- PPACK (R244). -/
def execPpack (d : BitVec 7) (s : State) : Host.Outcome State Fault Refusal :=
  issue (fun t => blockInfo none [] [t.wSpan d] (List.range 16) [] 1 0 false) noHold (fun c t =>
    .ok (t.later c 1 (.slices (t.win d) 8 t.slices.preds.toNat 0) [])) s

/-- PUNPACK (R244). -/
def execPunpack (d : BitVec 7) (s : State) : Host.Outcome State Fault Refusal :=
  issue (fun t => blockInfo none [t.wSpan d] [] [] [] 1 0 false) noHold (fun c t =>
    .ok (t.later c 1 (.preds 0xFFFF (BitVec.ofNat 16 (t.word d))) [])) s

/-- The granule that holds a window word (R246). -/
def Tile.granule (t : Tile) (n : BitVec 7) : Nat := t.ctl.winb + n.toNat / 2

/-- TAGSET (R246). -/
def execTagset (d : BitVec 7) (tag : BitVec 5) (s : State) : Host.Outcome State Fault Refusal :=
  issue (fun t => blockInfo none [] [(16 * t.granule d, 16)] [] [] 1 0 false) noHold (fun c t =>
    .ok (t.later c 1 (.tag (t.granule d) tag) [])) s

/-- TAGGET (R247): its source is the granule, whose pending tag writes hold or trap (log 13). -/
def execTagget (d a : BitVec 7) (s : State) : Host.Outcome State Fault Refusal :=
  issue (fun t => blockInfo none [(16 * t.granule a, 16)] [t.wSpan d] [] [] 1 0 false) noHold (fun c t =>
    .ok (t.later c 1 (.slices (t.win d) 8 (t.slices.tag (t.granule a)) 0) [])) s

end Sys2Proof.Machine
end

