-- ==== Sys2Proof/Machine/Cycle.lean ====
section
/-! DEFINITION. A cycle of a folio (R120-R123, R28, R142, R152, R171, R392, R460-R467): its machine steps in their order, the
stages between them, the cycle of a local handler, and the issue of a queue's head. -/

namespace Sys2Proof.Machine

/-- A fetch line is dispatched, and the next one read (R43, R137). -/
def execLineDispatch (s : State) : Host.Outcome State Fault Refusal :=
  match s.at? with
  | none => .fault .noTile
  | some (f, t, c) => .next (s.putTile f ((t.dispatch c.k).prefetch c.k))

/-- Crossing words that a redirect left are completed (R50). -/
def execCrossingWordCompletion (s : State) : Host.Outcome State Fault Refusal :=
  match s.at? with
  | none => .fault .noTile
  | some (f, t, c) => .next (s.putTile f (t.crossings c.k))

/-- Target buffers are filled by the fourth cycle after their fetch began (R138). -/
def execTargetBufferFill (s : State) : Host.Outcome State Fault Refusal :=
  match s.at? with
  | none => .fault .noTile
  | some (f, t, c) =>
    .next (s.putTile f { t with ctl := { t.ctl with
      btgt := t.ctl.btgt.map fun (b : Target) => if b.filled + 4 ≤ (c.k : Int) then { b with full := true } else b } })

/-- The signal lane's delay of a barrier (R392). -/
def Place.barDelay (p : Place) : Nat := 2 * (2 + (p.w - 1) + (p.h - 1) + if p.seam = 0 then 0 else 20)

/-- The last arrival at a barrier (R392), when every tile has arrived. -/
def Folio.barArrival (f : Folio) (n : Nat) : Option Nat :=
  f.tiles.foldl (fun m t => match m, vget t.net.bars n with
    | some a, some b => some (max a b)
    | _, _ => none) (some 0)

/-- Whether barrier n completes in cycle k (R318, R392). -/
def Folio.barDone (f : Folio) (n k : Nat) : Bool :=
  match f.barArrival n with
  | none => false
  | some a =>
    decide (a + f.place.barDelay ≤ k)
    && f.tiles.all fun t => !t.accessPending k ((vget t.net.bars n).getD 0) (fun _ => true) none false

/-- A barrier completes at a tile (R392). -/
def Tile.barFlip (t : Tile) (n : Nat) : Tile :=
  { t with
    net := { t.net with
      bars := vset t.net.bars n none
      hold := if t.net.hold == some n then none else t.net.hold }
    csr := { t.csr with barph := t.csr.barph ^^^ BitVec.ofNat 32 (2 ^ n) } }

/-- A barrier completes in the folio (R392). -/
def Folio.barFlip (f : Folio) (n : Nat) : Folio :=
  let a := f.barArrival n
  let i := (f.tiles.zipIdx.find? fun p => vget p.1.net.bars n == a).map Prod.snd |>.getD 0
  { f with
    tiles := f.tiles.map fun t => t.barFlip n
    barLast := vset f.barLast n (i % f.place.w, i / f.place.w)
    barFlips := n :: f.barFlips }

/-- The barriers that complete in this cycle (R392). -/
def execBarrierCompletion (s : State) : Host.Outcome State Fault Refusal :=
  match s.folio? s.cursor.folio with
  | none => .fault .noTile
  | some f => .next (s.setFolio ((List.range 32).foldl (fun f n => if f.barDone n f.cycle then f.barFlip n else f) f))

/-- A sleeping WAITA examines its word in this cycle (R353). -/
def execWaitaWake (s : State) : Host.Outcome State Fault Refusal :=
  match s.at? with
  | none => .fault .noTile
  | some (f, t, c) =>
    let t' := t.examine c.cyc
    let s' := s.putTile f t'
    match t.ap.sleep with
    | some w => .next (if t'.ap.sleep.isNone then s'.wakeLog f.place.idx s.cursor.tile t w else s')
    | none => .next s'

/-- Whether a tile that has issued HALT has halted at the end of a cycle (R142): nothing of it is still to issue or to land. -/
def Tile.settled (t : Tile) (k : Nat) : Bool :=
  t.halting && t.ctl.queues.toList.all List.isEmpty && t.ctl.fetch.cross.isEmpty && t.pend.isEmpty && t.ap.accs.isEmpty
  && t.ap.ratoms.isEmpty && t.ap.sleep.isNone && t.mx.mma.isNone && t.mx.pend.isEmpty && t.net.recvs.isEmpty
  && !t.ceBusy k

/-- A tile halts (R142). -/
def execTileHalted (s : State) : Host.Outcome State Fault Refusal :=
  match s.at? with
  | none => .fault .noTile
  | some (f, t, c) => .next (s.putTile f { t with halted := t.halted || t.settled c.cyc })

/-- Whether every tile of a folio has halted (R153). -/
def Folio.allHalted (f : Folio) : Bool := f.tiles.all fun t => t.halted

/-- Raises a cause that the Folio Manager posts for the folio, at its tile (0, 0) (log 34). -/
def Folio.raiseFirst (f : Folio) (r : Raise) : Folio := f.onTile 0 fun t => t.addRaise r

/-- No pen-lift point in 2^22 cycles (R152). -/
def execPenliftOverdue (s : State) : Host.Outcome State Fault Refusal :=
  match s.folio? s.cursor.folio with
  | none => .fault .noTile
  | some f =>
    .next (if f.allHalted || decide (f.cycle < f.lastPen + 2 ^ 22) then s
      else s.setFolio (f.raiseFirst (raiseEnd 62 f.lastPen 0)))

/-- The launch record's limit in cycles (R162). -/
def Launch.limit (l : Launch) : Nat := 65536 * l.timeout

/-- The launch record's limit has passed (R170, log 34). -/
def execLaunchTimeout (s : State) : Host.Outcome State Fault Refusal :=
  match s.folio? s.cursor.folio with
  | none => .fault .noTile
  | some f =>
    .next (if f.launch.limit = 0 || decide (f.cycle + 1 < f.launch.limit) then s
      else s.setFolio (f.raiseFirst (raiseEnd 94 f.launch.limit 0)))

/-- A parity error in a tile's control state (R474): cause 85 at the end of the folio's next cycle. -/
def execControlStateParityError (n fx fy : Nat) (s : State) : Host.Outcome State Fault Refusal :=
  .next (s.onFolio n fun f => if f.place.w ≤ fx then f else f.onTile (f.tileAt fx fy) fun t => t.addRaise (raiseEnd 85 0 0))

/-- A tile enters its local handler (R465). -/
def execLocalHandlerEntry (s : State) : Host.Outcome State Fault Refusal :=
  match s.at? with
  | none => .fault .noTile
  | some (f, t, _) =>
    let t := t.enterHandler
    .next (s.putTile f { t with trap := { t.trap with ret := false } })

/-- The tile forgets what belonged to its last cycle; a parity error waits for the cycle's end. -/
def Tile.fresh (t : Tile) : Tile :=
  { t with
    raises := t.raises.filter fun r => r.cause == 85
    evNow := [], sigs := [], penNow := none, brkNow := none, wrote := [] }

/-- The start of a cycle: flits that were ejected reach their landing buffers, and commands that end do so. -/
def State.startStage (s : State) (fi : Nat) : State :=
  s.onFolio fi fun f =>
    let f := { f with tiles := f.tiles.map Tile.fresh, barFlips := [], prof := f.prof.apply }
    let f := f.tiles.zipIdx.foldl (fun f p => f.absorb p.2 p.1) f
    (List.range f.tiles.length).foldl (fun f i => f.ceStart i f.cycle) f

/-- Changes every tile of a folio, knowing what its instructions know. -/
def State.onTiles (s : State) (fi : Nat) (h : Ctx → Tile → Tile) : State :=
  match s.folio? fi with
  | none => s
  | some f => s.setFolio { f with tiles := f.tiles.zipIdx.map fun p => h (ctxOf s f p.2 p.1 .sq) p.1 }

/-- Before the cycle's issues: accumulators take what lands (R295), the grant (R135, R151), and the reads of the fetch unit
and of the AP (R28). -/
def State.grantStage (s : State) (fi : Nat) : State :=
  s.onTiles fi fun c t => (((t.mxLand c.cyc true).grant c).fetchReads c.cyc).apReads false c.cyc

/-- After the cycle's issues: the writes of AP, then of MX (R28). -/
def State.writeStage (s : State) (fi : Nat) : State :=
  s.onTiles fi fun c t => (t.apWrites false c.cyc).mxLand c.cyc false

/-- The signals of a cycle join the token counters (R151). -/
def Tile.addTokens (t : Tile) : Tile :=
  let t' := (List.range 8).foldl (fun (t : Tile) n =>
    let mine := t.sigs.filter fun x => x.1 == n && x.2.1 != 0
    let sum := (mine.map fun x => x.2.1).sum
    match mine.getLast? with
    | none => t
    | some l =>
      if 255 < vget t.tok n + sum then t.addRaise (raiseEnd 60 n 0)
      else { t with tok := vset t.tok n (vget t.tok n + sum), sigBy := vset t.sigBy n l.2.2 }) t
  { t' with sigs := [] }

/-- Accesses of a clock that have performed by cycle k leave their lists. -/
def Tile.sweep (t : Tile) (hand : Bool) (k : Nat) : Tile :=
  let t := { t with ap := { t.ap with accs := t.ap.accs.filter fun a => !(a.hand == hand && decide (a.perf ≤ k)) } }
  if hand then t
  else { t with
    ap := { t.ap with ratoms := t.ap.ratoms.filter fun r => decide (k < r.land) }
    net := { t.net with recvs := t.net.recvs.filter fun r => decide (k < r.land) }
    mx := { t.mx with pend := t.mx.pend.filter fun p => decide (k < p.land) } }

/-- The last writers of SPAD bytes, for the wait log (R495). -/
def Tile.keepSetters (t : Tile) : Tile :=
  let hides (w x : Wrote) : Bool := decide (w.first ≤ x.first) && decide (x.first + x.len ≤ w.first + w.len)
  { t with setters := t.wrote.foldl (fun l w => w :: (l.filter fun x => !hides w x)) t.setters }

/-- A tile at the end of its folio's cycle k. -/
def Tile.finish (t : Tile) (f : Folio) (k : Nat) : Tile :=
  let t := t.addTokens.settleEnergy
  let r := t.countEvents
  let t := { r.1 with note := r.2 }
  let t := (t.ceFinish k).sweep false k
  let t := if capOn f.cap.wlbase then t.keepSetters else t
  { t with prof := t.prof.count f.prof (k + 1) }

/-- The tiles that have not halted. -/
def Folio.live (f : Folio) : List Tile := f.tiles.filter fun t => !t.halted

/-- Whether this cycle is a pen-lift point (R152, R153). -/
def Folio.penPoint (f : Folio) : Bool := !f.live.isEmpty && f.live.all fun t => t.penNow.isSome

/-- The agreement on a pen-lift point (R152): where some tiles issue PENLIFT and others do not, every tile traps. -/
def Folio.penAgree (f : Folio) : Folio :=
  if f.penPoint then { f with lastPen := f.cycle }
  else if f.live.any fun t => t.penNow.isSome then { f with tiles := f.tiles.map fun t => t.addRaise (raiseEnd 61 0 0) }
  else f

/-- Drops what the folio no longer needs of results from outside: completions of lines that have landed, and contributions
to collectives that are over. -/
def State.dropArrived (s : State) (f : Folio) : State :=
  let i := f.place.idx
  let waits (id : Nat) : Bool := f.tiles.any fun t => t.ce.lines.any fun l => l.outside == some id
  let n (p : FarPart) : Nat := farNum p.id
  let done (p : FarPart) : Bool :=
    !(f.tiles.any fun t => t.ce.shares.any fun x => x.num == n p) && f.tiles.any fun t => decide (n p < t.ce.collSeq)
  ({ s with
    hostReads := s.hostReads.filter fun r => r.folio != i || r.write.isSome || waits r.id
    far := s.far.filter fun p => !(farFolio p.id == i && done p) } : State).serveReads

/-- The end of a folio's cycle, before its machine steps of the end. -/
def State.finishStage (s : State) (fi : Nat) : State :=
  let s := s.onFolio fi fun f =>
    ({ f with tiles := f.tiles.map fun (t : Tile) => t.finish f f.cycle }.penAgree).dropShares
  match s.folio? fi with
  | none => s
  | some f => (s.dropArrived f).watch fi false

/-- The words of the entry that a trap record names, where it still stands in its queue (R493). -/
def Tile.wordsAt (t : Tile) (r : TrapCsrs) : Nat :=
  match r.posQueue with
  | none => 0
  | some q =>
    match (t.ctl.entries q).find? fun e => e.line == r.tpos.toNat / 4096 % 4096 && e.lane == r.tpos.toNat / 256 % 8 with
    | some e => e.words
    | none => 0

/-- Records the traps that a folio's tiles raised (R461), with the trace's entries and trigger (R492, R493). -/
def State.recordTraps (s : State) (fi : Nat) : State :=
  match s.folio? fi with
  | none => s
  | some f =>
    let s := s.onFolio fi fun f => { f with tiles := f.tiles.map fun (t : Tile) =>
      if t.raises.isEmpty then t else { t with trap := recordTrap f.cycle t.raises t.trap } }
    let s := f.trapping.foldl (fun s p =>
      let r := recordTrap f.cycle p.2.raises p.2.trap
      let pos := r.tpos.toNat
      let w := p.2.wordsAt r
      s.trace fi p.1 f.cycle 1 (pos % 8) (pos / 256 % 8) (pos / 4096 % 4096) (w % 2 ^ 32) (w / 2 ^ 32)) s
    s.trigger fi 1 f.cycle

/-- The cursor of a tile of a folio. -/
def Folio.at_ (f : Folio) (i : Nat) : Cursor := ⟨f.place.idx, i, .sq, f.place.func⟩

/-- The trapping tiles run their handlers, or post (R463). -/
def State.handleTraps (s : State) (fi : Nat) : State :=
  let s := s.recordTraps fi
  match s.folio? fi with
  | none => s
  | some f =>
    if f.trapping.all fun p => p.2.trap.runsLocal then
      let s := (s.onFolio fi fun f => { f with freeze := { f.freeze with handler := true } }).writeNotes fi
      { s with agenda := (f.trapping.map fun p => .act (f.at_ p.1) .localHandlerEntry) ++ s.agenda }
    else
      let s := s.onFolio fi fun f => { f with freeze := { f.freeze with posted := true } }
      s.next (f.at_ 0) .trapPostToHost

/-- Whether a folio commits (R170): every tile has halted, and every command and posted write has completed. -/
def Folio.commits (f : Folio) : Bool :=
  f.allHalted && f.tiles.all fun t => t.ce.cmds.isEmpty && t.ce.lines.all fun l => l.route != .write && l.route != .inkWrite

/-- Entries of the drain area that each tile needs (R172). -/
def Folio.drainEntries (f : Folio) : List (List Nat) := f.tiles.zipIdx.map fun p => f.flitEntries p.2 p.1

/-- A pre-empt record's stop acts on a frozen folio (R173): held in place, or evicted where one of several records asks for it (log 108). -/
def State.actStop (s : State) (fi : Nat) : State :=
  match s.folio? fi with
  | none => s
  | some f =>
    if f.stops.isEmpty then s
    else if f.stops.any fun x => x.evict then s.next (f.at_ 0) .folioEviction
    else
      let s := ((s.stopsActed f.stops).setFolio { f with held := true }).stopOver f.place f.launch.job f.cycle (f.stops.map Stop.hit)
      s.onFolio fi fun f => { f with stops := [] }

/-- A stop acts at a pen-lift point (R171, R172): the flits drain and the folio freezes after the cycle; a checkpoint's stop
then waits for its snapshot point (R484). -/
def State.penStop (s : State) (f : Folio) (l : List (List Nat)) : State :=
  let fi := f.place.idx
  let s := s.setFolio { f with
    tiles := f.tiles.zipIdx.map fun p => p.1.drain (l.getD p.2 [])
    cycle := f.cycle + 1
    freeze := { f.freeze with preempt := true } }
  if f.ckStop then s.next (f.at_ 0) .ckptSnapshot else s.actStop fi

/-- A tile whose drain entries do not fit raises cause 61, naming its PENLIFT (R172). -/
def Folio.drainFull (f : Folio) (l : List (List Nat)) : Folio :=
  { f with tiles := f.tiles.zipIdx.map fun p =>
      if 256 < (l.getD p.2 []).length then
        let x := p.1.penNow.getD (0, 0, 0)
        p.1.addRaise (raiseNamed 61 x.2.1 x.2.2 (if p.1.penNow.isSome then 1 else 0) 0 0)
      else p.1 }

/-- PROBEs of the cycle freeze the folio until the hub has resolved them (R357). -/
def State.startProbes (s : State) (fi : Nat) : State :=
  match s.folio? fi with
  | none => s
  | some f =>
    let l := f.tiles.zipIdx.filter fun p => p.1.probe.isSome
    if l.isEmpty then s
    else
      let s := s.onFolio fi fun f => { f with freeze := { f.freeze with probe := true } }
      { s with agenda := s.agenda ++ l.map fun p => .act (f.at_ p.2) .probeResolve }

/-- Whether DBGCYC's stop falls at the end of the cycle just run (R489). -/
def Folio.cycleReached (f : Folio) : Bool := f.dbg.stopAt.any fun n => decide (n ≤ f.cycle)

/-- Whether an armed BRK has issued (R489). -/
def Folio.brkIssued (f : Folio) : Bool := f.tiles.any fun t => t.brkNow.isSome

/-- Debug stops that fall at the end of the cycle just run (R489). -/
def State.startDebug (s : State) (f : Folio) : State :=
  let fi := f.place.idx
  match f.dbg.stopReq with
  | some _ => s.next (f.at_ 0) .debugStop
  | none =>
    if f.cycleReached then s.next (f.at_ 0) .debugCycleReached
    else if f.brkIssued then
      (s.onFolio fi fun f => { f with dbg := { f.dbg with stopReq := some 4 } }).next (f.at_ 0) .debugStop
    else s

/-- The boundary after a cycle: traps, commit, stops, or the next cycle. A stop of a pen-lift point at which a debug stop falls waits
for the first one after the resume (R491). -/
def State.settleStage (s : State) (fi : Nat) : State :=
  match s.folio? fi with
  | none => s
  | some f =>
    let l := if f.penPoint then f.drainEntries else []
    let full := l.any fun x => decide (256 < x.length)
    let debug := f.dbg.stopReq.isSome || f.cycleReached || f.brkIssued
    let stops := f.penPoint && (!f.stops.isEmpty || f.ckStop) && !full && !debug
    let f := f.drainFull l
    let s := s.setFolio { f with penDue := stops && !f.trapping.isEmpty }
    if !f.trapping.isEmpty then ((s.startDebug f).handleTraps fi).startProbes fi
    else
      let s := s.writeNotes fi
      if f.commits then s.next (f.at_ 0) .folioCommit
      else
        let s := s.startDebug f
        match s.folio? fi with
        | none => s
        | some f =>
          let s := if stops then s.penStop f l else s.setFolio { f with cycle := f.cycle + 1 }
          s.startProbes fi

/-- The start of a cycle of the handlers that run (R465): what lands on their clock, tokens, and the reads of the fetch unit
and of the AP. A parity error waits for the cycle's end (R474). -/
def State.handStage (s : State) (fi : Nat) : State :=
  s.onTiles fi fun c t =>
    if !c.hand then { t with wrote := [] }
    else
      let t := { t with raises := t.raises.filter fun r => r.cause == 85, sigs := [], wrote := [], brkNow := none }
      (((t.landAll true c.k).grant c).fetchReads c.k).apReads true c.k

/-- The writes of the AP in a handler's cycle. -/
def State.handWriteStage (s : State) (fi : Nat) : State :=
  s.onTiles fi fun c t => if c.hand then t.apWrites true c.k else t

/-- A cause raised at the end of a handler's cycle is cause 95 (R466). -/
def Raise.handEnd (r : Raise) (k : Nat) : Raise :=
  if r.cause = 10 ∨ r.cause = 23 ∨ r.cause = 95 then r else { r with cause := 95, info := r.cause, info2 := k }

/-- A tile at the end of a handler's cycle: TRET returns (R467), else its clock advances. -/
def Tile.handEnd (t : Tile) (wl : Bool) : Tile :=
  if !t.inHandler then t
  else
    let t := (t.addTokens).sweep true t.trap.hcyc
    let t := if wl then t.keepSetters else t
    let t := { t with raises := t.raises.map fun r => r.handEnd t.trap.hcyc }
    if !t.raises.isEmpty then t
    else if t.trap.ret then t.leaveHandler
    else { t with trap := { t.trap with hcyc := t.trap.hcyc + 1 } }

/-- The end of a handler's cycle: a trap in a handler is posted (R466); once every handler has returned the folio goes on with
the cycle after its freeze cycle (R467), or a stop of that pen-lift point acts (R171). -/
def State.handEndStage (s : State) (fi : Nat) : State :=
  let s := (s.onFolio fi fun f => { f with tiles := f.tiles.map fun t => t.handEnd (capOn f.cap.wlbase) }).watch fi true
  match s.folio? fi with
  | none => s
  | some f =>
    let s := match f.dbg.stopReq, f.brkIssued with
      | some _, _ => s.next (f.at_ 0) .debugStop
      | none, true => (s.onFolio fi fun f => { f with dbg := { f.dbg with stopReq := some 4 } }).next (f.at_ 0) .debugStop
      | none, false => s
    if !f.trapping.isEmpty then
      let s := s.recordTraps fi
      (s.onFolio fi fun f => { f with freeze := { f.freeze with handler := false, posted := true } }).next (f.at_ 0) .trapPostToHost
    else if f.tiles.any Tile.inHandler then s
    else
      let s := s.onFolio fi fun f => { f with freeze := { f.freeze with handler := false }, penDue := false }
      match s.folio? fi, f.penDue && (!f.stops.isEmpty || f.ckStop) && f.dbg.stopReq.isNone && !f.brkIssued with
      | some g, true => s.penStop g g.drainEntries
      | _, _ => s.onFolio fi fun f => { f with cycle := f.cycle + 1 }

/-- A stage of a folio's cycle. -/
def State.stage (s : State) (p : Stage) (fi : Nat) : State :=
  match p with
  | .start => s.startStage fi
  | .grant => s.grantStage fi
  | .writes => s.writeStage fi
  | .finish => s.finishStage fi
  | .settle => s.settleStage fi
  | .hand => s.handStage fi
  | .handWrites => s.handWriteStage fi
  | .handEnd => s.handEndStage fi

/-- One step of the table at every tile of a list. -/
def Folio.each (f : Folio) (l : List Nat) (i : Instr) : List Slot := l.map fun n => .act (f.at_ n) i

/-- The issue of the queues at every tile of a list, in the order of R135; MX and CE have another turn after AP where they held for
a fence that has then issued (R354, log 17). -/
def Folio.issues (f : Folio) (l : List Nat) : List Slot :=
  l.flatMap fun n =>
    let at_ (q : Queue) : Cursor := { f.at_ n with queue := q }
    [.issue (at_ .mx), .issue (at_ .ce), .issue (at_ .xu), .issue (at_ .ap), .reissue (at_ .mx), .reissue (at_ .ce), .issue (at_ .net),
     .issue (at_ .sq)]

/-- The Inkwell steps of a cycle: those whose lines have a slot that begins in it. -/
def Folio.inkSlots (f : Folio) : List Slot :=
  [(1, Instr.inkwellFill), (2, .inkwellCopy), (3, .inkwellAxpby), (4, .inkwellSgdwf), (5, .inkwellMomwf), (6, .inkwellRqnt),
   (7, .inkwellDigest)].flatMap fun p =>
    f.tiles.zipIdx.filterMap fun t => if t.1.ce.lines.any (t.1.inkStarts p.1 f.cycle) then some (.act (f.at_ t.2) p.2) else none

/-- What a running folio's cycle consists of, in order (R28, R86, R132, R135, R137; log 3). Dispatch follows the cycle's issues: the queue
place of an entry that issues is free for it, and the held last line of a loop's body may dispatch with the LOOP's issue (log 95). -/
def Folio.cycleSlots (f : Folio) : List Slot :=
  let i := f.place.idx
  let l := List.range f.tiles.length
  let one (x : Instr) : Slot := .act (f.at_ 0) x
  [one .lateLandingFreeze, .stage .start i]
  ++ f.each l .nevWindowStart ++ f.each l .collResultLanding ++ f.each l .messageArrival ++ f.each l .ratomReplyLanding
  ++ [one .barrierCompletion]
  ++ f.each l .sliceWriteLanding ++ f.each l .waitaWake ++ f.each l .waitcDelayExpiry ++ f.each l .ceLineRequest
  ++ f.each l .hbmSlotAccess ++ f.each l .hostSlotAccess ++ f.inkSlots ++ f.each l .mmaLanding
  ++ [.stage .grant i]
  ++ f.each l .mmaChunkStart ++ f.issues l
  ++ [.stage .writes i]
  ++ f.each l .lineLanding ++ f.each l .inkwellStatusLanding ++ [one .completionSignalWrite] ++ f.each l .ratomHomePerform
  ++ f.each l .postedWriteCompletion ++ [one .flitHop]
  ++ f.each l .crossingWordCompletion ++ f.each l .lineDispatch ++ f.each l .targetBufferFill
  ++ [.stage .finish i] ++ f.each l .tileHalted ++ [one .penliftOverdue, one .launchTimeout, .stage .settle i]

/-- What a cycle of the running handlers consists of (R465). -/
def Folio.handSlots (f : Folio) : List Slot :=
  let i := f.place.idx
  let l := (f.tiles.zipIdx.filter fun p => p.1.inHandler).map Prod.snd
  [.stage .hand i] ++ f.each l .waitcDelayExpiry ++ f.issues l ++ [.stage .handWrites i]
  ++ f.each l .crossingWordCompletion ++ f.each l .lineDispatch ++ f.each l .targetBufferFill ++ [.stage .handEnd i]

/-- What a folio does in a tick (R121, R465): nothing while frozen, a handlers' cycle, or a cycle of its own, which begins with
the check for late landings. -/
def Folio.tickSlots (f : Folio) : List Slot :=
  let z := f.freeze
  if z.posted || z.debug || z.preempt || z.probe then []
  else if z.handler then f.handSlots
  else f.cycleSlots

/-- A trap of the head itself: a fault marker, a lane that no handler may use, words that do not decode (R51, R466, R52). -/
def Tile.headTrap (t : Tile) (c : Ctx) (l : List Raise) : Tile :=
  let t := { t with ctl := { t.ctl with pfx := none } }
  if t.queueHeld c then t else { t with raises := t.raises ++ raisesOf (l.map c.inHand) }

/-- Whether a lane is one that a handler may not use (R466). -/
def Ctx.noUnit (c : Ctx) : Bool := c.hand && (c.q == .ce || c.q == .mx || c.q == .net)

/-- What the head of a queue raises by itself: cause 10 of a lane that a handler may not use (R466), the cause of a fault marker (R51) or
of an unassigned encoding (R72), and with one of them the misuse that its PFX shows alone (R70). -/
def Ctx.headRaises (c : Ctx) : List Raise :=
  let l := (if c.noUnit then [c.raiseInfo 10 c.e.words c.k] else [])
    ++ (match c.e.marker, decode c.q c.e.w0 c.e.w1 with
      | some m, _ => [c.raiseInfo m.cause m.info 0]
      | none, .error x => [c.raise x]
      | none, .ok _ => [])
  if l.isEmpty then [] else l ++ (if c.pfx.any badRm then [c.prefixRaise] else [])

/-- The trace and the wait log of an issue (R493, R495): t and t' are the tile before and after. -/
def State.logIssue (s : State) (f : Folio) (i : Nat) (t t' : Tile) (c : Ctx) : State :=
  if (t'.ctl.entries c.q).length < (t.ctl.entries c.q).length then
    (s.trace f.place.idx i c.cyc 0 (queueNum c.q) c.e.lane c.e.line c.e.w0.toNat c.e.w1.toNat).issueLog f i t c.q c.k
  else s

/-- Whether the queue at the cursor held for a fence in its first turn of this cycle (R354). -/
def State.fencedHere (s : State) : Bool :=
  match s.at? with
  | some (_, t, c) => t.fenced.contains c.q
  | none => false

/-- The head of a queue runs: by the meaning of its instruction, with the PFX before it first (R69). run is the table of
meanings. -/
def State.runHead (s : State) (run : Instr → State → Host.Outcome State Fault Refusal) : Host.Outcome State Fault Refusal :=
  match s.at? with
  | none => .fault .noTile
  | some (f, t, c) =>
    if (t.ctl.entries c.q).isEmpty || (c.pfx.isSome && c.pe.isNone) then .next s
    else
      match c.headRaises, decode c.q c.e.w0 c.e.w1 with
      | [], .ok i =>
        match run i s with
        | .next s' =>
          match (s'.folio? s.cursor.folio).bind fun g => g.tiles[s.cursor.tile]? with
          | none => .next s'
          | some t' =>
            .next (if c.pfx.isNone && t'.ctl.pfx.isSome then { s' with agenda := .issue s.cursor :: s'.agenda }
              else s'.logIssue f s.cursor.tile t t' c)
        | x => x
      | l, _ => .next (s.putTile f (t.headTrap c l))

end Sys2Proof.Machine
end

