-- ==== Sys2Proof/Machine/Image.lean ====
section
/-! DEFINITION. The schedule image (R110-R114) and checks 1 to 12 on it (R168). -/

namespace Sys2Proof.Machine

/-- A section of an image (R111). -/
structure Section where
  ty : Nat
  fx0 : Nat
  fx1 : Nat
  fy0 : Nat
  fy1 : Nat
  aux : Nat
  off : Nat
  len : Nat
  deriving DecidableEq, Repr, Inhabited

/-- A schedule image: its bytes as a little-endian value, its length, its header and its directory (R110, R111). -/
structure Image where
  data : Nat
  len : Nat
  w : Nat
  h : Nat
  seam : Nat
  chans : Nat
  secs : List Section
  deriving DecidableEq, Repr, Inhabited

/-- The field of n bytes at byte off of a little-endian value. -/
def field (v off n : Nat) : Nat := bitsAt v (8 * off) (8 * n)

/-- A directory entry (R111). -/
def sectionAt (v off : Nat) : Section :=
  { ty := field v off 2, fx0 := field v (off + 2) 1, fx1 := field v (off + 3) 1, fy0 := field v (off + 4) 1
    fy1 := field v (off + 5) 1, aux := field v (off + 6) 2, off := field v (off + 8) 4, len := field v (off + 12) 4 }

/-- Whether the directory lies within the length (R168 check 3). -/
def dirFits (v len : Nat) : Bool := decide (field v 16 4 + 16 * field v 14 2 ≤ len)

/-- An image by its bytes; a directory outside the length has no sections. -/
def Image.ofBytes (v len : Nat) : Image :=
  { data := v, len := len, w := field v 8 1, h := field v 9 1, seam := field v 10 1, chans := field v 12 2
    secs := if dirFits v len then (List.range (field v 14 2)).map fun i => sectionAt v (field v 16 4 + 16 * i) else [] }

/-- A field of a section's content. -/
def Image.at (m : Image) (s : Section) (off n : Nat) : Nat := field m.data (s.off + off) n

/-- The entries of sz bytes of a section's content, as offsets. -/
def Section.entries (s : Section) (sz : Nat) : List Nat := (List.range (s.len / sz)).map fun i => sz * i

/-- The sections of a type. -/
def Image.ofType (m : Image) (ty : Nat) : List Section := m.secs.filter fun s => s.ty == ty

/-- Whether a section covers a tile. -/
def Section.covers (s : Section) (x y : Nat) : Bool :=
  decide (s.fx0 ≤ x) && decide (x ≤ s.fx1) && decide (s.fy0 ≤ y) && decide (y ≤ s.fy1)

/-- Whether two sections share a tile. -/
def Section.shares (a b : Section) : Bool :=
  decide (a.fx0 ≤ b.fx1) && decide (b.fx0 ≤ a.fx1) && decide (a.fy0 ≤ b.fy1) && decide (b.fy0 ≤ a.fy1)

/-- Check 1 (R110). -/
def Image.header (m : Image) : Bool :=
  decide (64 ≤ m.len) && field m.data 0 4 == 0x4B5A5349 && field m.data 4 2 == 1 && field m.data 6 2 / 2 == 0
  && field m.data 11 1 == 0 && field m.data 20 44 == 0

/-- Check 2: size and seam. -/
def Image.size (m : Image) : Bool :=
  decide (1 ≤ m.w) && decide (m.w ≤ 72) && decide (1 ≤ m.h) && decide (m.h ≤ 32)
  && (if field m.data 6 2 % 2 = 1 then decide (1 ≤ m.seam) && decide (m.seam + 1 ≤ m.w) else m.seam == 0)

/-- Live maps of a section's content (R112, R113): numbers with their items; none when the content ends inside a map. n counts
the maps that may still follow. -/
def Image.maps (m : Image) (s : Section) (off n : Nat) : Option (List (Nat × List (Nat × Nat × Nat × Nat))) :=
  match n with
  | 0 => if off = s.len then some [] else none
  | n + 1 =>
    if off = s.len then some []
    else if s.len < off + 4 then none
    else
      let items := m.at s (off + 2) 2
      if s.len < off + 4 + 12 * items then none
      else
        let l := (List.range items).map fun i =>
          let o := off + 4 + 12 * i
          (m.at s o 1, m.at s (o + 2) 2, m.at s (o + 4) 4, m.at s (o + 8) 4)
        (Image.maps m s (off + 4 + 12 * items) n).map fun r => (m.at s off 2, l) :: r

/-- The live maps of a section. -/
def Image.liveMaps (m : Image) (s : Section) : List (Nat × List (Nat × Nat × Nat × Nat)) := (m.maps s 0 s.len).getD []

/-- Whether a section's content has the form that its type gives it (R112, log 35); a slice file's length is check 7's. -/
def Image.shaped (m : Image) (s : Section) : Bool :=
  match s.ty with
  | 1 => if s.aux = 0xFFFF then s.len % 32 == 0 else decide (s.aux < 256) && decide (8 ≤ s.len) && s.len % 32 == 8
  | 2 => decide (4 ≤ s.len)
  | 3 => true
  | 4 => decide (4 ≤ s.len)
  | 5 => s.len % 10 == 0
  | 6 => s.len % 8 == 0
  | 7 => s.len % 8 == 0
  | 8 => (m.maps s 0 s.len).isSome
  | 9 => s.len % 8 == 0
  | 10 => s.len % 16 == 0
  | 11 => s.len == 1
  | _ => false

/-- Check 3: directory and sections. -/
def Image.directory (m : Image) : Bool :=
  let n := field m.data 14 2
  decide (1 ≤ n) && decide (n ≤ 4096) && dirFits m.data m.len
  && m.secs.all fun s => decide (s.off + s.len ≤ m.len) && m.shaped s

/-- The calendar plan (R112, type 9). -/
def Image.calendar (m : Image) : List CalEntry :=
  (m.ofType 9).flatMap fun s => (s.entries 8).map fun o => ⟨m.at s o 2, m.at s (o + 2) 2, m.at s (o + 4) 2, m.at s (o + 6) 1, m.at s (o + 7) 1⟩

/-- Check 4: every tile range lies inside the folio, and so does every tile of the calendar plan. -/
def Image.inside (m : Image) : Bool :=
  (m.secs.all fun s => decide (s.fx0 ≤ s.fx1) && decide (s.fx1 < m.w) && decide (s.fy0 ≤ s.fy1) && decide (s.fy1 < m.h))
  && m.calendar.all fun e => decide (e.fx < m.w) && decide (e.fy < m.h)

/-- The numbers or ranges that a section declares on its tiles, as first and count (R112). -/
def Image.extents (m : Image) (s : Section) : List (Nat × Nat) :=
  match s.ty with
  | 2 => [(m.at s 0 4, s.len - 4)]
  | 3 => [(0, 1)]
  | 4 => [(m.at s 0 4, s.len - 4)]
  | 5 => (s.entries 10).map fun o => (m.at s o 2, 1)
  | 6 => [(0, 1)]
  | 7 => (s.entries 8).map fun o => (m.at s o 2, 1)
  | 8 => (m.liveMaps s).map fun x => (x.1, 1)
  | 9 => [(0, 1)]
  | 10 => (s.entries 16).map fun o => (m.at s o 4, 8)
  | 1 => [(s.aux, 1)]
  | 11 => [(s.aux, 1)]
  | _ => []

/-- Whether two sections of one type overlap on a tile (log 35). -/
def Image.clash (m : Image) (a b : Section) : Bool :=
  a.ty == b.ty && a.shares b && (m.extents a).any fun x => (m.extents b).any fun y => meets x.1 x.2 y.1 y.2

/-- Check 5: no two sections of one type overlap on one tile. -/
def Image.disjoint (m : Image) (l : List Section) : Bool :=
  match l with
  | [] => true
  | s :: r => (r.all fun b => !m.clash s b) && Image.disjoint m r

/-- The first TIM line of a section of type 1 (R112, R114). -/
def Image.firstLine (m : Image) (s : Section) : Nat := if s.aux = 0xFFFF then 0 else m.at s 0 2

/-- The bytes before a section's fetch lines. -/
def Section.preamble (s : Section) : Nat := if s.aux = 0xFFFF then 0 else 8

/-- How many fetch lines a section of type 1 holds. -/
def Section.lines (s : Section) : Nat := (s.len - s.preamble) / 32

/-- The fetch lines of a section of type 1. -/
def Image.fetchLines (m : Image) (s : Section) : List Line :=
  (List.range s.lines).map fun i => BitVec.ofNat 256 (m.at s (s.preamble + 32 * i) 32)

/-- Whether an overlay is loaded at launch (R114). -/
def Image.atLaunch (m : Image) (s : Section) : Bool := s.aux != 0xFFFF && m.at s 4 1 % 2 == 1

/-- A line as the checks walk it (R48): the queues that await a second word, and the first words in SQ. -/
structure LineWalk where
  owed : List Nat
  sq : List Word

/-- The walk of one lane (R41, R42, R48). -/
def LineWalk.lane (w : LineWalk) (l : Line) (k : Nat) : LineWalk :=
  let q := bitsAt (Machine.lane l 0).toNat (4 * k - 4) 4
  let x := Machine.lane l k
  if q = 0 ∨ 6 < q then w
  else if w.owed.contains q then { w with owed := w.owed.filter fun n => n != q }
  else { owed := if isLong x then w.owed ++ [q] else w.owed, sq := if q = 1 then w.sq ++ [x] else w.sq }

/-- The fetch lines of a section line by line (R40, R45, R49): the first words in SQ with their lines; none where a rule is
broken. owed is the queue to which the line before owes a second word; the last line may owe none (log 117). -/
def walkLines (l : List Line) (n : Nat) (owed : Option Nat) : Option (List (Nat × Word)) :=
  match l with
  | [] => if owed.isNone then some [] else none
  | x :: r =>
    let head := (lane x 0).toNat
    let w := ((List.range 7).map (· + 1)).foldl (fun (w : LineWalk) k => if k = 1 && owed.isSome then w else w.lane x k) ⟨[], []⟩
    let lifts := (w.sq.filter fun y => major y == 0x2C).length
    if head / 2 ^ 29 ≠ 0 ∨ (owed.isSome && owed != some (head % 16)) ∨ 1 < w.owed.length ∨ bitsAt head 28 1 ≠ lifts then none
    else (walkLines r (n + 1) w.owed.head?).map fun z => (w.sq.map fun y => (n, y)) ++ z

/-- The walk of a section of type 1. -/
def Image.walked (m : Image) (s : Section) : Option (List (Nat × Word)) := walkLines (m.fetchLines s) (m.firstLine s) none

/-- Check 6: a section of type 1 fits in TIM and obeys the rules on lines, and an overlay its preamble's (R114). -/
def Image.timFits (m : Image) (s : Section) : Bool :=
  let f := m.firstLine s
  decide (f + s.lines ≤ 4096) && (m.walked s).isSome
  && (s.aux == 0xFFFF || (decide (f ≤ m.at s 2 2) && decide (m.at s 2 2 < f + s.lines)))

/-- Whether two sections of type 1 that a launch loads overlap in TIM (R114). -/
def Image.timClash (m : Image) (a b : Section) : Bool :=
  (a.aux == 0xFFFF || m.atLaunch a) && m.atLaunch b && a.aux != b.aux && a.shares b
  && meets (m.firstLine a) a.lines (m.firstLine b) b.lines

/-- Check 6 for the whole image. -/
def Image.tim (m : Image) : Bool :=
  let l := m.ofType 1
  (l.all fun s => m.timFits s) && l.all fun a => l.all fun b => !m.timClash a b

/-- Whether a live-map item lies within its store (R113, R168). -/
def itemFits (x : Nat × Nat × Nat × Nat) : Bool :=
  let stop := x.2.2.1 + x.2.2.2
  match x.1 with
  | 0 => decide (stop ≤ 4096)
  | 1 => decide (stop ≤ 0xF8000)
  | 2 => decide (stop ≤ 0x40000)
  | 3 => decide (x.2.1 ≤ 3)
  | n => decide (n ≤ 6)

/-- Check 7: ranges within their stores. -/
def Image.ranges (m : Image) : Bool :=
  m.secs.all fun s =>
    match s.ty with
    | 2 => decide (m.at s 0 4 + (s.len - 4) ≤ 0xF8000)
    | 3 => s.len == 2304
    | 4 => decide (m.at s 0 4 + (s.len - 4) ≤ 0x40000)
    | 8 => (m.liveMaps s).all fun x => x.2.all itemFits
    | 10 => (s.entries 16).all fun o => m.at s o 4 % 8 == 0 && decide (m.at s o 4 + 8 ≤ 0xF8000)
    | _ => true

/-- Check 8: CSR entries (R464). -/
def Image.csrs (m : Image) : Bool :=
  (m.ofType 5).all fun s => (s.entries 10).all fun o => m.at s o 2 != 0x09B && (csrRefused (m.at s o 2) (m.at s (o + 2) 8)).isNone

/-- The loop table (R112, type 6): kind, start line, end line. -/
def Image.loops (m : Image) : List (Nat × Nat × Nat) :=
  (m.ofType 6).flatMap fun s => (s.entries 8).map fun o => (m.at s (o + 2) 1, m.at s (o + 4) 2, m.at s (o + 6) 2)

/-- The first words in SQ of a major opcode in every section of type 1, with their lines and sections. -/
def Image.sqWords (m : Image) (maj : Nat) : List (Section × Nat × Word) :=
  (m.ofType 1).flatMap fun s => (((m.walked s).getD []).filter fun x => major x.2 == maj).map fun x => (s, x)

/-- Check 9: loop kinds, and LOOPs by their lines (R34, R146). -/
def Image.loopsOk (m : Image) : Bool :=
  let l := m.loops
  (l.all fun x => decide (x.1 ≤ 2))
  && (m.sqWords 0x27).all fun w => l.all fun x =>
    !(x.1 != 0 && x.2.1 == w.2.1 + 1 && x.2.2 == w.2.1 + (fld w.2.2 0 10).toNat)

/-- The pen-lift table on a section's tiles (R112, type 7): section, line, live map, gap. -/
def Image.lifts (m : Image) : List (Section × Nat × Nat × Nat) :=
  (m.ofType 7).flatMap fun s => (s.entries 8).map fun o => (s, m.at s o 2, m.at s (o + 2) 2, m.at s (o + 4) 4)

/-- The tiles of a section. -/
def Section.tiles (s : Section) : List (Nat × Nat) :=
  (List.range (s.fy1 + 1 - s.fy0)).flatMap fun j => (List.range (s.fx1 + 1 - s.fx0)).map fun i => (s.fx0 + i, s.fy0 + j)

/-- Whether a live map is declared on a tile. -/
def Image.declared (m : Image) (x y n : Nat) : Bool :=
  (m.ofType 8).any fun s => s.covers x y && (m.liveMaps s).any fun z => z.1 == n

/-- Check 10: pen-lift lines, gaps and the halt map (R152, R153). -/
def Image.liftsOk (m : Image) : Bool :=
  let l := m.lifts
  (l.all fun x => decide (x.2.2.2 ≤ 2 ^ 22)
    && (x.2.1 != 0xFFFF || x.2.2.2 != 0 || x.1.tiles.all fun t => m.declared t.1 t.2 x.2.2.1))
  && (m.sqWords 0x2C).all fun w => w.1.tiles.all fun t =>
    l.any fun x => x.1.covers t.1 t.2 && x.2.1 == w.2.1 && m.declared t.1 t.2 x.2.2.1

/-- Whether entries of the calendar plan name legal slots, the first not above the last (log 117), none twice (R168 check 11). -/
def calendarOk (chans : Nat) (hmask : BitVec 32) (l : List CalEntry) : Bool :=
  match l with
  | [] => true
  | e :: r =>
    decide (e.first ≤ e.last)
    && (if e.ch = 0xFFFF then decide (e.last ≤ 31) && (List.range 32).all fun j =>
          !(decide (e.first ≤ j) && decide (j ≤ e.last)) || hmask.getLsbD j
        else decide (e.ch < chans) && decide (e.last ≤ 511))
    && (r.all fun d => d.ch != e.ch || decide (d.last < e.first) || decide (e.last < d.first))
    && calendarOk chans hmask r

/-- Checks 1 to 12 in order: the number of the first that fails, or 0 (R168). -/
def Image.check (m : Image) (hmask : BitVec 32) (erate ecap hlat : Nat) : Nat :=
  if !m.header then 1
  else if !m.size then 2
  else if !m.directory then 3
  else if !m.inside then 4
  else if !m.disjoint m.secs then 5
  else if !m.tim then 6
  else if !m.ranges then 7
  else if !m.csrs then 8
  else if !m.loopsOk then 9
  else if !m.liftsOk then 10
  else if !calendarOk m.chans hmask m.calendar then 11
  else if erate = 0 ∨ ecap < 256 ∨ 2 ^ 24 ≤ ecap ∨ hlat < 1024 then 12
  else 0

end Sys2Proof.Machine
end

