-- ==== Sys2Proof/Machine/Launch.lean ====
section
/-! DEFINITION. How a folio comes into being (R160-R176, R411-R415, R420, R427, R512): records of the launch queues, the
arbiter, the placement search, loading, pre-empt and resume records, and the release of tiles. -/

namespace Sys2Proof.Machine

/-- Lines from a physical address on as a little-endian value: none when one of them cannot be read. -/
def State.readLines (s : State) (pa n : Nat) : Option Nat × State :=
  match n with
  | 0 => (some 0, s)
  | n + 1 =>
    let r := s.readLine pa
    if r.2.1 then (none, r.2.2)
    else
      match State.readLines r.2.2 (pa + 64) n with
      | (some v, s) => (some (r.1 + v * 2 ^ 512), s)
      | x => x

/-- Bytes within a page, as the Folio Manager reads them for a function (R434, R446). -/
def State.readPage (s : State) (f : Nat) (g : Page) (off n : Nat) : Option Nat × State :=
  let pa := g.pa + off
  if g.host then (some (s.hostMem.readN (s.hostAddr f pa) n), s)
  else if !s.leased (chanNum pa) f then (none, s)
  else
    match s.readLines (pa / 64 * 64) ((pa % 64 + n + 63) / 64) with
    | (some v, s) => (some (bitsAt v (8 * (pa % 64)) (8 * n)), s)
    | x => x

/-- Bytes at a virtual address of a function, as a little-endian value: none when a page or a line cannot be read. fuel bounds
the pages. -/
def State.readVirt (s : State) (f va n fuel : Nat) : Option Nat × State :=
  match fuel with
  | 0 => (if n = 0 then some 0 else none, s)
  | fuel + 1 =>
    if n = 0 then (some 0, s)
    else
      match s.walk f va with
      | (.mapped g _, s) =>
        let z := pageBytes g.size
        let m := min n (z - va % z)
        match s.readPage f g (va % z) m with
        | (none, s) => (none, s)
        | (some v, s) =>
          match State.readVirt s f (va + m) (n - m) fuel with
          | (some w, s) => (some (v + w * 2 ^ (8 * m)), s)
          | x => x
      | (_, s) => (none, s)

/-- Record n of a queue, 64 bytes (R160). -/
def State.record (s : State) (q n : Nat) : Nat :=
  let x := s.queue q
  s.hostMem.readN (x.base.toNat / 64 * 64 + n % 2 ^ x.log * 64) 64

/-- Fields of a launch record (R162). -/
def recType (v : Nat) : Nat := field v 0 1
def recDepq (v : Nat) : Nat := field v 2 2
def recJob (v : Nat) : BitVec 32 := BitVec.ofNat 32 (field v 20 4)
def recDomain (v : Nat) : Nat := field v 24 2
def recPhase (v : Nat) : BitVec 32 := BitVec.ofNat 32 (field v 26 4)
def recMembers (v : Nat) : Nat := field v 30 2

/-- What R162 makes of a launch record of a queue. -/
def launchOf (q n v : Nat) : Launch :=
  { queue := q, recNo := n, irq := v.testBit 9, job := recJob v, image := BitVec.ofNat 64 (field v 8 8), length := field v 16 4
    domain := recDomain v, phase := recPhase v, members := recMembers v, hmask := BitVec.ofNat 32 (field v 32 4)
    lpkg := BitVec.ofNat 16 (field v 36 2), save := BitVec.ofNat 64 (field v 48 8), timeout := field v 56 4 }

/-- Whether a record depends on its own queue or on one that is disabled (R164); a number that names no queue counts as a disabled one
(log 106). -/
def State.badDep (s : State) (q v : Nat) : Bool :=
  let d := recDepq v
  d != 0xFFFF && (d == q || decide (16384 ≤ d) || !(s.queue d).en || !(s.queue d).sized)

/-- Whether a record is malformed (R162, R164, R169): it completes with status 6. -/
def State.malformed (s : State) (q v : Nat) : Bool :=
  let d := s.domain (s.queue q).owner (recDomain v)
  s.badDep q v || recType v = 0 || decide (3 < recType v)
  || (recType v == 1 && recDomain v != 0
      && (decide (4096 ≤ recDomain v) || recMembers v == 0 || (d.members.getD (recMembers v)) != recMembers v))

/-- Whether a queue's head record is eligible (R164). -/
def State.eligible (s : State) (q : Nat) : Bool :=
  let x := s.queue q
  if !x.en || !x.sized || decide (x.tail.toNat ≤ x.head.toNat) then false
  else
    let v := s.record q x.head.toNat
    s.badDep q v
    || ((recDepq v == 0xFFFF || decide (field v 4 4 ≤ (s.queue (recDepq v)).done.toNat))
        && (recDomain v == 0 || decide (4096 ≤ recDomain v) || (s.domain x.owner (recDomain v)).phase == recPhase v))

/-- The folios of a function's job that are held in place (R173). -/
def State.heldOf (s : State) (f : Nat) (j : BitVec 32) : List Folio :=
  s.folios.filter fun g => g.place.func == f && g.launch.job == j && g.held

/-- The saves of a function's job that an eviction made (R173). -/
def State.evictedOf (s : State) (f : Nat) (j : BitVec 32) : List Saved :=
  s.saved.filter fun v => v.func == f && v.job == j

/-- Whether a queue's head record needs a placement (R167). -/
def State.needsPlace (s : State) (q : Nat) : Bool :=
  let x := s.queue q
  let v := s.record q x.head.toNat
  recType v == 1 || (recType v == 3 && (!(s.evictedOf x.owner (recJob v)).isEmpty || (s.heldOf x.owner (recJob v)).isEmpty))

/-- Whether a job's checkpoint is in state 1 (R484). -/
def State.ckHolds (s : State) (f : Nat) (j : BitVec 32) : Bool :=
  (s.func f).ckstate == 1 && ((s.func f).ckpt.map fun (k : Ckpt) => k.job == j).getD false

/-- A checkpoint's stop pends on every running folio of a job (R484). -/
def State.ckPend (s : State) (f : Nat) (j : BitVec 32) : State :=
  let stop (h : Folio) : Bool := h.place.func == f && h.launch.job == j && !h.trapped && !h.held
  { s with folios := s.folios.map fun h => if stop h then { h with ckStop := true } else h }

/-- Whether a checkpoint holds back a queue's head record (R484), or a migration of its function's pages, which no folio may reach
while they move (R329, log 104). -/
def State.heldBack (s : State) (q : Nat) : Bool :=
  let x := s.queue q
  let v := s.record q x.head.toNat
  (recType v == 1 && s.ckHolds x.owner (recJob v))
  || ((recType v == 1 || recType v == 3) && s.mig.state == 1 && s.mig.func == x.owner)

/-- Whether the arbiter may grant a queue's head now (R164, R167, R484). -/
def State.mayGrant (s : State) (q : Nat) : Bool :=
  s.eligible q && !s.arb.failed.contains q && !s.heldBack q
  && (match s.arb.wait7 with
    | some w => q == w || !s.needsPlace q || s.malformed q (s.record q (s.queue q).head.toNat)
    | none => true)

/-- The effective level of a queue (R165). -/
def State.level (s : State) (q : Nat) : Nat :=
  let x := s.queue q
  min 7 (x.level + (s.wall - x.since.getD s.wall) / 1800 / s.dev.agei)

/-- A queue's record of the wall time since which its head is eligible (R165). -/
def State.headSince (s : State) (x : LaunchQueue) : LaunchQueue :=
  { x with since := if s.eligible x.q then some (x.since.getD s.wall) else none }

/-- The wall time since which heads are eligible (R165), and the end of a wait whose queue has been disabled (R167). -/
def State.watchHeads (s : State) : State :=
  let s := { s with queues := s.queues.map fun x => s.headSince x }
  match s.arb.wait7 with
  | some q => if (s.queue q).en && (s.queue q).sized then s else { s with arb := { s.arb with wait7 := none } }
  | none => s

/-- The queue that the arbiter grants (R166). -/
def State.pick (s : State) : Option Nat :=
  let l := (s.queues.map fun x => x.q).filter fun q => s.mayGrant q
  let top := l.foldl (fun m q => max m (s.level q)) 0
  let l := l.filter fun q => s.level q == top
  let p := vget s.arb.ptr top
  let low (l : List Nat) : Option Nat := l.foldl (fun m q => match m with
    | some x => some (min x q)
    | none => some q) none
  (low (l.filter fun q => decide (p < q))).or (low l)

/-- The arbiter's count of grants after a grant at a level (R166). -/
def State.granted (s : State) (q l : Nat) : State :=
  let run := ((s.arb.run.find? fun x => x.1 == l && x.2.1 == q).map fun x => x.2.2).getD 0 + 1
  let rest := s.arb.run.filter fun x => !(x.1 == l && x.2.1 == q)
  if run = (s.queue q).weight + 1 ∨ !s.mayGrant q then { s with arb := { s.arb with ptr := vset s.arb.ptr l q, run := rest } }
  else { s with arb := { s.arb with run := rest ++ [(l, q, run)] } }

/-- A queue's head is consumed (R160, R165). -/
def State.take (s : State) (q : Nat) : State :=
  let s := s.onQueue q fun x => { x with head := x.head + 1, since := none }
  if s.arb.wait7 == some q then { s with arb := { s.arb with wait7 := none } } else s

/-- The completion of a record at once (R163). -/
def State.answer (s : State) (q n v status detail cycle dom : Nat) : State :=
  s.complete q n (s.queue q).owner ⟨status, detail, recJob v, recPhase v, cycle, v.testBit 9, dom, (s.queue q).epoch⟩

/-- The physical tile of an abstract one (R411). -/
def Place.phys (p : Place) (fx fy : Nat) : Nat × Nat :=
  match p.orient with
  | 0 => (p.px0 + fx, p.py0 + fy)
  | 1 => (p.px0 + (p.h - 1 - fy), p.py0 + fx)
  | 2 => (p.px0 + (p.w - 1 - fx), p.py0 + (p.h - 1 - fy))
  | _ => (p.px0 + fy, p.py0 + (p.w - 1 - fx))

/-- The abstract tile at a physical one (R411). -/
def Place.abs (p : Place) (px py : Nat) : Nat × Nat :=
  match p.orient with
  | 0 => (px - p.px0, py - p.py0)
  | 1 => (py - p.py0, p.px0 + (p.h - 1) - px)
  | 2 => (p.px0 + (p.w - 1) - px, p.py0 + (p.h - 1) - py)
  | _ => (p.py0 + (p.w - 1) - py, px - p.px0)

/-- A footprint: origin, columns, rows (R411). -/
abbrev Rect := Nat × Nat × Nat × Nat

/-- The footprint of a placement. -/
def Place.rect (p : Place) : Rect := if p.orient % 2 = 0 then (p.px0, p.py0, p.w, p.h) else (p.px0, p.py0, p.h, p.w)

/-- Whether a footprint holds a physical tile. -/
def Rect.has (r : Rect) (t : Nat × Nat) : Bool :=
  decide (r.1 ≤ t.1) && decide (t.1 < r.1 + r.2.2.1) && decide (r.2.1 ≤ t.2) && decide (t.2 < r.2.1 + r.2.2.2)

/-- Whether two footprints share a tile. -/
def Rect.meets (a b : Rect) : Bool := Machine.meets a.1 a.2.2.1 b.1 b.2.2.1 && Machine.meets a.2.1 a.2.2.2 b.2.1 b.2.2.2

/-- Whether a footprint lies wholly on one die (R13). -/
def Rect.oneDie (r : Rect) : Bool := decide (r.1 + r.2.2.1 ≤ 36) || decide (36 ≤ r.1)

/-- Whether a placement fits among held footprints and unusable tiles (R412). -/
def fits (w h seam o px0 py0 : Nat) (held : List Rect) (bad : List (Nat × Nat)) : Bool :=
  let r : Rect := if o % 2 = 0 then (px0, py0, w, h) else (px0, py0, h, w)
  decide (r.1 + r.2.2.1 ≤ 72) && decide (r.2.1 + r.2.2.2 ≤ 32)
  && (r.oneDie || (o % 2 == 0 && seam != 0 && (if o = 0 then px0 + seam == 36 else px0 + w == 36 + seam)))
  && (held.all fun x => !r.meets x) && bad.all fun t => !r.has t

/-- The search of R413: the first placement that fits, as orientation and origin. -/
def search (w h seam : Nat) (held : List Rect) (bad : List (Nat × Nat)) : Option (Nat × Nat × Nat) :=
  [0, 2, 1, 3].findSome? fun o =>
    if o % 2 = 1 ∧ 32 < w then none
    else
      let cw := if o % 2 = 0 then w else h
      let ch := if o % 2 = 0 then h else w
      (List.range (33 - ch)).findSome? fun py0 => (List.range (73 - cw)).findSome? fun px0 =>
        if fits w h seam o px0 py0 held bad then some (o, px0, py0) else none

/-- Tiles that no folio may hold (R15, R429). -/
def State.unusable (s : State) : List (Nat × Nat) := s.dev.defects ++ s.dev.retired

/-- Footprints that folios hold or that are being cleared (R412, R413). -/
def State.footprints (s : State) : List Rect := (s.folios.map fun f => f.place.rect) ++ s.releasing.map fun p => p.place.rect

/-- The channel leased to a function's job with an index, when it is exactly one (R415, R420). -/
def State.leaseOf (s : State) (f : Nat) (j : BitVec 32) (a : Nat) : Option Nat :=
  match (List.range 256).filter fun ch =>
    let c := vget s.dram.chans ch
    c.v && c.func == f && c.job == j && c.index == a with
  | [ch] => some ch
  | _ => none

/-- The binding of a folio's abstract channels, as abstract and physical number (R420); none when check 13 fails (R415). -/
def State.binding (s : State) (f : Nat) (j : BitVec 32) (n : Nat) : Option (List (Nat × Nat)) :=
  (List.range n).mapM fun a => (s.leaseOf f j a).map fun ch => (a, ch)

/-- Whether a channel is held by a folio, or by one that is being cleared (R419, R420). -/
def State.chanHeld (s : State) (ch : Nat) : Bool :=
  (s.folios.any fun f => f.place.chans.any fun x => x.2 == ch) || s.releasing.any fun p => p.place.chans.any fun x => x.2 == ch

/-- A folio's ERATE (R512). -/
def Folio.erate (f : Folio) : Nat := (f.tiles.head?.map fun t => t.csr.erate).getD 0

/-- What a folio needs of a placement: size, seam, ERATE and channels. -/
structure Shape where
  w : Nat
  h : Nat
  seam : Nat
  erate : Nat
  chans : List (Nat × Nat)

/-- The smallest placement index not in use (R427). -/
def freeIdx (used : List Nat) : Nat := ((List.range (used.length + 1)).find? fun i => !used.contains i).getD 0

/-- Places for some folios one after another (R413, R427). -/
def placeAll (f : Nat) (l : List Shape) (held : List Rect) (used : List Nat) (bad : List (Nat × Nat)) : Option (List Place) :=
  match l with
  | [] => some []
  | x :: r =>
    (search x.w x.h x.seam held bad).bind fun o =>
      let p : Place := { idx := freeIdx used, w := x.w, h := x.h, seam := x.seam, orient := o.1, px0 := o.2.1, py0 := o.2.2
                         func := f, chans := x.chans }
      (placeAll f r (p.rect :: held) (p.idx :: used) bad).map fun l => p :: l

/-- Whether some folios fit, and where (R415, R512): a channel serves one folio (R420). -/
def State.fit (s : State) (f : Nat) (l : List Shape) : Option (List Place) :=
  if s.dev.ebud.toNat < (s.folios.map Folio.erate).sum + (l.map fun x => x.erate).sum then none
  else if l.any (fun x => x.chans.any fun c => s.chanHeld c.2) || !((l.flatMap fun x => x.chans).map Prod.snd).Nodup then none
  else placeAll f l s.footprints ((s.folios.map fun g => g.place.idx) ++ s.releasing.map fun p => p.place.idx) s.unusable

/-- A record for which nothing fits stays at its queue's head (R167). -/
def State.waits (s : State) (q l : Nat) (launch : Bool) : State :=
  { s with arb := { s.arb with
      failed := q :: s.arb.failed
      wait7 := if launch && l == 7 then some q else s.arb.wait7 } }

/-- A tile with bytes put at a window offset. -/
def Tile.put (t : Tile) (off n v : Nat) : Tile := { t with stores := { t.stores with mem := t.stores.mem.writeN off n v } }

/-- The tags of 256 tag bytes (R112). -/
def packTags (v n : Nat) : Nat :=
  match n with
  | 0 => 0
  | n + 1 => v % 32 + 32 * packTags (v / 256) n

/-- A section of an image is loaded into a tile (R112-R114). -/
def Image.load (m : Image) (t : Tile) (s : Section) : Tile :=
  match s.ty with
  | 1 =>
    let f := m.firstLine s
    let code (t : Tile) : Tile := t.put (0x180000 + 32 * f) (32 * s.lines) (m.at s s.preamble (32 * s.lines))
    if s.aux = 0xFFFF then code t
    else
      let v := (if m.atLaunch s then 2 ^ 63 else 0) + s.lines * 2 ^ 16 + m.at s 2 2
      let t := { t with csr := { t.csr with ovt := vset t.csr.ovt s.aux (BitVec.ofNat 64 v) } }
      if m.atLaunch s then code t else t
  | 2 => t.put (m.at s 0 4) (s.len - 4) (m.at s 4 (s.len - 4))
  | 3 => { t with slices := { t.slices with sf := BitVec.ofNat 16384 (m.at s 0 2048), tags := BitVec.ofNat 1280 (packTags (m.at s 2048 256) 256) } }
  | 4 => t.put (0x100000 + m.at s 0 4) (s.len - 4) (m.at s 4 (s.len - 4))
  | 5 => (s.entries 10).foldl (fun t o => t.setCsr (m.at s o 2) (csrKeep (m.at s o 2) (m.at s (o + 2) 8))) t
  | 7 =>
    let l := (s.entries 8).map fun o => (m.at s o 2, m.at s (o + 2) 2, m.at s (o + 4) 4)
    { t with tables := { t.tables with
        penlifts := t.tables.penlifts ++ l.filter fun x => x.1 != 0xFFFF
        haltMap := ((l.find? fun x => x.1 == 0xFFFF && x.2.2 == 0).map fun x => x.2.1).or t.tables.haltMap } }
  | 8 => { t with tables := { t.tables with livemaps := t.tables.livemaps ++ m.liveMaps s } }
  | 10 => (s.entries 16).foldl (fun t o => t.put (m.at s o 4) 8 (m.at s (o + 8) 8)) t
  | 11 => { t with tables := { t.tables with trailers := t.tables.trailers ++ [(s.aux, m.at s 0 1 % 64)] } }
  | _ => t

/-- What a privileged write left in an idle tile (R25). -/
def State.idleMem (s : State) (t : Nat × Nat) : Memory := ((s.idle.find? fun x => x.1 == t.2 * 72 + t.1).map Prod.snd).getD []

/-- A tile at cycle 0 (R22, R102, R112, R133, R158): what an idle tile held, then the image's sections in ascending type. -/
def Image.tile (m : Image) (l : Launch) (erate ecap hlat : Nat) (idle : Memory) (fx fy : Nat) : Tile :=
  let t := Tile.cleared
  let t := { t with
    stores := { t.stores with mem := idle.filter fun c => (windowStore c.1).isSome && !(decide (0x150000 ≤ c.1) && decide (c.1 < 0x180000)) }
    slices := { t.slices with sf := BitVec.ofNat 16384 (idle.readN 0x150000 2048), tags := BitVec.ofNat 1280 (packTags (idle.readN 0x151000 256) 256) }
    csr := { t.csr with ebal := ecap, erate := erate, ecap := ecap, hlat := hlat, ovbase := l.image } }
  (List.range 12).foldl (fun t ty => ((m.ofType ty).filter fun s => s.covers fx fy).foldl m.load t) t

/-- A folio takes its place (R420, R427, R450): its job's layout generation rises. -/
def State.enter (s : State) (f : Folio) : State :=
  let p := f.place
  let s := { s with
    folios := s.folios ++ [f]
    idle := s.idle.filter fun x => !p.rect.has (x.1 % 72, x.1 / 72) }
  s.newLayout p.func f.launch.job

/-- A job is known from its first granted record on (R450, R452): the digest is that of its first image that could be read. -/
def State.knowJob (s : State) (f : Nat) (j : BitVec 32) (v : Option Nat) (n : Nat) : State :=
  let img := match v with
    | some x => toBytes 64 (shake256 x n)
    | none => []
  if s.trust.jobs.any fun x => x.func == f && x.job == j then
    s.onJob f j fun x => if x.image.isEmpty then { x with image := img } else x
  else { s with trust := { s.trust with jobs := s.trust.jobs ++ [⟨f, j, 0, img⟩] } }

/-- The phase of a granted launch record knows its member count (R169). -/
def State.countMembers (s : State) (f v : Nat) : State :=
  if recDomain v = 0 then s
  else
    let d := s.domain f (recDomain v)
    s.setDomain { d with members := some (d.members.getD (recMembers v)) }

/-- Checks 13 and 14, and then the placement, of an image that has passed the others (R413-R415). -/
def State.launch (s : State) (q n v l : Nat) (m : Image) : State :=
  let x := { launchOf q n v with epoch := (s.queue q).epoch }
  let f := (s.queue q).owner
  match s.binding f x.job m.chans with
  | none => (s.take q).answer q n v 1 13 0 x.domain
  | some b =>
    if (search m.w m.h m.seam [] s.unusable).isNone then (s.take q).answer q n v 1 14 0 x.domain
    else
      match s.fit f [⟨m.w, m.h, m.seam, field v 38 2, b⟩] with
      | some [p] =>
        let tiles := (List.range (m.w * m.h)).map fun i =>
          m.tile x (field v 38 2) (field v 40 4) (field v 44 2) (s.idleMem (p.phys (i % m.w) (i / m.w))) (i % m.w) (i / m.w)
        (s.take q).enter (folioAt p x m.calendar tiles)
      | _ => s.waits q l true

/-- A granted launch record is checked, placed and started, or waits, or is rejected (R166-R169, R411-R415). A malformed
record of any type completes with status 6. An image whose bytes cannot be read fails check 1 (log 107). -/
def execLaunchRecord (s : State) : Host.Outcome State Fault Refusal :=
  match s.arb.granted with
  | none => .next s
  | some q =>
    let l := s.level q
    let n := (s.queue q).head.toNat
    let v := s.record q n
    let f := (s.queue q).owner
    if !s.eligible q then .next s
    else if s.malformed q v then .next (((s.take q).answer q n v 6 0 0 0).granted q l)
    else if recType v ≠ 1 then .next s
    else
      let s := s.countMembers f v
      let len := field v 16 4
      let r := s.readVirt f (field v 8 8) len (len / 65536 + 2)
      let s := r.2.knowJob f (recJob v) r.1 len
      let check := match r.1 with
        | none => 1
        | some b => (Image.ofBytes b len).check (BitVec.ofNat 32 (field v 32 4)) (field v 38 2) (field v 40 4) (field v 44 2)
      if check ≠ 0 then .next (((s.take q).answer q n v 1 check 0 (recDomain v)).granted q l)
      else .next ((s.launch q n v l (Image.ofBytes (r.1.getD 0) len)).granted q l)

/-- A granted pre-empt record (R171, R471): a stop pends on every running folio of its job, and a folio that its trap holds
ends; the record then gives 0 for the cycle (log 40). -/
def execPreemptRecord (s : State) : Host.Outcome State Fault Refusal :=
  match s.arb.granted with
  | none => .next s
  | some q =>
    let l := s.level q
    let n := (s.queue q).head.toNat
    let v := s.record q n
    if !s.eligible q || s.malformed q v || recType v != 2 then .next s
    else
      let f := (s.queue q).owner
      let mine (g : Folio) : Bool := g.place.func == f && g.launch.job == recJob v
      let ends := s.folios.filter fun g => mine g && g.trapped
      let s := ends.foldl State.endTrapped ((s.take q).knowJob f (recJob v) none 0)
      let runs (g : Folio) : Bool := mine g && !g.held && !g.trapped
      if s.folios.any runs then
        let stop : Stop := { evict := v.testBit 8, queue := q, recNo := n, irq := v.testBit 9, phase := recPhase v, epoch := (s.queue q).epoch, acted := !ends.isEmpty }
        .next ({ s with folios := s.folios.map fun g => if runs g then { g with stops := g.stops ++ [stop] } else g }.granted q l)
      else .next ((s.answer q n v (if ends.isEmpty then 7 else 4) 0 0 0).granted q l)

/-- A window slot refilled from the page tables (R175): none when its page is absent. -/
def State.rewalk (s : State) (p : Place) (w : Window) : Option Window × State :=
  if !w.v then (some w, s)
  else
    match s.walk p.func (w.vpn * 2 ^ 16) with
    | (.mapped g _, s) =>
      if p.bound g then
        (some { w with w := g.w, size := g.size, host := g.host, pa := g.pa, vpn := w.vpn * 2 ^ 16 / pageBytes g.size * pageBytes g.size / 2 ^ 16 }, s)
      else (none, s)
    | (_, s) => (none, s)

/-- The window table of a tile refilled. -/
def State.rewalkAll (s : State) (p : Place) (l : List Window) : Option (List Window) × State :=
  match l with
  | [] => (some [], s)
  | w :: r =>
    match s.rewalk p w with
    | (none, s) => (none, s)
    | (some w, s) =>
      match State.rewalkAll s p r with
      | (some r, s) => (some (w :: r), s)
      | x => x

/-- The tiles of a saved folio with their windows refilled. -/
def State.rewalkTiles (s : State) (p : Place) (l : List Tile) : Option (List Tile) × State :=
  match l with
  | [] => (some [], s)
  | t :: r =>
    match s.rewalkAll p t.wins.toList with
    | (none, s) => (none, s)
    | (some w, s) =>
      match State.rewalkTiles s p r with
      | (some r, s) => (some ({ t with wins := Vector.ofFn fun i => w.getD i.val default } :: r), s)
      | x => x

/-- Saved folios with their places and refilled windows (R175). -/
def State.revive (s : State) (l : List (Folio × Place)) : Option (List Folio) × State :=
  match l with
  | [] => (some [], s)
  | x :: r =>
    match s.rewalkTiles x.2 x.1.tiles with
    | (none, s) => (none, s)
    | (some t, s) =>
      match State.revive s r with
      | (some r, s) => (some ({ x.1 with place := x.2, tiles := t } :: r), s)
      | y => y

/-- The shape of a saved or held folio, with its channels as the leases stand now (R420): none when check 13 fails (R415). -/
def State.shapeOf (s : State) (f : Nat) (g : Folio) : Option Shape :=
  (s.binding f g.launch.job g.place.chans.length).map fun b =>
    { w := g.place.w, h := g.place.h, seam := g.place.seam, erate := g.erate, chans := b }

/-- Saved folios are placed again together (R175, R415): the folios to enter, or the status and detail with which the record
ends, or nothing when it waits. With nothing to place nothing has to fit. -/
def State.replace (s : State) (f : Nat) (l : List Folio) : Except (Nat × Nat) (Option (List Folio)) × State :=
  if l.isEmpty then (.ok (some []), s)
  else
    match l.mapM fun g => s.shapeOf f g with
    | none => (.error (1, 13), s)
    | some sh =>
      match s.fit f sh with
      | none => (.ok none, s)
      | some ps =>
        match s.revive (l.zip ps) with
        | (none, s) => (.error (2, 44), s)
        | (some gs, s) => (.ok (some gs), s)

/-- A folio held in place goes on (R173, R175); its queue's placement index names it (R160). -/
def State.thawHeld (s : State) (g : Folio) : State :=
  { s with folios := (s.folios.filter fun x => x.place.idx != g.place.idx)
      ++ [{ g with held := false, freeze := { g.freeze with preempt := false } }] }

/-- The latest cycle count of some folios. -/
def lastCycle (l : List Folio) : Nat := l.foldl (fun m g => max m g.cycle) 0

/-- A save region as it stands in memory (R174): absent where no header can be read with its magic number, unsound where its records
cannot be read, do not spell a folio, or differ from their digest. -/
inductive Region where
  | absent
  | unsound
  | sound (f : Folio)

/-- The folio of a region's header and records (R174). -/
def folioOfRegion (h : Nat) (l : List Byte) : Region :=
  match codecFolioRec.get l with
  | none => .unsound
  | some r =>
    let p : Place := { idx := 0, w := field h 24 1, h := field h 25 1, seam := field h 26 1, orient := 0, px0 := 0, py0 := 0, func := 0
                       chans := (List.range (field h 28 2)).map fun a => (a, field h (64 + 2 * (a % 256)) 2) }
    .sound (r.1.folio p (field h 16 8))

/-- The save region at a virtual address of a function, read from memory (R175, R487): check says that the digest counts. -/
def State.readSave (s : State) (f va : Nat) (check : Bool) : Region × State :=
  match s.readVirt f va 4096 2 with
  | (none, s) => (.absent, s)
  | (some h, s) =>
    if field h 0 8 ≠ saveMagic then (.absent, s)
    else
      let n := field h 32 8
      match s.readVirt f (va + 4096) n (n / 65536 + 2) with
      | (none, s) => (.unsound, s)
      | (some v, s) =>
        if check ∧ shake256 v n ≠ field h 4032 64 then (.unsound, s) else (folioOfRegion h (toBytes n v), s)

/-- The folios of some save regions: none where one of them cannot be restored. -/
def State.readSaves (s : State) (l : List Saved) : Option (List Folio) × State :=
  match l with
  | [] => (some [], s)
  | x :: r =>
    match s.readSave x.func x.save.toNat false with
    | (.sound g, s) =>
      match State.readSaves s r with
      | (some l, s) => (some (g :: l), s)
      | y => y
    | (_, s) => (none, s)

/-- What a resume record brings back (R175, R487): the folios of its job that were evicted, or else the save region it names, as a
folio of the record; which save address counts is log 118. none: a region cannot be restored. -/
def State.toRevive (s : State) (f q n v : Nat) : Option (List Folio) × State :=
  let ev := s.evictedOf f (recJob v)
  if !ev.isEmpty then s.readSaves ev
  else if !(s.heldOf f (recJob v)).isEmpty then (some [], s)
  else
    match s.readSave f (field v 48 8) true with
    | (.absent, s) => (some [], s)
    | (.unsound, s) => (none, s)
    | (.sound g, s) =>
      (some [{ g with launch := { g.launch with
        queue := q, recNo := n, irq := v.testBit 9, job := recJob v, domain := 0, save := BitVec.ofNat 64 (field v 48 8)
        epoch := (s.queue q).epoch } }], s)

/-- A granted resume record (R175, R415, R487); its cycle field is log 40. While the job's checkpoint awaits its points, a
folio that goes on takes the checkpoint's stop with it (R484). -/
def execResumeRecord (s : State) : Host.Outcome State Fault Refusal :=
  match s.arb.granted with
  | none => .next s
  | some q =>
    let l := s.level q
    let n := (s.queue q).head.toNat
    let v := s.record q n
    if !s.eligible q || s.malformed q v || recType v != 3 then .next s
    else
      let f := (s.queue q).owner
      let s := s.knowJob f (recJob v) none 0
      let held := s.heldOf f (recJob v)
      let fin (s : State) (status detail cycle : Nat) : Host.Outcome State Fault Refusal :=
        .next (((s.take q).answer q n v status detail cycle 0).granted q l)
      match s.toRevive f q n v with
      | (none, s) => fin s 2 86 0
      | (some back, s) =>
        if held.isEmpty && back.isEmpty then fin s 7 0 0
        else if held.any fun g => (s.shapeOf f g).isNone then fin s 1 13 0
        else
          match s.replace f back with
          | (.error e, s) => fin s e.1 e.2 (if e.1 = 2 then lastCycle back else 0)
          | (.ok none, s) => .next ((s.waits q l false).granted q l)
          | (.ok (some gs), s) =>
            let s := held.foldl State.thawHeld s
            let s := { s with saved := s.saved.filter fun x => !(x.func == f && x.job == recJob v) }
            let s := gs.foldl State.enter s
            fin (if s.ckHolds f (recJob v) then s.ckPend f (recJob v) else s) 5 0 (lastCycle (held ++ gs))

/-- A release writes the completion records that awaited it (R170, R173, R471). -/
def State.released (s : State) (r : Release) : State :=
  let s := s.newLayout r.place.func r.job
  let s := match r.done with
    | some d => s.complete d.1 d.2.1 r.place.func d.2.2
    | none => s
  s.stopOver r.place r.job r.cycle r.stops

/-- The tiles of the cleared footprints are released (R176, R414, R450), records that waited are tried again (R167), and the host-slot
engine goes on without the reads of their folios (R425). -/
def State.release (s : State) : State :=
  (s.releasing.foldl State.released { s with releasing := [], arb := { s.arb with failed := [] } }).serveReads

/-- Tiles whose clearing has finished are released (R413, R414). -/
def execTileRelease (s : State) : Host.Outcome State Fault Refusal := .next s.release

/-- The row that acts on a queue's granted record (R162). -/
def State.recordRow (s : State) (q : Nat) : Instr :=
  let v := s.record q (s.queue q).head.toNat
  if s.malformed q v then .launchRecord
  else
    match recType v with
    | 2 => .preemptRecord
    | 3 => .resumeRecord
    | _ => .launchRecord

/-- The decision point's grant (R414, R166): the record's row comes next. -/
def State.grantNext (s : State) : State :=
  let s := s.watchHeads
  match s.pick with
  | none => { s with arb := { s.arb with granted := none } }
  | some q =>
    let s := { s with arb := { s.arb with granted := some q } }
    { s with agenda := .act s.cursor (s.recordRow q) :: s.agenda }

end Sys2Proof.Machine
end

