-- ==== Sys2Proof/Machine/Lease.lean ====
section
/-! DEFINITION. What the physical function grants and takes back (R161, R419-R429, R508): queues, channel leases with their
clearing, tiles, channels and links in service; and the reset of a function (R426, R453). -/

namespace Sys2Proof.Machine

/-- Whether launch queues, leases and grants may be written: the device is ready (R513). -/
def State.ready (s : State) : Bool := s.dev.devstate == 5

/-- A write of LQTAIL (R160). -/
def execLqtailWrite (q : Nat) (tail : BitVec 32) (s : State) : Host.Outcome State Fault Refusal :=
  .next (if !s.ready || decide (16384 ≤ q) then s else s.onQueue q fun x => { x with tail := tail })

/-- A write of LQOWN (R161): ignored while the queue is enabled; a new owner finds zeros. -/
def execLqownWrite (q : Nat) (func : BitVec 6) (s : State) : Host.Outcome State Fault Refusal :=
  let x := s.queue q
  .next (if !s.ready || decide (16384 ≤ q) || x.en || x.owner == func.toNat then s else s.onQueue q fun x => x.anew func.toNat)

/-- Whether a checkpoint is copying from a channel (R484). -/
def State.copyingFrom (s : State) (ch : Nat) : Bool :=
  s.funcs.toList.any fun r => r.ckstate == 2 && (r.ckpt.map fun (k : Ckpt) => k.segs.any fun g => chanNum g.src == ch).getD false

/-- A lease entry's busy bit (R419, R420, R484). -/
def State.chanBusy (s : State) (ch : Nat) : Bool := s.chanHeld ch || s.copyingFrom ch

/-- Every line of a channel is pending-clear from now on (R421). -/
def Chan.clearing (c : Chan) : Chan :=
  { c with clr := true, clearFrom := 0, cleared := [], poison := [], bad := [], soft := [], tags := [], rot := 0 }

/-- A channel's lease takes new fields (R419, R421, R450). -/
def State.setLease (s : State) (ch : Nat) (v : Bool) (func index : Nat) (job : BitVec 32) : State :=
  let c := vget s.dram.chans ch
  let sweep := (c.v && !v) || c.func != func || c.job != job
  let s := s.onChan ch fun c =>
    let c := { c with v := v, func := func, index := index, job := job }
    if sweep then c.clearing else c
  let changed := c.v != v || c.func != func || c.index != index || c.job != job
  let s := if changed && c.v then s.newLayout c.func c.job else s
  if changed && v && !(c.v && c.func == func && c.job == job) then s.newLayout func job else s

/-- A write of a lease entry (R419): ignored while busy, and where it would lease a retired channel. -/
def execLeaseWrite (ch : Nat) (value : BitVec 64) (s : State) : Host.Outcome State Fault Refusal :=
  if 256 ≤ ch ∨ !s.ready then .next s
  else if s.chanBusy ch || (value.getLsbD 63 && (vget s.dram.chans ch).ret) then .next s
  else
    let s := s.setLease ch (value.getLsbD 63) (bitsAt value.toNat 48 6) (bitsAt value.toNat 40 8) (value.extractLsb' 0 32)
    .next { s with arb := { s.arb with failed := [] } }

/-- The sweep passes one line of a channel (R421): zero, encrypted under the channel's current key. -/
def State.sweepLine (s : State) (ch : Nat) : State :=
  let c := vget s.dram.chans ch
  let l := c.clearFrom
  let s := if c.cleared.contains l then s else s.putLine (ch * 2 ^ 31 + 64 * l) 0 false
  s.onChan ch fun d => Chan.settleClr { d with clearFrom := l + 1, cleared := dropMark d.cleared l }

/-- Whether the sweep may go on at a channel: it is being cleared, and its current key slot is loaded (R421, R453). -/
def State.sweeps (s : State) (ch : Nat) : Bool :=
  let c := vget s.dram.chans ch
  c.clr && s.versionLoaded c.func (s.func c.func).writeVersion

/-- The clearing sweep rewrites one line (R421), on the first channel that is being cleared. -/
def execChannelClearSweep (s : State) : Host.Outcome State Fault Refusal :=
  match (List.range 256).find? s.sweeps with
  | some ch => .next (s.sweepLine ch)
  | none => .next s

/-- The service command's target (R428). -/
def Device.svcTile (d : Device) : Nat × Nat := (bitsAt d.svccmd.toNat 8 7, bitsAt d.svccmd.toNat 0 5)
def Device.svcChan (d : Device) : Nat := bitsAt d.svccmd.toNat 0 8
def Device.svcLink (d : Device) : Nat := bitsAt d.svccmd.toNat 0 5

/-- The service command ends in a state (R428). -/
def State.svcEnd (s : State) (n : Nat) : State := { s with dev := { s.dev with svcstat := n } }

/-- Retirement of a tile (R429): a tile that a folio holds is retired once it is released. -/
def execRetireTile (s : State) : Host.Outcome State Fault Refusal :=
  let t := s.dev.svcTile
  if s.dev.svcstat ≠ 1 then .next s
  else if 72 ≤ t.1 then .next (s.svcEnd 3)
  else if s.footprints.any fun r => r.has t then .next s
  else .next ({ s with dev := { s.dev with retired := if s.dev.retired.contains t then s.dev.retired else s.dev.retired ++ [t] } }.svcEnd 2)

/-- Restoring a retired tile (R429): refused for a tile of the defect map. -/
def execRestoreTile (s : State) : Host.Outcome State Fault Refusal :=
  let t := s.dev.svcTile
  if s.dev.svcstat ≠ 1 then .next s
  else if s.dev.defects.contains t then .next (s.svcEnd 3)
  else .next ({ s with dev := { s.dev with retired := s.dev.retired.filter fun x => x != t }, arb := { s.arb with failed := [] } }.svcEnd 2)

/-- Retirement of a channel (R429): refused while it is leased. -/
def execRetireChannel (s : State) : Host.Outcome State Fault Refusal :=
  if s.dev.svcstat ≠ 1 then .next s
  else if (vget s.dram.chans s.dev.svcChan).v then .next (s.svcEnd 3)
  else .next ((s.onChan s.dev.svcChan fun c => { c with ret := true }).svcEnd 2)

/-- Whether a running folio's job holds a link (R429). -/
def State.linkHeld (s : State) (l : Nat) : Bool :=
  let k := vget s.links l
  k.v && s.folios.any fun f => f.place.func == k.func && f.launch.job == k.job && !f.held

/-- Retraining a link to its latency (R429); whether it can be met is a free value (log 7). -/
def execRetrainGiferLink (s : State) : Host.Outcome State Fault Refusal :=
  let l := s.dev.svcLink
  if s.dev.svcstat ≠ 1 then .next s
  else if 18 ≤ l ∨ (vget s.links l).state = 3 then .next (s.svcEnd 3)
  else if s.linkHeld l then .next s
  else
    let ok := Config.retrainOk s.freeCtr
    let s := { s with freeCtr := s.freeCtr + 1 }
    .next ((s.onLink l fun k => { k with state := if ok then 2 else 3 }).svcEnd (if ok then 2 else 4))

/-- Retirement of a link (R429). -/
def execRetireGiferLink (s : State) : Host.Outcome State Fault Refusal :=
  let l := s.dev.svcLink
  if s.dev.svcstat ≠ 1 then .next s
  else if 18 ≤ l then .next (s.svcEnd 3)
  else if s.linkHeld l then .next s
  else .next ((s.onLink l fun k => { k with state := 3 }).svcEnd 2)

/-- The row of the service command (R428). -/
def Device.svcRow (d : Device) : Option Instr :=
  match bitsAt d.svccmd.toNat 60 4 with
  | 1 => some .retireTile
  | 2 => some .restoreTile
  | 3 => some .retireChannel
  | 4 => some .retrainGiferLink
  | 5 => some .retireGiferLink
  | _ => none

/-- A Gifer Link loses its peer or its signal (R508). -/
def execGiferLinkDown (link : Nat) (s : State) : Host.Outcome State Fault Refusal :=
  .next (s.onLink link fun k => { k with state := if k.state = 3 then 3 else 0 })

/-- An empty key slot, and one that holds a key pair. -/
def KeySlot.empty : KeySlot := ⟨false, 0, 0⟩
def KeySlot.of (k : BitVec 512) : KeySlot := ⟨true, k.extractLsb' 0 256, k.extractLsb' 256 256⟩

/-- Key slots of which only slot 0 is loaded. -/
def oneSlot (k : BitVec 512) : Vector KeySlot 4 := vset (Vector.replicate 4 KeySlot.empty) 0 (KeySlot.of k)

/-- Slot 0 of a function is filled with fresh keys, and the others are empty (R453). -/
def State.freshKeys (s : State) (f : Nat) : State :=
  let k := Config.freshKey s.trust.made
  let s := { s with trust := { s.trust with made := s.trust.made + 1 } }
  s.onFunc f fun r => { r with keys := oneSlot k, keycur := 0, keynext := 0, keyarmed := false, keybusy := false }

/-- A folio stops without a completion (R426): a phase counts it as completed (R169). -/
def State.kill (s : State) (f : Folio) : State :=
  (s.clearFolio f none []).memberDone f.place.func f.launch.domain f.launch.phase

/-- The leases of a function fall (R426). -/
def State.dropLeases (s : State) (f : Nat) : State :=
  (List.range 256).foldl (fun s ch =>
    let c := vget s.dram.chans ch
    if c.v && c.func == f then s.setLease ch false c.func c.index c.job else s) s

/-- What the hub holds of a function's world besides its folios: queues and faults (R426). -/
def State.dropWorld (s : State) (f : Nat) : State :=
  { s with
    queues := s.queues.map fun (x : LaunchQueue) => if x.owner == f then x.anew f else x
    faults := s.faults.filter fun x => x.func != f
    arb := { s.arb with granted := none } }

/-- The hub's requests of a function end (R425, R426, log 36). -/
def State.dropRequests (s : State) (f : Nat) : State :=
  let s := if s.mig.state = 1 ∧ s.mig.func = f then s.migAbort else s
  let st := (s.func f).ckstate
  s.onFunc f fun r => { r with ckpt := none, ckgo := none, ckwait := [], ckstate := if st = 1 ∨ st = 2 then 5 else st }

/-- A virtual function is reset (R426, R452, R453): its folios stop, its tiles are released, its queues and leases fall, its
requests in the hub end, and its keys are replaced. -/
def execVfReset (func : Nat) (s : State) : Host.Outcome State Fault Refusal :=
  if func = 0 ∨ 64 ≤ func then .next s
  else
    let mine := s.folios.filter fun f => f.place.func == func
    let s := (mine.foldl State.kill s).release
    .next ((((s.dropWorld func).dropLeases func).dropRequests func).freshKeys func)

end Sys2Proof.Machine
end

