-- ==== Sys2Proof/Machine/Recovery.lean ====
section
/-! DEFINITION. Patrol scrub (R481) with key rotation (R447), error counters (R478, R479), and checkpoints (R482-R486). -/

namespace Sys2Proof.Machine

/-- A host write of KEYCTL arms a rotation (R447). -/
def execKeyRotationArm (func : Nat) (value : BitVec 64) (s : State) : Host.Outcome State Fault Refusal :=
  let n := bitsAt value.toNat 4 2
  let r := s.func func
  if 64 ≤ func ∨ !value.getLsbD 6 ∨ r.keybusy ∨ n = r.keycur ∨ !(vget r.keys n).loaded then .next s
  else
    let s := s.onFunc func fun r => { r with keynext := n, keyarmed := true }
    .next ((List.range 256).foldl (fun s ch => s.onChan ch fun c => if c.v && c.func == func then { c with rot := 1 } else c) s)

/-- Whether every rotation pass of a function has ended (R447). -/
def State.rotationOver (s : State) (f : Nat) : Bool :=
  (s.func f).keyarmed && s.dram.chans.toList.all fun c => !(c.v && c.func == f && (c.rot == 1 || c.rot == 2))

/-- A rotation completes (R447), for each function whose passes have ended: cur becomes next, and the other slots are
erased. -/
def execKeyRotationComplete (s : State) : Host.Outcome State Fault Refusal :=
  .next ((List.range 64).foldl (fun s f =>
    if s.rotationOver f then
      let s := s.onFunc f fun r => { r with
        keycur := r.keynext, keyarmed := false, keybusy := false
        keys := Vector.ofFn fun i => if i.val = r.keynext then r.keys[i] else ⟨false, 0, 0⟩ }
      { s with dram := { s.dram with chans := s.dram.chans.map fun (c : Chan) => if c.v && c.func == f then { c with rot := 0 } else c } }
    else s) s)

/-- A pass of patrol scrub goes on to its next line; the next pass begins when it ends (R447, R481). -/
def State.scrubOn (s : State) (ch : Nat) : State :=
  let c := vget s.dram.chans ch
  if c.scrubAt + 1 < 0x1800000 then s.onChan ch fun c => { c with scrubAt := c.scrubAt + 1 }
  else
    let s := s.onChan ch fun c => { c with scrubAt := 0, rot := if c.rot = 1 then 2 else if c.rot = 2 then 3 else c.rot }
    if c.rot = 1 then s.onFunc c.func fun r => { r with keybusy := true } else s

/-- What a visit does with a line that is not pending-clear (R481). -/
def State.scrubLine (s : State) (ch l : Nat) (corrected : Bool) : State :=
  let c := vget s.dram.chans ch
  let pa := ch * 2 ^ 31 + 64 * l
  if s.lineFails pa then
    let tag := !c.bad.contains l
    let s := (s.onChan ch fun c => c.poisonLine l).countUnc ch
    (if tag then s.logError 1 c.func else s).recordBad pa
  else if c.poison.contains l then s
  else
    let fixed := corrected || c.soft.contains l
    let s := if fixed then s.countCor ch else s
    let v := if c.rot = 2 then (s.func c.func).keynext else c.version l
    if fixed || v != c.version l then (s.copyFirst pa).seal pa v (s.plain pa) false else s

/-- Patrol scrub visits a channel's next line (R481); corrected says that its read corrected an error. -/
def execScrubVisit (ch : Nat) (corrected : Bool) (s : State) : Host.Outcome State Fault Refusal :=
  let c := vget s.dram.chans ch
  if 256 ≤ ch ∨ c.ret then .next s
  else .next ((if c.pendingClear c.scrubAt then s else s.scrubLine ch c.scrubAt corrected).scrubOn ch)

/-- A write of ERRCHn (R478). -/
def execErrchWrite (ch : Nat) (s : State) : Host.Outcome State Fault Refusal := .next (s.onChan ch fun c => { c with unc := 0, cor := 0 })

/-- A write of ERRLNKn (R478). -/
def execErrlnkWrite (link : Nat) (s : State) : Host.Outcome State Fault Refusal := .next (s.onLink link fun k => { k with unc := 0, cor := 0 })

/-- A warning window starts (R478, R479). -/
def execWarningWindowStart (s : State) : Host.Outcome State Fault Refusal :=
  .next { s with
    dram := { s.dram with chans := s.dram.chans.map fun (c : Chan) => { c with winCor := 0, warned := false } }
    links := s.links.map fun (k : Link) => { k with winCor := 0, warned := false } }

/-- The runs of lines that a shard's range covers (R433, R483), page by page: none where a page is unmapped, or does not lie on a
channel of the function (log 37). n counts the pieces. -/
def State.runs (s : State) (f shard src dst len base n : Nat) : Option (List Seg) × State :=
  match n with
  | 0 => (if len = 0 then some [] else none, s)
  | n + 1 =>
    if len = 0 then (some [], s)
    else
      let page (s : State) (va : Nat) : Option Page × State :=
        match s.walk f va with
        | (.mapped g _, s) => (if g.host || !s.leased (chanNum g.pa) f || decide (2 ^ 54 ≤ va) then none else some g, s)
        | (_, s) => (none, s)
      match page s src with
      | (none, s) => (none, s)
      | (some a, s) =>
        match page s dst with
        | (none, s) => (none, s)
        | (some b, s) =>
          let za := pageBytes a.size
          let zb := pageBytes b.size
          let m := min len (min (za - src % za) (zb - dst % zb))
          match State.runs s f shard (src + m) (dst + m) (len - m) (base + m / 64) n with
          | (some r, s) => (some (⟨shard, base, a.pa + src % za, b.pa + dst % zb, m⟩ :: r), s)
          | x => x

/-- The runs of every shard. -/
def State.allRuns (s : State) (f : Nat) (l : List (Nat × Nat × Nat)) (i : Nat) : Option (List Seg) × State :=
  match l with
  | [] => (some [], s)
  | x :: r =>
    match s.runs f i x.1 x.2.2 x.2.1 0 (x.2.1 / 2 ^ 15 + 4) with
    | (none, s) => (none, s)
    | (some a, s) =>
      match State.allRuns s f r (i + 1) with
      | (some b, s) => (some (a ++ b), s)
      | y => y

/-- Whether two of some ranges overlap. -/
def overlapping (l : List (Nat × Nat)) : Bool :=
  match l with
  | [] => false
  | x :: r => (r.any fun y => meets x.1 x.2 y.1 y.2) || overlapping r

/-- The shard list of a function (R483): count, stride, manifest and the shards as source, length and destination; none when
its fields refuse it. -/
def State.shardList (s : State) (f : Nat) : Option (Nat × Nat × List (Nat × Nat × Nat)) :=
  let a := (s.func f).cklist.toNat / 64 * 64
  let h := s.hostMem.readN a 32
  let n := field h 0 4
  if n = 0 ∨ 4096 < n ∨ field h 4 4 ≠ 0 ∨ field h 24 8 ≠ 0 ∨ field h 8 8 % 4096 ≠ 0 ∨ field h 16 8 % 64 ≠ 0 then none
  else
    let e := (List.range n).map fun i => s.hostMem.readN (a + 32 + 32 * i) 32
    let l := e.map fun v => (field v 0 8, field v 8 8, field v 16 8)
    if (e.any fun v => field v 24 8 != 0) || (l.any fun x => x.1 % 64 != 0 || x.2.1 % 64 != 0 || x.2.2 % 64 != 0)
        || overlapping ((l.map fun x => (x.1, x.2.1)) ++ l.map fun x => (x.2.2, x.2.1)) then none
    else some (field h 8 8, field h 16 8, l)

/-- The running and held folios of a function's job (R483). -/
def State.jobFolios (s : State) (f : Nat) (j : BitVec 32) : List Folio := s.folios.filter fun g => g.place.func == f && g.launch.job == j

/-- Those that a checkpoint stops or counts as frozen (R484). -/
def State.ckFolios (s : State) (f : Nat) (j : BitVec 32) : List Folio := (s.jobFolios f j).filter fun g => !g.trapped

/-- The row of a function's checkpoint comes next. -/
def State.ckRow (s : State) (f : Nat) (i : Instr) : State := s.next { s.cursor with func := f } i

/-- A checkpoint starts (R483, R484): refused, or a stop pends on every running folio of the job. -/
def execCkptStart (s : State) : Host.Outcome State Fault Refusal :=
  let f := s.cursor.func
  let r := s.func f
  match r.ckgo.or r.ckwait.head? with
  | none => .next s
  | some j =>
    let s := s.onFunc f fun r => { r with ckgo := none, ckwait := if r.ckgo.isSome then r.ckwait else r.ckwait.tail }
    let refuse (s : State) : State := s.onFunc f fun r => { r with ckstate := 6, ckdone := 0 }
    match s.shardList f with
    | none => .next (refuse s)
    | some l =>
      match s.allRuns f l.2.2 0 with
      | (none, s) => .next (refuse s)
      | (some g, s) =>
        if g.any fun x => (s.jobFolios f j).any fun h => h.place.chans.any fun c => c.2 == chanNum x.dst then .next (refuse s)
        else
          let k : Ckpt := { job := j, shards := l.2.2, stride := l.1, manifest := l.2.1, folios := 0, gen := 0, saveDigest := []
                            segs := g, shard := 0, line := 0, kept := [], acc := 0, digests := [] }
          let s := s.onFunc f fun r => { r with ckstate := 1, ckdone := 0, ckpt := some k }
          .next ((s.ckPend f j).ckRow f .ckptSnapshot)

/-- CKCMD op 2 (R482): the job's checkpoint starts on a warning. -/
def execCkptArm (s : State) : Host.Outcome State Fault Refusal :=
  .next (s.onFunc s.cursor.func fun r =>
    let j := r.ckcmd.extractLsb' 0 32
    { r with ckarmed := if r.ckarmed.contains j then r.ckarmed else r.ckarmed ++ [j] })

/-- CKCMD op 3 (R482). -/
def execCkptDisarm (s : State) : Host.Outcome State Fault Refusal :=
  .next (s.onFunc s.cursor.func fun r =>
    let other (j : BitVec 32) : Bool := j != r.ckcmd.extractLsb' 0 32
    { r with ckarmed := r.ckarmed.filter other, ckwait := r.ckwait.filter other })

/-- A folio that a checkpoint froze goes on, or its pending pre-empt records act (R484). -/
def State.ckThaw (s : State) (g : Folio) : State :=
  if !g.ckStop then s
  else
    let s := s.onFolio g.place.idx fun (f : Folio) => { f with
      ckStop := false
      freeze := if f.freeze.preempt && f.stops.isEmpty then { f.freeze with preempt := false } else f.freeze }
    if g.freeze.preempt && !g.stops.isEmpty then s.actStop g.place.idx else s

/-- CKCMD op 4 (R486). -/
def execCkptAbort (s : State) : Host.Outcome State Fault Refusal :=
  let f := s.cursor.func
  let r := s.func f
  if r.ckstate ≠ 1 ∧ r.ckstate ≠ 2 then .next s
  else
    let s := s.onFunc f fun r => { r with ckstate := 5, ckpt := none }
    .next (if r.ckstate = 1 then (s.folios.filter fun g => g.place.func == f).foldl State.ckThaw s else s)

/-- Whether a folio stands frozen at its pen-lift point (R484). -/
def Folio.atPoint (f : Folio) : Bool := f.held || (f.ckStop && f.freeze.preempt)

/-- Folios in ascending launch queue and record (R484). -/
def byRecord (l : List Folio) : List Folio :=
  l.mergeSort fun a b => decide (a.launch.queue < b.launch.queue)
    || (a.launch.queue == b.launch.queue && decide (a.launch.recNo ≤ b.launch.recNo))

/-- The digest over some save regions in order (R485). -/
def savesDigest (l : List (Nat × Nat)) : List Byte :=
  let all := l.foldr (fun (x : Nat × Nat) (y : Nat × Nat) => (x.1 + y.1 * 2 ^ (8 * x.2), x.2 + y.2)) (0, 0)
  toBytes 64 (shake256 all.1 all.2)

/-- The snapshot point (R484): every folio of the job is saved and goes on, and copy-before-write is armed. -/
def execCkptSnapshot (s : State) : Host.Outcome State Fault Refusal :=
  let f := s.cursor.func
  let r := s.func f
  match r.ckpt with
  | none => .next s
  | some k =>
    let l := s.ckFolios f k.job
    if r.ckstate ≠ 1 ∨ !(l.all Folio.atPoint) then .next s
    else
      let l := byRecord l
      let base := r.cksave.toNat / 64 * 64
      let s := l.zipIdx.foldl (fun s g => s.saveFolio g.1 (base + g.2 * k.stride)) s
      let gen := ((s.trust.jobs.find? fun x => x.func == f && x.job == k.job).map fun x => x.gen).getD 0
      let s := s.onFunc f fun r => { r with
        ckstate := 2
        ckpt := r.ckpt.map fun (k : Ckpt) => { k with folios := l.length, gen := gen, saveDigest := savesDigest (l.map Folio.region) } }
      .next (l.foldl State.ckThaw s)

/-- The manifest's bytes but for the signature (R485). -/
def Ckpt.body (k : Ckpt) (num : Nat) : Nat :=
  let head := 0x4B5A434B + 1 * 2 ^ 32 + k.folios % 2 ^ 16 * 2 ^ 48 + k.job.toNat * 2 ^ 64 + k.shards.length * 2 ^ 96
    + k.gen % 2 ^ 64 * 2 ^ 128 + num % 2 ^ 64 * 2 ^ 192 + ofBytes (k.saveDigest.take 64) * 2 ^ 256
  (k.shards.zip k.digests).zipIdx.foldl (fun v x =>
    v + (x.1.1.1 + x.1.1.2.1 * 2 ^ 64 + x.1.1.2.2 * 2 ^ 128 + ofBytes (x.1.2.take 64) * 2 ^ 256) * 2 ^ (8 * (96 + 96 * x.2))) head

/-- The last shard has been copied (R484, R485): the manifest is signed and written, and a record says so. -/
def State.ckDone (s : State) (f : Nat) (k : Ckpt) : State :=
  let num := (s.func f).cknum
  let v := k.body num
  let n := 96 + 96 * k.shards.length
  let sig := ofBytes ((Config.falconSign s.trust.aliasId (toBytes n v)).take 1280)
  let s := { s with hostMem := s.hostMem.writeN k.manifest (n + 1280) (v + sig * 2 ^ (8 * n)) }
  let s := s.onFunc f fun r => { r with ckstate := 3, ckpt := none, cknum := num + 1 }
  s.event f (Event.plain 6 0 k.job.toNat num k.manifest)

/-- A shard has been copied: its digest is taken (R484). -/
def State.ckShard (s : State) (f : Nat) (k : Ckpt) : State :=
  let k := { k with
    digests := k.digests ++ [toBytes 64 (shake256 k.acc (64 * k.line))], shard := k.shard + 1, line := 0, acc := 0 }
  let s := s.onFunc f fun r => { r with ckdone := k.shard, ckpt := some k }
  if k.shard = k.shards.length then s.ckDone f k else s

/-- The copier moves the checkpoint's next line (R484), or ends a shard. -/
def execCkptCopyLine (s : State) : Host.Outcome State Fault Refusal :=
  let f := s.cursor.func
  match (s.func f).ckpt with
  | none => .next s
  | some k =>
    if (s.func f).ckstate ≠ 2 then .next s
    else
      match k.segs.find? fun g => g.shard == k.shard && decide (g.base ≤ k.line) && decide (k.line < g.base + g.len / 64) with
      | none => .next (s.ckShard f k)
      | some g =>
        let on (s : State) (v : Nat) : State := s.onFunc f fun r => { r with
          ckpt := r.ckpt.map fun (k : Ckpt) => { k with line := k.line + 1, acc := k.acc + v * 2 ^ (512 * k.line) } }
        match k.kept.find? fun x => x.1 == g.src + 64 * (k.line - g.base) with
        | some x => .next (on s x.2)
        | none =>
          match s.copyShardLine f g k.line with
          | (none, s) => .next s
          | (some v, s) => .next (on s v)

end Sys2Proof.Machine
end

