-- ==== Sys2Proof/Machine/Trust.lean ====
section
/-! DEFINITION. Signet (R449-R453), link protection (R448), firmware (R514, R515), CXL.mem (R445, R477, R504), completions and
flits from outside (R505-R509), power and clock (R511, R129), bring-up and reset (R513). -/

namespace Sys2Proof.Machine

/-- The measurement of the running firmware (R449). -/
def Trust.measure (t : Trust) : List Byte := toBytes 64 (shake256 (ofBytes t.firmware) t.firmware.length)

/-- The buffer of a function's Signet command (R451). -/
def FuncRegs.sgnAddr (r : FuncRegs) : Nat := r.sgnbuf.toNat / 64 * 64
def FuncRegs.sgnJob (r : FuncRegs) : BitVec 32 := r.sgncmd.extractLsb' 0 32
def FuncRegs.sgnSlot (r : FuncRegs) : Nat := bitsAt r.sgncmd.toNat 32 2

/-- A Signet command ends in a state, with its interrupt when done or refused (R451, R503). -/
def State.sgnEnd (s : State) (f n : Nat) : State :=
  let s := s.onFunc f fun r => { r with sgnstat := n }
  if n = 2 ∨ n = 3 then s.interrupt f 3 else s

/-- What Signet knows of a function's job. -/
def State.jobOf (s : State) (f : Nat) (j : BitVec 32) : Option Job := s.trust.jobs.find? fun x => x.func == f && x.job == j

/-- The 256 bytes of an evidence record before its signature (R452). -/
def State.evidence (s : State) (f : Nat) (j : Job) (nonce : Nat) : Nat :=
  let folios := (s.folios.filter fun g => g.place.func == f && g.launch.job == j.job).length
  0x4B5A4556 + 1 * 2 ^ 32 + nonce % 2 ^ 256 * 2 ^ 64 + j.job.toNat * 2 ^ 320 + f * 2 ^ 352 + j.gen % 2 ^ 64 * 2 ^ 384
  + ofBytes (j.image.take 64) * 2 ^ 448 + ofBytes s.trust.measure * 2 ^ 960
  + shake256 (ofBytes Config.identityKey) Config.identityKey.length * 2 ^ 1472 + folios % 2 ^ 16 * 2 ^ 1984

/-- Signet op 1 (R452): evidence for a job, signed with the alias key. -/
def execSignetEvidence (s : State) : Host.Outcome State Fault Refusal :=
  let f := s.cursor.func
  let r := s.func f
  match s.jobOf f r.sgnJob with
  | none => .next (s.sgnEnd f 4)
  | some j =>
    let v := s.evidence f j (s.hostMem.readN r.sgnAddr 32)
    let sig := ofBytes ((Config.falconSign s.trust.aliasId (toBytes 256 v)).take 1280)
    .next ({ s with hostMem := s.hostMem.writeN r.sgnAddr 1536 (v + sig * 2 ^ 2048) }.sgnEnd f 2)

/-- Whether Signet may fill a key slot (R452). -/
def FuncRegs.slotFree (r : FuncRegs) : Bool := r.sgnSlot != r.keycur && !(r.keyarmed && r.sgnSlot == r.keynext)

/-- Signet fills the command's slot with a key pair (R452). -/
def State.fillSlot (s : State) (f : Nat) (k : BitVec 512) : State :=
  (s.onFunc f fun r => { r with keys := vset r.keys r.sgnSlot (KeySlot.of k) }).sgnEnd f 2

/-- Signet op 2 (R452): the buffer holds the job, the generation and the encrypted key pair, which Signet installs (log 8). -/
def execSignetImportKey (s : State) : Host.Outcome State Fault Refusal :=
  let f := s.cursor.func
  let r := s.func f
  match s.jobOf f r.sgnJob with
  | none => .next (s.sgnEnd f 4)
  | some j =>
    let b := s.hostMem.readN r.sgnAddr 128
    if field b 0 4 ≠ j.job.toNat ∨ field b 8 8 ≠ j.gen ∨ !r.slotFree then .next (s.sgnEnd f 3)
    else
      match Config.importedKey (toBytes 112 (field b 16 112)) with
      | none => .next (s.sgnEnd f 3)
      | some k => .next (s.fillSlot f k)

/-- Signet op 3 (R452). -/
def execSignetGenerateKey (s : State) : Host.Outcome State Fault Refusal :=
  let f := s.cursor.func
  let made : State := { s with trust := { s.trust with made := s.trust.made + 1 } }
  .next (if (s.func f).slotFree then made.fillSlot f (Config.freshKey s.trust.made) else s.sgnEnd f 3)

/-- Signet op 4 (R451): the certificate chain is written to the buffer. -/
def execSignetReadCertChain (s : State) : Host.Outcome State Fault Refusal :=
  let f := s.cursor.func
  let c := Config.certChain s.trust.aliasId
  .next ({ s with hostMem := s.hostMem.writeN (s.func f).sgnAddr c.length (ofBytes c) }.sgnEnd f 2)

/-- IDE keys are programmed for a stream, only inside an authenticated session (R448); the stream is then secure. -/
def execIdeKmKeyProgram (stream : Nat) (authenticated : Bool) (s : State) : Host.Outcome State Fault Refusal :=
  .next (if authenticated && decide (stream ≤ 64) then
    { s with trust := { s.trust with ide := (s.trust.ide.filter fun x => x.1 != stream) ++ [(stream, true)] } } else s)

/-- Data whose MAC fails are dropped: the stream becomes insecure and the hub logs it (R448). -/
def State.macFailed (s : State) (stream f : Nat) : State :=
  { s with trust := { s.trust with ide := s.trust.ide.map fun (x : Nat × Bool) => if x.1 == stream then (stream, false) else x } }.logError 4 f

/-- Whether a stream has been made insecure: what comes on it is dropped until its keys are programmed anew (R448). -/
def State.insecure (s : State) (stream : Nat) : Bool := s.trust.ide.contains (stream, false)

/-- FWCMD op 1 (R515): the image is copied from host memory and verified. -/
def execFwStage (s : State) : Host.Outcome State Fault Refusal :=
  let img := s.hostMem.bytes (bitsAt s.trust.fwcmd.toNat 6 54 * 64) Config.firmwareBytes
  let v := Config.firmwareVersion img
  if !Config.firmwareSigned img || decide (v.toNat < s.trust.rollback.toNat) then .next { s with trust := { s.trust with fwstate := 3 } }
  else .next { s with trust := { s.trust with staged := some img, fwverStaged := v, fwstate := 2 } }

/-- Whether an activation waits for the hub units (R425, R515): a copy under way, or host reads that were there when it came. -/
def State.fwWaits (s : State) : Bool :=
  s.mig.state == 1 || (s.funcs.toList.any fun r => r.ckstate == 2)
  || s.hostReads.any fun r => r.got.isNone && decide (r.id < s.trust.activating.getD s.readCtr)

/-- FWCMD op 2 (R515): once the hub units have completed their requests, the staged firmware runs, is measured, and the rollback counter rises to its version. -/
def execFwActivate (s : State) : Host.Outcome State Fault Refusal :=
  let t := s.trust
  match t.staged with
  | none => .next { s with trust := { t with fwstate := 3, activating := none } }
  | some img =>
    if s.fwWaits then .next s
    else
    let t := { t with firmware := img, fwver := t.fwverStaged, staged := none, fwstate := 4, rollback := t.fwverStaged, activating := none }
    .next { s with trust := { t with aliasId := Config.aliasKey t.measure } }

/-- The device address of a host address in the HDM range (R502, R504): at most 512 GiB from the base of the committed decoder, while decoders
are enabled (log 38). -/
def State.hdm (s : State) (a : BitVec 64) : Option Nat :=
  if s.dev.hdmOn ∧ s.dev.hdmCtl.getLsbD 1 ∧ s.dev.hdmBase ≤ a.toNat ∧ a.toNat < s.dev.hdmBase + min s.dev.hdmSize (2 ^ 39) then some (a.toNat - s.dev.hdmBase)
  else none

/-- Whether CXL.mem reaches a line: backed, on a leased channel, with the device not failed (R445, R504, R513). -/
def State.cxlReaches (s : State) (pa : Nat) : Bool :=
  backed pa && (vget s.dram.chans (chanNum pa)).v && s.dev.devstate != 7

/-- A host read of device memory, one line (R445, R476, R504): the answer and its poison indication. -/
def execCxlMemRead (addr : BitVec 64) (s : State) : Host.Outcome State Fault Refusal :=
  match s.hdm addr with
  | none => .next s
  | some pa =>
    let answer (s : State) (v : Nat) (p : Bool) : State := { s with dev := { s.dev with reply := v, replyPoison := p } }
    if !s.cxlReaches pa then .next (answer s 0 false)
    else
      let r := s.readLine (pa / 64 * 64)
      .next (if r.2.1 then answer r.2.2 0 true else answer r.2.2 r.1 false)

/-- A host write of device memory, the enabled bytes of one line (R445, R448, R477, R504). -/
def execCxlMemWrite (addr enable : BitVec 64) (data : BitVec 512) (macFail : Bool) (s : State) : Host.Outcome State Fault Refusal :=
  match s.hdm addr with
  | none => .next s
  | some pa =>
    let pa := pa / 64 * 64
    if macFail then .next (s.macFailed 64 0)
    else if s.insecure 64 then .next s
    else if !s.cxlReaches pa || enable == 0 then .next s
    else if enable == BitVec.allOnes 64 then .next (s.writeLine pa data.toNat false)
    else .next (s.patchLine pa (mixBytes 64 enable.toNat data.toNat))

/-- The results that wait in the landing buffer of the tile at i (R123): host reads that have come, lines, replies and parts of
contributions that the mesh has brought, and the contributions from other packages to the collectives that it takes part in. -/
def State.buffered (s : State) (f : Folio) (i : Nat) (t : Tile) : Nat :=
  let me := (i % f.place.w, i / f.place.w)
  let came (l : CeLine) : Bool := match l.outside with
    | some id => s.hostReads.any fun r => r.id == id && r.got.isSome
    | none => false
  (t.ce.lines.filter came).length + (t.ap.ratoms.filter fun r => r.reply.isSome).length + t.ce.parts.length
  + (f.tiles.map fun u => (u.ce.lines.filter fun l => l.route == .mesh && l.got.contains me).length).sum
  + (s.far.filter fun p => farFolio p.id == f.place.idx && keyHas (farKey p.id) me && t.awaitsColl (farNum p.id)).length

/-- Whether the landing buffer of a tile that a result from outside goes to is full (R123): dest tells the tiles. -/
def State.fullFor (s : State) (f : Folio) (dest : Nat × Nat → Tile → Bool) : Bool :=
  f.tiles.zipIdx.any fun p => dest (p.2 % f.place.w, p.2 / f.place.w) p.1 && decide (512 ≤ s.buffered f p.2 p.1)

/-- The tile that a host read lands in. -/
def toRead (id : Nat) (_ : Nat × Nat) (t : Tile) : Bool := t.ce.lines.any fun l => l.outside == some id

/-- The tiles that a contribution from another package goes to: the members of its group whose collective is not over (R382). -/
def toMember (id : Nat) (p : Nat × Nat) (t : Tile) : Bool := keyHas (farKey id) p && t.awaitsColl (farNum id)

/-- Whether a host read has been sent and awaits its completion. -/
def HostRead.awaits (r : HostRead) (id : Nat) : Bool := r.id == id && r.got.isNone && r.data.isSome

/-- A host read whose completion has come lands what stood in the host's memory, with the marks that the completion gives
(R324, R505); reads that were held back may follow (R425). -/
def State.hostCame (s : State) (id poison : Nat) : State :=
  ({ s with hostReads := s.hostReads.map fun (x : HostRead) =>
      if x.id == id then { x with got := some (x.data.getD 0, poison) } else x } : State).serveReads

/-- A completion for a host slot's read (R123, R505): an error status lands with every word poisoned, a poisoned completion with its
marks (log 25), and a MAC failure drops it. A full landing buffer holds it back in its transport. -/
def execHostCompletionArrival (id : Nat) (poison : BitVec 8) (error macFail : Bool) (s : State) : Host.Outcome State Fault Refusal :=
  match s.hostReads.find? fun r => r.awaits id with
  | none => .next s
  | some r =>
    let f := ((s.folio? r.folio).map fun g => g.place.func).getD 0
    if macFail then .next (s.macFailed f f)
    else if s.insecure f then .next s
    else if ((s.folio? r.folio).map fun g => s.fullFor g (toRead id)).getD false then
      .next { s with inputs := s.inputs ++ [⟨.hostCompletionArrival id poison error macFail, true⟩] }
    else
      let s := s.hostCame id (if error then 0xFF else poison.toNat)
      .next (if error then s.logError 2 f else s)

/-- A contribution from another package waits in the landing buffers (R123, R382): one that no link brings is none (R509). -/
def State.addFar (s : State) (id data poison : Nat) : State :=
  match s.folio? (farFolio id) with
  | none => s
  | some f =>
    if (s.linksTo f (farPkg id)).isEmpty || s.far.any fun p => p.id == id then s
    else { s with far := s.far ++ [⟨id, data, poison⟩] }

/-- A result from an agent outside the folio arrives (R123): a host read's completion by its number, else a contribution. A full
landing buffer holds it back in its transport. -/
def execExternalResultArrival (id : Nat) (data : BitVec 512) (poison : BitVec 8) (s : State) : Host.Outcome State Fault Refusal :=
  let again : State := { s with inputs := s.inputs ++ [⟨.externalResultArrival id data poison, true⟩] }
  match s.hostReads.find? fun r => r.awaits id with
  | some r =>
    if ((s.folio? r.folio).map fun g => s.fullFor g (toRead id)).getD false then .next again
    else .next (s.hostCame id poison.toNat)
  | none =>
  if ((s.folio? (farFolio id)).map fun g => s.fullFor g (toMember id)).getD false then .next again
  else .next (s.addFar id data.toNat poison.toNat)

/-- A flit leaves the delay line of a link (R475, R507, R509): clean, corrected by FEC, replayed, or lost and delivered
poisoned. -/
def execGiferFlitReceive (link : Nat) (outcome : FlitOutcome) (id : Nat) (data : BitVec 512) (s : State) :
    Host.Outcome State Fault Refusal :=
  let k := vget s.links link
  if 18 ≤ link ∨ k.state ≠ 2 then .next s
  else
    let s := match outcome with
      | .clean => s
      | .corrected => s.countLinkCor link
      | .replayed => s.countLinkCor link
      | .lost => s.countLinkUnc link
    match s.folio? (farFolio id) with
    | none => .next s
    | some f =>
      if !(k.v && f.place.func == k.func && f.launch.job == k.job && k.peer.toNat == farPkg id) then .next s
      else if s.fullFor f (toMember id) then
        .next { s with inputs := s.inputs ++ [⟨.externalResultArrival id data (if outcome = .lost then 0xFF else 0), true⟩] }
      else .next (s.addFar id data.toNat (if outcome = .lost then 0xFF else 0))

/-- The clock is lowered by steps, to no lower than half (R511). -/
def Device.lower (d : Device) (steps now : Nat) : Device :=
  { d with steps := min 8 (d.steps + steps), slows := d.slows + 1, stepAt := now }

/-- A supply droop lowers the clock by some steps (R136, R511); none says that the condition has ended. -/
def execSupplyDroop (steps : Nat) (s : State) : Host.Outcome State Fault Refusal :=
  .next { s with dev := if steps = 0 then { s.dev with droop := false, stepAt := s.wall } else { s.dev.lower steps s.wall with droop := true } }

/-- A stack demands more refresh than its reserve allows, or no longer does (R129). -/
def execStackTemperatureRefreshDemand (stack : Nat) (demand : Bool) (s : State) : Host.Outcome State Fault Refusal :=
  if 8 ≤ stack then .next s
  else .next { s with dev :=
    if demand then { s.dev.lower 1 s.wall with hot := addMark s.dev.hot stack }
    else { s.dev with hot := dropMark s.dev.hot stack, stepAt := s.wall } }

/-- The clock rises by one step once the condition has ended (R511). -/
def execClockStepUp (s : State) : Host.Outcome State Fault Refusal :=
  if s.dev.droop || !s.dev.hot.isEmpty || s.dev.steps == 0 then .next s
  else .next { s with dev := { s.dev with steps := s.dev.steps - 1, stepAt := s.wall } }

/-- CLKSTAT.mhz (R511). -/
def Device.mhz (d : Device) : Nat := (3600 - 225 * d.steps) / 2

/-- GPAD (R507): the smallest multiple of 16 at or above the largest measured latency of the links in service. -/
def gpad (l : List Nat) : Nat := (l.foldl max 0 + 15) / 16 * 16

/-- The links train: each measures its latency and learns the package at its far end (R507, R508). -/
def State.trainLinks (s : State) : State :=
  { s with links := Vector.ofFn fun i => { s.links[i] with lm := Config.linkLatency i.val, ppkg := Config.peerPackage i.val, state := 1 } }

/-- The links after training and padding (R507). -/
def State.padLinks (s : State) : State :=
  let pad := gpad ((s.links.toList.map fun k => k.lm).filter fun n => decide (n ≤ 2048))
  { s with links := Vector.ofFn fun i =>
      { s.links[i] with pad := max pad (Config.peerPad i.val), state := if s.links[i].lm ≤ 2048 then 2 else 3 } }

/-- One step of bring-up (R513, R421, R453): what the state that it enters names. -/
def State.bringStep (s : State) (n : Nat) : State :=
  let s := { s with dev := { s.dev with devstate := n } }
  match n with
  | 1 =>
    let t := { s.trust with firmware := Config.bootFirmware, fwver := Config.firmwareVersion Config.bootFirmware }
    { s with trust := { t with aliasId := Config.aliasKey t.measure } }
  | 2 => { s with dram := { s.dram with chans := s.dram.chans.map fun (c : Chan) => { c.clearing with scrubAt := 0 } } }
  | 3 => { s with dev := { s.dev with defects := (Config.fuseDefects.take 64).eraseDups }, idle := [] }
  | 4 => s.trainLinks
  | 5 => (List.range 64).foldl State.freshKeys s.padLinks
  | _ => s

/-- The hub runs the next step of bring-up; ok says whether it succeeded (R513), which for the first step takes firmware whose
signature verifies. -/
def execBringUp (ok : Bool) (s : State) : Host.Outcome State Fault Refusal :=
  let n := s.dev.devstate
  if 5 ≤ n then .next s
  else if ok && (n != 0 || Config.firmwareSigned Config.bootFirmware) then .next (s.bringStep (n + 1))
  else .next { s with dev := { s.dev with devstate := 7, code := n + 1 } }

/-- Loss of power-good or PERST# (R513): the machine is as after reset, but for what lies outside the device or in fuses. -/
def execPerstAssertion (s : State) : Host.Outcome State Fault Refusal :=
  .next { State.reset with
    hostMem := s.hostMem, wall := s.wall, inputs := s.inputs, freeCtr := s.freeCtr, readCtr := s.readCtr
    trust := { State.reset.trust with rollback := s.trust.rollback, made := s.trust.made } }

end Sys2Proof.Machine
end

