-- ==== Sys2Proof/Machine/Device.lean ====
section
/-! DEFINITION. The registers of the host port in BAR 2 and what their bits read as (R160, R161, R419, R427, R428, R434,
R441, R451, R469, R478, R482, R488, R492, R496, R497, R508, R511-R514), and the on-chip map (R22-R25). -/

namespace Sys2Proof.Machine

/-- A row acts next on a function's registers, or on a folio. -/
def State.rowFor (s : State) (f : Nat) (i : Instr) : State := s.next { s.cursor with func := f } i
def State.rowOn (s : State) (n : Nat) (i : Instr) : State := s.next { s.cursor with folio := n } i

/-- A write of LQCTL (R160): a queue that is enabled counts its records from 0. -/
def State.writeLqctl (s : State) (q : Nat) (en : Bool) : State :=
  let s := s.onQueue q fun x =>
    if en && !x.en then { x with en := true, head := 0, tail := 0, done := 0, since := none, early := [], epoch := x.epoch + 1 }
    else { x with en := en }
  { s with arb := { s.arb with failed := dropMark s.arb.failed q } }

/-- A write of a launch queue's register (R160). -/
def State.writeQueue (s : State) (q off : Nat) (v : BitVec 64) : State :=
  match off with
  | 0x00 => s.onQueue q fun x => { x with base := keepFields [(6, 58)] v }
  | 0x08 => s.onQueue q fun x => { x with log := bitsAt v.toNat 0 5 }
  | 0x10 => s.next s.cursor (.lqtailWrite q (v.extractLsb' 0 32))
  | 0x20 => s.onQueue q fun x => { x with weight := bitsAt v.toNat 8 4, level := bitsAt v.toNat 0 3 }
  | 0x28 => s.onQueue q fun x => { x with cbase := keepFields [(5, 59)] v }
  | 0x38 => s.writeLqctl q (v.getLsbD 0)
  | _ => s

/-- A write of PHCUR (R161, R169): another phase begins without members or completions; the same value changes nothing (log 105). -/
def State.writePhase (s : State) (f d : Nat) (p : BitVec 32) : State :=
  let x := s.domain f d
  if d = 0 ∨ x.phase = p then s else s.setDomain { x with phase := p, members := none, count := 0 }

/-- A write of SVCCMD (R428). -/
def State.writeSvc (s : State) (v : BitVec 64) : State :=
  let d := { s.dev with svccmd := keepFields [(60, 4), (0, 15)] v }
  if s.dev.svcstat = 1 then s
  else
    match d.svcRow with
    | some i => ({ s with dev := { d with svcstat := 1 } } : State).next s.cursor i
    | none => s

/-- A write of a translation register (R434). -/
def State.writeXlate (s : State) (f off : Nat) (v : BitVec 64) : State :=
  match off with
  | 0x00 => s.onFunc f fun r => { r with ptroot := keepFields [(14, 34), (0, 1)] v }
  | 0x08 => s.onFunc f fun r => { r with hostbase := keepFields [(16, 48)] v }
  | 0x10 => s.onFunc f fun r =>
      let b := keepFields [(6, 58), (0, 4)] v
      { r with frbase := b, frtail := if ringOn b && !ringOn r.frbase then 0 else r.frtail }
  | 0x20 => s.rowFor f (.fack f v)
  | 0x28 => s.rowFor f (.tlbinv f v)
  | 0x30 => s.rowFor f (.keyRotationArm f v)
  | _ => s

/-- A write of SGNCMD (R451). -/
def State.writeSgn (s : State) (f : Nat) (v : BitVec 64) : State :=
  if (s.func f).sgnstat = 1 then s
  else
    let s := s.onFunc f fun r => { r with sgncmd := keepFields [(60, 4), (32, 2), (0, 32)] v, sgnstat := 1 }
    match bitsAt v.toNat 60 4 with
    | 1 => s.rowFor f .signetEvidence
    | 2 => s.rowFor f .signetImportKey
    | 3 => s.rowFor f .signetGenerateKey
    | 4 => s.rowFor f .signetReadCertChain
    | _ => s.sgnEnd f 3

/-- A write of CKCMD (R482). -/
def State.writeCk (s : State) (f : Nat) (v : BitVec 64) : State :=
  let op := bitsAt v.toNat 60 4
  let st := (s.func f).ckstate
  if (st = 1 ∨ st = 2) ∧ op ≠ 4 then s
  else if op = 0 ∨ 4 < op then s
  else
    let s := s.onFunc f fun r => { r with ckcmd := keepFields [(60, 4), (0, 32)] v }
    match op with
    | 1 => (s.onFunc f fun r => { r with ckgo := some (v.extractLsb' 0 32) }).rowFor f .ckptStart
    | 2 => s.rowFor f .ckptArm
    | 3 => s.rowFor f .ckptDisarm
    | _ => s.rowFor f .ckptAbort

/-- A write of a function's own register at 0x0050_0000 (R434, R451, R469, R482). -/
def State.writeFunc (s : State) (f off : Nat) (v : BitVec 64) : State :=
  match off with
  | 0x40 => s.writeSgn f v
  | 0x48 => s.onFunc f fun r => { r with sgnbuf := keepFields [(6, 58)] v }
  | 0x80 => s.onFunc f fun r => { r with evbase := keepFields [(6, 58), (0, 4)] v }
  | 0x90 => s.onFunc f fun r => { r with evctl := v.extractLsb' 0 2 }
  | 0xC0 => s.writeCk f v
  | 0xC8 => s.onFunc f fun r => { r with cklist := keepFields [(6, 58)] v }
  | 0xD0 => s.onFunc f fun r => { r with cksave := keepFields [(6, 58)] v }
  | n => s.writeXlate f n v

/-- A write of a migration register (R441): ignored while a migration runs. -/
def State.writeMig (s : State) (off : Nat) (v : BitVec 64) : State :=
  if s.mig.state = 1 then s
  else
    match off with
    | 0x00 => { s with mig := { s.mig with va := keepFields [(56, 8), (0, 38)] v } }
    | 0x08 =>
      let s : State := { s with mig := { s.mig with dst := keepFields [(16, 32)] v } }
      if v.getLsbD 0 then s.next s.cursor .migratePage else s
    | _ => s

/-- A write of DBGCMD (R488). -/
def State.writeDbg (s : State) (v : BitVec 64) : State :=
  let s := { s with dev := { s.dev with dbgcmd := keepFields [(60, 4), (0, 12)] v } }
  let n := s.dbgTarget
  match bitsAt v.toNat 60 4 with
  | 1 => s.rowOn n .debugStop
  | 2 => s.rowOn n .debugResume
  | 3 => s.rowOn n .debugStopAtCycle
  | 4 => s.rowOn n .armBrk
  | 5 => s.rowOn n .disarmBrk
  | _ => s

/-- A write of SNAPGO (R496). -/
def State.writeSnap (s : State) (v : BitVec 64) : State :=
  let s := { s with dev := { s.dev with snapgo := keepFields [(60, 4), (0, 12)] v } }
  match bitsAt v.toNat 60 4 with
  | 1 => s.rowOn (bitsAt v.toNat 0 12) .snapshotFolio
  | 2 => s.rowOn (bitsAt v.toNat 0 12) .snapshotPackage
  | _ => s

/-- A write of a folio's capture block (R492, R494). -/
def State.writeCap (s : State) (n off : Nat) (v : BitVec 64) : State :=
  match off with
  | 0x00 => s.onCap n fun c => { c with trbase := keepFields [(12, 52), (0, 5)] v }
  | 0x08 => s.onCap n fun c =>
      let c' := { c with trsel := keepFields [(16, 16), (0, 8)] v }
      if v.getLsbD 0 && !c.trsel.getLsbD 0 then { c' with written := 0, left := none, done := false } else c'
  | 0x10 =>
    let s := s.onCap n fun c => { c with trtrig := keepFields [(32, 32), (0, 3)] v }
    if v.getLsbD 3 then s.rowOn n (.traceTriggerNow n) else s
  | 0x60 => s.onCap n fun c => { c with wlbase := keepFields [(12, 52), (0, 5)] v, logged := 0 }
  | 0x68 => s.onCap n fun c => { c with wlmin := v }
  | _ =>
    if 0x20 ≤ off ∧ off ≤ 0x58 then
      s.onCap n fun c => { c with wp := vset c.wp ((off - 0x20) / 8) (keepFields [(57, 7), (40, 16), (20, 17), (0, 16)] v) }
    else s

/-- A write of a folio's profiling block by a function (R497): it takes effect at the next cycle boundary. -/
def State.writeProf (s : State) (f n off : Nat) (v : BitVec 64) : State :=
  s.onFolio n fun x =>
    if f ≠ 0 ∧ x.place.func ≠ f then x
    else
      match off with
      | 0x00 => { x with prof := { x.prof with newCfg := some (keepFields [(32, 32), (0, 1)] v) } }
      | 0x08 => { x with prof := { x.prof with newSel := some v } }
      | 0x18 => { x with prof := { x.prof with newTile := some (v.extractLsb' 0 16) } }
      | _ => x

/-- GLSTAT.busy (R508). -/
def State.linkBusy (s : State) (l : Nat) : Bool := !(s.linkUsers l).isEmpty

/-- A write of GLCTL (R508). -/
def State.writeLink (s : State) (l : Nat) (v : BitVec 64) : State :=
  if s.linkBusy l || !s.ready then s
  else s.onLink l fun k => { k with v := v.getLsbD 63, func := bitsAt v.toNat 48 6, peer := v.extractLsb' 32 16, job := v.extractLsb' 0 32 }

/-- A write of FWCMD (R514). -/
def State.writeFw (s : State) (v : BitVec 64) : State :=
  if s.trust.fwstate = 1 then s
  else
    let op := bitsAt v.toNat 60 4
    if op ≠ 1 ∧ op ≠ 2 then s
    else
      let go := if op = 2 then some s.readCtr else none
      let s : State := { s with trust := { s.trust with fwcmd := keepFields [(6, 58)] v, fwstate := 1, activating := go } }
      s.next s.cursor (if op = 1 then .fwStage else .fwActivate)

/-- A 32-bit word of the HDM decoder capability in BAR 4 is written (R502, R504, log 38): its global control, the halves of base and
size, which commit fixes until it falls, and the control word. -/
def Device.putHdm (d : Device) (off w : Nat) : Device :=
  let lo (old : Nat) : Nat := putBits old 28 4 (bitsAt w 28 4)
  let hi (old : Nat) : Nat := putBits old 32 32 w
  match off with
  | 0x1104 => { d with hdmCtl := BitVec.ofNat 2 w }
  | 0x1110 => if d.hdmOn then d else { d with hdmBase := lo d.hdmBase }
  | 0x1114 => if d.hdmOn then d else { d with hdmBase := hi d.hdmBase }
  | 0x1118 => if d.hdmOn then d else { d with hdmSize := lo d.hdmSize }
  | 0x111C => if d.hdmOn then d else { d with hdmSize := hi d.hdmSize }
  | 0x1120 => { d with hdmOn := w.testBit 9 }
  | _ => d

/-- A register write in a bar whose words are of 32 bits: at a multiple of 8 both words, else the one word (log 38). -/
def inWords {α : Type} (put : α → Nat → Nat → α) (x : α) (off : Nat) (v : BitVec 64) : α :=
  let x := put x off (v.toNat % 2 ^ 32)
  if off % 8 = 0 then put x (off + 4) (v.toNat / 2 ^ 32) else x

/-- A write in BAR 4 (R502, R504). -/
def State.writeHdm (s : State) (off : Nat) (v : BitVec 64) : State := { s with dev := inWords Device.putHdm s.dev off v }

/-- A 32-bit word of an MSI-X entry is written (R502, R503). -/
def Vect.put (x : Vect) (off w : Nat) : Vect :=
  match off % 16 with
  | 0 => { x with addr := BitVec.ofNat 64 (putBits x.addr.toNat 0 32 (w / 4 * 4)) }
  | 4 => { x with addr := BitVec.ofNat 64 (putBits x.addr.toNat 32 32 w) }
  | 8 => { x with data := BitVec.ofNat 32 w }
  | 12 => { x with masked := w.testBit 0 }
  | _ => x

/-- A write of a function's MSI-X table in BAR 0 (R502, R503, log 38): a vector that is unmasked while it pends is sent. -/
def State.writeMsix (s : State) (f off : Nat) (v : BitVec 64) : State :=
  let n := off / 16
  if 64 ≤ off then s
  else
    let x := inWords Vect.put (vget (s.func f).msix n) off v
    let s := s.onFunc f fun r => { r with msix := vset r.msix n x }
    if !x.masked && (s.func f).pending.contains n then
      (s.onFunc f fun r => { r with pending := dropMark r.pending n }).message x
    else s

/-- What a function's BAR 0 reads as: its MSI-X table, and the pending bits at 0x8000. -/
def FuncRegs.readMsix (r : FuncRegs) (off : Nat) : Nat :=
  let x := vget r.msix (off / 16)
  if off = 0x8000 then (r.pending.map fun n => 2 ^ (n % 4)).sum
  else if 64 ≤ off then 0
  else
    match off % 16 with
    | 0 => x.addr.toNat
    | 4 => x.addr.toNat / 2 ^ 32
    | 8 => x.data.toNat + (if x.masked then 2 ^ 32 else 0)
    | 12 => if x.masked then 1 else 0
    | _ => 0

/-- The 32-bit words of BAR 4: the capability headers that lead to the HDM decoder, its global control, and the decoder (log 38). -/
def Device.hdmWord (d : Device) (off : Nat) : Nat :=
  match off with
  | 0x1000 => 0x01110001
  | 0x1004 => 0x10010005
  | 0x1104 => d.hdmCtl.toNat
  | 0x1110 => d.hdmBase % 2 ^ 32
  | 0x1114 => d.hdmBase / 2 ^ 32
  | 0x1118 => d.hdmSize % 2 ^ 32
  | 0x111C => d.hdmSize / 2 ^ 32
  | 0x1120 => if d.hdmOn then 3 * 2 ^ 9 else 0
  | _ => 0

/-- What BAR 4 reads as: two words at a multiple of 8, else one. -/
def Device.readHdm (d : Device) (off : Nat) : Nat :=
  d.hdmWord off + if off % 8 = 0 then d.hdmWord (off + 4) * 2 ^ 32 else 0

/-- A write of a register that only the physical function reaches. -/
def State.writePhysical (s : State) (off : Nat) (v : BitVec 64) : State :=
  if 0x200000 ≤ off ∧ off < 0x208000 then s.next s.cursor (.lqownWrite ((off - 0x200000) / 2) (v.extractLsb' 0 6))
  else if off = 0x208000 then
    (if v.toNat % 2 ^ 16 = 0 then s else { s with dev := { s.dev with agei := v.toNat % 2 ^ 16 } })
  else if 0x300000 ≤ off ∧ off < 0x300800 then s.next s.cursor (.leaseWrite ((off - 0x300000) / 8) v)
  else if off = 0x380000 then s.writeSvc v
  else if off = 0x580000 ∨ off = 0x580008 then s.writeMig (off - 0x580000) v
  else if 0x600000 ≤ off ∧ off < 0x600800 then s.next s.cursor (.errchWrite ((off - 0x600000) / 8))
  else if 0x600800 ≤ off ∧ off < 0x600890 then s.next s.cursor (.errlnkWrite ((off - 0x600800) / 8))
  else if off = 0x600900 then { s with dram := { s.dram with errcfg := keepFields [(62, 2), (0, 48)] v } }
  else if off = 0x600A00 then { s with dram := { s.dram with scrubPer := v.toNat % 2 ^ 16 } }
  else if off = 0x700000 then s.writeDbg v
  else if off = 0x700008 then { s with dev := { s.dev with dbgcyc := v } }
  else if off = 0x780000 then s.writeSnap v
  else if 0x800000 ≤ off ∧ off < 0x890000 then s.writeCap ((off - 0x800000) / 256) ((off - 0x800000) % 256) v
  else if 0xA00000 ≤ off ∧ off < 0xA00120 then (if off % 16 = 0 then s.writeLink ((off - 0xA00000) / 16) v else s)
  else if off = 0xA80008 then { s with dev := { s.dev with ebud := v.extractLsb' 0 32 }, arb := { s.arb with failed := [] } }
  else if off = 0xB00000 then s.writeFw v
  else if 0x1000000 ≤ off ∧ off < 0x1010000 then s.writeHdm (off - 0x1000000) v
  else s

/-- What a function's write of a register by its offset in BAR 2 does (R6); a register with a row of its own has that row act next. The
offsets after BAR 2 stand for BAR 4 and then BAR 0 (R502, log 38). -/
def State.writeReg (s : State) (func offset : Nat) (value : BitVec 64) : State :=
  let q := (offset - 0x100000) / 64
  if 0x100000 ≤ offset ∧ offset < 0x200000 then
    (if !s.ready || (s.queue q).owner != func then s else s.writeQueue q (offset % 64) value)
  else if 0x210000 ≤ offset ∧ offset < 0x218000 then
    (if offset % 8 = 0 then s.writePhase func ((offset - 0x210000) / 8) (value.extractLsb' 0 32) else s)
  else if 0x500000 ≤ offset ∧ offset < 0x500100 then s.writeFunc func (offset - 0x500000) value
  else if 0x1010000 ≤ offset ∧ offset < 0x1020000 then s.writeMsix func (offset - 0x1010000) value
  else if 0x900000 ≤ offset ∧ offset < 0x948000 then s.writeProf func ((offset - 0x900000) / 128) ((offset - 0x900000) % 128) value
  else if func = 0 then s.writePhysical offset value
  else s

/-- A function's write of a register (R6). A write whose MAC fails brings no value, and is dropped, as is one that comes on an
insecure stream (R448). -/
def execRegisterWrite (func offset : Nat) (value : Option (BitVec 64)) (s : State) : Host.Outcome State Fault Refusal :=
  .next (if 64 ≤ func then s
    else match value with
      | none => s.macFailed func func
      | some v => if s.insecure func then s else s.writeReg func offset v)

/-- LQCTL.idx (R160): the placement index of the queue's folio that was placed or resumed last, in whichever life of the queue it
was launched (log 116). -/
def State.queueIdx (s : State) (q : Nat) : Nat :=
  ((s.folios.filter fun f => f.launch.queue == q).getLast?.map fun f => f.place.idx).getD 0xFFF

/-- What a launch queue's register reads as (R160). -/
def State.readQueue (s : State) (q off : Nat) : Nat :=
  let x := s.queue q
  match off with
  | 0x00 => x.base.toNat
  | 0x08 => x.log
  | 0x10 => x.tail.toNat
  | 0x18 => x.head.toNat
  | 0x20 => x.weight * 2 ^ 8 + x.level
  | 0x28 => x.cbase.toNat
  | 0x30 => x.done.toNat
  | 0x38 => s.queueIdx q * 2 ^ 32 + if x.en then 1 else 0
  | _ => 0

/-- What a function's register at 0x0050_0000 reads as (R434, R451, R469, R482). -/
def FuncRegs.read (r : FuncRegs) (off : Nat) : Nat :=
  match off with
  | 0x00 => r.ptroot.toNat
  | 0x08 => r.hostbase.toNat
  | 0x10 => r.frbase.toNat
  | 0x18 => r.frtail.toNat
  | 0x20 => r.fack.toNat
  | 0x28 => r.tlbinv.toNat
  | 0x30 => r.keycur + r.keynext * 2 ^ 4 + (if r.keyarmed then 2 ^ 6 else 0) + if r.keybusy then 2 ^ 7 else 0
  | 0x40 => r.sgncmd.toNat
  | 0x48 => r.sgnbuf.toNat
  | 0x50 => r.sgnstat
  | 0x80 => r.evbase.toNat
  | 0x88 => r.evtail.toNat
  | 0x90 => r.evctl.toNat
  | 0xC0 => r.ckcmd.toNat
  | 0xC8 => r.cklist.toNat
  | 0xD0 => r.cksave.toNat
  | 0xD8 => r.ckdone * 2 ^ 16 + r.ckstate
  | _ => 0

/-- A lease entry as it reads (R419). -/
def State.readLease (s : State) (ch : Nat) : Nat :=
  let c := vget s.dram.chans ch
  c.job.toNat + c.index * 2 ^ 40 + c.func * 2 ^ 48 + (if s.chanBusy ch then 2 ^ 60 else 0) + (if c.clr then 2 ^ 61 else 0)
  + (if c.ret then 2 ^ 62 else 0) + if c.v then 2 ^ 63 else 0

/-- The 32 bytes of a placement entry (R427). -/
def Folio.entry (f : Folio) : Nat :=
  let p := f.place
  f.launch.job.toNat + (1 + (if f.held then 2 else 0) + if p.rect.oneDie then 0 else 4) * 2 ^ 32 + p.orient * 2 ^ 40
  + p.px0 * 2 ^ 48 + p.py0 * 2 ^ 56 + p.w * 2 ^ 64 + p.h * 2 ^ 72 + p.seam * 2 ^ 80 + p.func * 2 ^ 88
  + p.chans.length * 2 ^ 96 + f.launch.queue * 2 ^ 112 + f.cycle % 2 ^ 64 * 2 ^ 128

/-- The entry of a footprint that is being cleared: it stands until the tiles are released (R427). -/
def Release.entry (r : Release) : Nat :=
  let p := r.place
  r.job.toNat + (1 + if p.rect.oneDie then 0 else 4) * 2 ^ 32 + p.orient * 2 ^ 40
  + p.px0 * 2 ^ 48 + p.py0 * 2 ^ 56 + p.w * 2 ^ 64 + p.h * 2 ^ 72 + p.seam * 2 ^ 80 + p.func * 2 ^ 88
  + p.chans.length * 2 ^ 96 + r.queue * 2 ^ 112 + r.cycle % 2 ^ 64 * 2 ^ 128

/-- A placement entry (R427). -/
def State.placeEntry (s : State) (n : Nat) : Nat :=
  match s.folio? n with
  | some f => f.entry
  | none => ((s.releasing.find? fun r => r.place.idx == n).map Release.entry).getD 0

/-- What a folio's capture block reads as (R492). -/
def Capture.read (c : Capture) (off : Nat) : Nat :=
  match off with
  | 0x00 => c.trbase.toNat
  | 0x08 => c.trsel.toNat
  | 0x10 => c.trtrig.toNat
  | 0x60 => c.wlbase.toNat
  | 0x68 => c.wlmin.toNat
  | _ => if 0x20 ≤ off ∧ off ≤ 0x58 then (vget c.wp ((off - 0x20) / 8)).toNat else 0

/-- What a folio's profiling block reads as (R497). -/
def Folio.readProf (f : Folio) (off : Nat) : Nat :=
  match off with
  | 0x00 => f.prof.cfg.toNat
  | 0x08 => f.prof.sel.toNat
  | 0x10 => if f.prof.mismatch then 1 else 0
  | 0x18 => f.prof.tile.toNat
  | _ => if 0x40 ≤ off ∧ off < 0x80 then (f.profCounter ((off - 0x40) / 8)).toNat else 0

/-- GLCTL and GLSTAT as they read (R508). -/
def State.readLink (s : State) (l : Nat) (stat : Bool) : Nat :=
  let k := vget s.links l
  if stat then k.lm % 2 ^ 12 + k.ppkg.toNat * 2 ^ 16 + k.pad % 2 ^ 12 * 2 ^ 32 + (if s.linkBusy l then 2 ^ 61 else 0) + k.state * 2 ^ 62
  else k.job.toNat + k.peer.toNat * 2 ^ 32 + k.func * 2 ^ 48 + if k.v then 2 ^ 63 else 0

/-- What a register that only the physical function reaches reads as. -/
def State.readPhysical (s : State) (off : Nat) : Nat :=
  let d := s.dev
  if off = 0 then d.defects.length + d.code * 2 ^ 8 + s.trust.fwver.toNat * 2 ^ 32
  else if off = 8 then d.devstate
  else if 0x200000 ≤ off ∧ off < 0x208000 then (s.queue ((off - 0x200000) / 2)).owner
  else if off = 0x208000 then d.agei
  else if 0x300000 ≤ off ∧ off < 0x300800 then s.readLease ((off - 0x300000) / 8)
  else if off = 0x380000 then d.svccmd.toNat
  else if off = 0x380008 then d.svcstat
  else if 0x400000 ≤ off ∧ off < 0x412000 then
    bitsAt (s.placeEntry ((off - 0x400000) / 32)) (off % 32 / 8 * 64) 64
  else if off = 0x580000 then s.mig.va.toNat
  else if off = 0x580008 then s.mig.dst.toNat
  else if off = 0x580010 then s.mig.state + (if s.mig.state = 4 then s.mig.line * 2 ^ 16 else 0)
  else if 0x600000 ≤ off ∧ off < 0x600800 then
    let c := vget s.dram.chans ((off - 0x600000) / 8)
    c.cor + c.unc * 2 ^ 32
  else if 0x600800 ≤ off ∧ off < 0x600890 then
    let k := vget s.links ((off - 0x600800) / 8)
    k.cor + k.unc * 2 ^ 32
  else if off = 0x600900 then s.dram.errcfg.toNat
  else if off = 0x600A00 then s.dram.scrubPer
  else if off = 0x700000 then d.dbgcmd.toNat
  else if off = 0x700008 then d.dbgcyc.toNat
  else if off = 0x700010 then
    ((s.folio? s.dbgTarget).map fun f => f.dbg.state + f.dbg.cnt * 2 ^ 8 + if f.dbg.ovf then 2 ^ 24 else 0).getD 0
  else if off = 0x780000 then d.snapgo.toNat
  else if 0x800000 ≤ off ∧ off < 0x890000 then
    ((s.folio? ((off - 0x800000) / 256)).map fun f => f.cap.read ((off - 0x800000) % 256)).getD 0
  else if 0xA00000 ≤ off ∧ off < 0xA00120 then s.readLink ((off - 0xA00000) / 16) (decide (off % 16 = 8))
  else if off = 0xA80000 then d.mhz + d.slows.toNat * 2 ^ 32
  else if off = 0xA80008 then d.ebud.toNat
  else if off = 0xB00000 then s.trust.fwcmd.toNat
  else if off = 0xB00008 then s.trust.fwstate + s.trust.fwverStaged.toNat * 2 ^ 32
  else if 0x1000000 ≤ off ∧ off < 0x1010000 then d.readHdm (off - 0x1000000)
  else 0

/-- What a function reads of a register by its offset in BAR 2. -/
def State.readReg (s : State) (func off : Nat) : Nat :=
  if 0x100000 ≤ off ∧ off < 0x200000 then
    (if (s.queue ((off - 0x100000) / 64)).owner = func then s.readQueue ((off - 0x100000) / 64) (off % 64) else 0)
  else if 0x210000 ≤ off ∧ off < 0x218000 then (s.domain func ((off - 0x210000) / 8)).phase.toNat
  else if 0x500000 ≤ off ∧ off < 0x500100 then (s.func func).read (off - 0x500000)
  else if 0x1010000 ≤ off ∧ off < 0x1020000 then (s.func func).readMsix (off - 0x1010000)
  else if 0x900000 ≤ off ∧ off < 0x948000 then
    match s.folio? ((off - 0x900000) / 128) with
    | some f => if func = 0 ∨ f.place.func = func then f.readProf ((off - 0x900000) % 128) else 0
    | none => 0
  else if off = 0x950000 then 0x4B5A0001
  else if func = 0 then s.readPhysical off
  else 0

/-- A physical window address (R24): the tile and the offset; none outside the on-chip map. -/
def mapAddr (a : Nat) : Option (Nat × Nat × Nat) :=
  if bitsAt a 34 14 = 0x3C00 then some (bitsAt a 22 7, bitsAt a 29 5, bitsAt a 0 22) else none

/-- What a 32-bit read of a register half returns: the high half of a profiling counter is the one that the function's read of
its low half has latched (R498), every other half is that of the register as it stands. -/
def State.readReg32 (s : State) (func off : Nat) : Nat :=
  let b := (off - 0x900000) % 128
  let hit := if 0x900000 ≤ off ∧ off < 0x948000 ∧ 0x40 ≤ b ∧ b % 8 = 4 then
      s.dev.latched.find? fun x => x.1 == func && x.2.1 == (off - 0x900000) / 128 && x.2.2.1 == (b - 0x40) / 8
    else none
  match hit with
  | some x => x.2.2.2
  | none => bitsAt (s.readReg func (off / 8 * 8)) (8 * (off % 8 / 4 * 4)) 32

/-- The store that bytes at a window offset lie in (R22): 1 SPAD, WBUF, accumulators or TIM, 2 the slice file, 3 its tags,
4 CSRs, and 0 a hole. Bytes that do not all lie in one store are treated as a hole (log 99). -/
def mapStore (off n : Nat) : Nat :=
  let ends (a b : Nat) : Bool := decide (a ≤ off) && decide (off + n ≤ b)
  if ends 0 0x100000 || ends 0x100000 0x140000 || ends 0x140000 0x150000 || ends 0x180000 0x1A0000 then 1
  else if ends 0x150000 0x150800 then 2
  else if ends 0x151000 0x151100 then 3
  else if ends 0x1F0000 0x1F8000 then 4
  else 0

/-- A privileged write of a CSR (R22, R27, R490), read-only ones among them; reserved fields stay zero (R6). A window slot keeps its
page's physical address, which its CSR does not hold (log 110). -/
def Tile.pokeCsr (t : Tile) (n v : Nat) : Tile :=
  let w := BitVec.ofNat 64 v
  if n = 0x020 then { t with csr := { t.csr with ebal := v % 2 ^ 24 } }
  else if n = 0x021 then { t with csr := { t.csr with erate := v % 2 ^ 16 } }
  else if n = 0x022 then { t with csr := { t.csr with ecap := v % 2 ^ 24 } }
  else if n = 0x025 then { t with csr := { t.csr with hlat := v % 2 ^ 16 } }
  else if 0x030 ≤ n ∧ n < 0x034 then
    let l := { vget t.ctl.loops (n - 0x030) with act := v.testBit 32, count := v % 2 ^ 32 }
    { t with ctl := { t.ctl with loops := vset t.ctl.loops (n - 0x030) l } }
  else if n = 0x040 then { t with csr := { t.csr with ovcur := v % 256 } }
  else if n = 0x041 then { t with csr := { t.csr with ovbase := w } }
  else if n = 0x081 then { t with csr := { t.csr with barph := BitVec.ofNat 32 v } }
  else if n = 0x090 then { t with trap := { t.trap with tcause := keepFields [(0, 14)] w } }
  else if n = 0x091 then { t with trap := { t.trap with tcyc := w } }
  else if n = 0x092 then { t with trap := { t.trap with tpos := keepFields [(12, 12), (7, 4), (0, 3)] w } }
  else if n = 0x093 then { t with trap := { t.trap with targ := keepFields [(0, 16)] w } }
  else if n = 0x094 then { t with trap := { t.trap with tinfo := w } }
  else if n = 0x095 then { t with trap := { t.trap with tinfo2 := w } }
  else if n = 0x09C then { t with trap := { t.trap with hcyc := v % 2 ^ 64 } }
  else if 0x100 ≤ n ∧ n < 0x200 then { t with csr := { t.csr with ovt := vset t.csr.ovt (n - 0x100) (keepFields [(63, 1), (16, 13), (0, 12)] w) } }
  else if 0x200 ≤ n ∧ n < 0x220 then
    { t with wins := vset t.wins (n - 0x200) (Window.ofCsr v (vget t.wins (n - 0x200)).pa) }
  else t.setCsr n (csrKeep n v)

/-- What a tile's CSR holds for a privileged access. -/
def State.csrOf (s : State) (f : Folio) (i : Nat) (t : Tile) (n : Nat) : Nat := (t.readCsr (ctxOf s f i t .sq) n).getD 0

/-- The sixteen bytes of the CSR that a window offset lies in and of the next one, for a privileged access (R22). -/
def State.csrPair (s : State) (f : Folio) (i : Nat) (t : Tile) (off : Nat) : Nat :=
  let k := (off - 0x1F0000) / 8
  s.csrOf f i t k + s.csrOf f i t (k + 1) * 2 ^ 64

/-- A privileged write into a folio's tile (R22, R25). A granule that it covers whole is sound again (R475). -/
def State.pokeTile (s : State) (f : Folio) (i : Nat) (t : Tile) (off n v : Nat) : Tile :=
  match mapStore off n with
  | 1 => t.store off n v
  | 2 =>
    let x := putBits t.slices.sf.toNat (8 * (off - 0x150000)) (8 * n) v
    let g := (off - 0x150000) / 8
    { t with slices := { t.slices with
      sf := BitVec.ofNat 16384 x, bad := if n = 8 ∧ off % 8 = 0 then dropMark t.slices.bad g else t.slices.bad } }
  | 3 => { t with slices := (List.range n).foldl (fun z k => z.setTag (off - 0x151000 + k) (field v k 1 % 32)) t.slices }
  | 4 =>
    let k := (off - 0x1F0000) / 8
    let x := putBits (s.csrPair f i t off) (8 * (off % 8)) (8 * n) v
    let t := t.pokeCsr k (x % 2 ^ 64)
    if 8 < off % 8 + n then t.pokeCsr (k + 1) (x / 2 ^ 64 % 2 ^ 64) else t
  | _ => t

/-- The folio that holds a physical tile, with the tile's number (R411). -/
def State.holder (s : State) (px py : Nat) : Option (Folio × Nat) :=
  (s.folios.find? fun f => f.place.rect.has (px, py)).map fun f =>
    let a := f.place.abs px py
    (f, f.tileAt a.1 a.2)

/-- What n bytes for an idle tile's window offset leave there (R22): a tag byte keeps its five bits. -/
def idleBytes (off n v : Nat) : Nat :=
  if mapStore off n = 3 then ((List.range n).map fun k => field v k 1 % 32 * 2 ^ (8 * k)).sum else v

/-- Changes what an idle tile holds: its stores, its slices and their tags; a write of its CSRs is dropped (log 90). -/
def State.pokeIdle (s : State) (t : Nat × Nat) (off n v : Nat) : State :=
  let k := t.2 * 72 + t.1
  if mapStore off n = 4 then s
  else { s with idle := (s.idle.filter fun x => x.1 != k) ++ [(k, (s.idleMem t).writeN off n (idleBytes off n v))] }

/-- A privileged write of size bytes through the on-chip map (R22, R24, R25): into a tile's store; a hole or a defective tile
discards it, with an error record. -/
def execPrivilegedOnChipMapWrite (addr : BitVec 48) (size : Nat) (value : BitVec 64) (s : State) : Host.Outcome State Fault Refusal :=
  match mapAddr addr.toNat with
  | none => .next s
  | some (px, py, off) =>
    let n := if size = 1 ∨ size = 2 ∨ size = 4 then size else 8
    if 72 ≤ px ∨ mapStore off n = 0 ∨ s.dev.defects.contains (px, py) then .next (s.logError 0 0)
    else
      match s.holder px py with
      | none => .next (s.pokeIdle (px, py) off n value.toNat)
      | some (f, i) => .next (s.setFolio (f.onTile i fun t => s.pokeTile f i t off n value.toNat))

/-- What a privileged read of n bytes through the on-chip map returns (R25). -/
def State.readMap (s : State) (a n : Nat) : Nat :=
  match mapAddr a with
  | none => 0
  | some (px, py, off) =>
    if 72 ≤ px ∨ s.dev.defects.contains (px, py) then 0
    else
      match s.holder px py with
      | none => if mapStore off n = 0 then 0 else (s.idleMem (px, py)).readN off n
      | some (f, i) =>
        match f.tiles[i]? with
        | none => 0
        | some t =>
          match mapStore off n with
          | 1 => t.bytes off n
          | 2 => bitsAt t.slices.sf.toNat (8 * (off - 0x150000)) (8 * n)
          | 3 => ((List.range n).map fun k => t.slices.tag (off - 0x151000 + k) * 2 ^ (8 * k)).sum
          | 4 => bitsAt (s.csrPair f i t off) (8 * (off % 8)) (8 * n)
          | _ => 0

end Sys2Proof.Machine
end

