-- ==== Sys2Proof/Machine/Dispatch.lean ====
section
/-! DEFINITION. One arm per constructor of Instr: one direct call of its meaning. -/

namespace Sys2Proof.Machine

/-- The effect of an instruction or of a step of the machine at the cursor. -/
def exec (i : Instr) (s : State) : Host.Outcome State Fault Refusal :=
  match i with
  | .externalResultArrival id data poison => Sys2Proof.Machine.execExternalResultArrival id data poison s
  | .fack func value => Sys2Proof.Machine.execFack func value s
  | .lqtailWrite q tail => Sys2Proof.Machine.execLqtailWrite q tail s
  | .lqownWrite q func => Sys2Proof.Machine.execLqownWrite q func s
  | .leaseWrite ch value => Sys2Proof.Machine.execLeaseWrite ch value s
  | .vfReset func => Sys2Proof.Machine.execVfReset func s
  | .tlbinv func value => Sys2Proof.Machine.execTlbinv func value s
  | .keyRotationArm func value => Sys2Proof.Machine.execKeyRotationArm func value s
  | .scrubVisit ch corrected => Sys2Proof.Machine.execScrubVisit ch corrected s
  | .ideKmKeyProgram stream authenticated => Sys2Proof.Machine.execIdeKmKeyProgram stream authenticated s
  | .hostCompletionArrival id poison error macFail => Sys2Proof.Machine.execHostCompletionArrival id poison error macFail s
  | .cxlMemRead addr => Sys2Proof.Machine.execCxlMemRead addr s
  | .cxlMemWrite addr enable data macFail => Sys2Proof.Machine.execCxlMemWrite addr enable data macFail s
  | .errchWrite ch => Sys2Proof.Machine.execErrchWrite ch s
  | .errlnkWrite link => Sys2Proof.Machine.execErrlnkWrite link s
  | .traceTriggerNow n => Sys2Proof.Machine.execTraceTriggerNow n s
  | .profcntLowRead func n m => Sys2Proof.Machine.execProfcntLowRead func n m s
  | .bringUp ok => Sys2Proof.Machine.execBringUp ok s
  | .supplyDroop steps => Sys2Proof.Machine.execSupplyDroop steps s
  | .giferFlitReceive link outcome id data => Sys2Proof.Machine.execGiferFlitReceive link outcome id data s
  | .registerWrite func offset value => Sys2Proof.Machine.execRegisterWrite func offset value s
  | .add d a b => Sys2Proof.Machine.execAdd d a b s
  | .sub d a b => Sys2Proof.Machine.execSub d a b s
  | .mul d a b => Sys2Proof.Machine.execMul d a b s
  | .mulh d a b => Sys2Proof.Machine.execMulh d a b s
  | .mulhz d a b => Sys2Proof.Machine.execMulhz d a b s
  | .div d a b => Sys2Proof.Machine.execDiv d a b s
  | .divz d a b => Sys2Proof.Machine.execDivz d a b s
  | .rem d a b => Sys2Proof.Machine.execRem d a b s
  | .remz d a b => Sys2Proof.Machine.execRemz d a b s
  | .min d a b => Sys2Proof.Machine.execMin d a b s
  | .max d a b => Sys2Proof.Machine.execMax d a b s
  | .minz d a b => Sys2Proof.Machine.execMinz d a b s
  | .maxz d a b => Sys2Proof.Machine.execMaxz d a b s
  | .and d a b => Sys2Proof.Machine.execAnd d a b s
  | .or d a b => Sys2Proof.Machine.execOr d a b s
  | .xor d a b => Sys2Proof.Machine.execXor d a b s
  | .andn d a b => Sys2Proof.Machine.execAndn d a b s
  | .shl d a b => Sys2Proof.Machine.execShl d a b s
  | .shr d a b => Sys2Proof.Machine.execShr d a b s
  | .sar d a b => Sys2Proof.Machine.execSar d a b s
  | .rotl d a b => Sys2Proof.Machine.execRotl d a b s
  | .neg d a => Sys2Proof.Machine.execNeg d a s
  | .abs d a => Sys2Proof.Machine.execAbs d a s
  | .not d a => Sys2Proof.Machine.execNot d a s
  | .clz d a => Sys2Proof.Machine.execClz d a s
  | .ctz d a => Sys2Proof.Machine.execCtz d a s
  | .popc d a => Sys2Proof.Machine.execPopc d a s
  | .brev d a => Sys2Proof.Machine.execBrev d a s
  | .mov d a => Sys2Proof.Machine.execMov d a s
  | .satn d a z n => Sys2Proof.Machine.execSatn d a z n s
  | .crng16 d a b => Sys2Proof.Machine.execCrng16 d a b s
  | .crng32 d a b => Sys2Proof.Machine.execCrng32 d a b s
  | .ext d a b => Sys2Proof.Machine.execExt d a b s
  | .dep d a b => Sys2Proof.Machine.execDep d a b s
  | .addi d a imm => Sys2Proof.Machine.execAddi d a imm s
  | .movi d imm => Sys2Proof.Machine.execMovi d imm s
  | .movih d imm => Sys2Proof.Machine.execMovih d imm s
  | .cmp cond pd a b => Sys2Proof.Machine.execCmp cond pd a b s
  | .cmpi cond pd a imm => Sys2Proof.Machine.execCmpi cond pd a imm s
  | .tst wantZero pd a b => Sys2Proof.Machine.execTst wantZero pd a b s
  | .sel p d a b => Sys2Proof.Machine.execSel p d a b s
  | .pand pd pa pb => Sys2Proof.Machine.execPand pd pa pb s
  | .por pd pa pb => Sys2Proof.Machine.execPor pd pa pb s
  | .pxor pd pa pb => Sys2Proof.Machine.execPxor pd pa pb s
  | .pnot pd pa => Sys2Proof.Machine.execPnot pd pa s
  | .pmov pd pa => Sys2Proof.Machine.execPmov pd pa s
  | .ppack d => Sys2Proof.Machine.execPpack d s
  | .punpack d => Sys2Proof.Machine.execPunpack d s
  | .tagset d tag => Sys2Proof.Machine.execTagset d tag s
  | .tagget d a => Sys2Proof.Machine.execTagget d a s
  | .addLong o => Sys2Proof.Machine.execAddLong o s
  | .subLong o => Sys2Proof.Machine.execSubLong o s
  | .mulLong o => Sys2Proof.Machine.execMulLong o s
  | .mulhLong o => Sys2Proof.Machine.execMulhLong o s
  | .mulhzLong o => Sys2Proof.Machine.execMulhzLong o s
  | .divLong o => Sys2Proof.Machine.execDivLong o s
  | .divzLong o => Sys2Proof.Machine.execDivzLong o s
  | .remLong o => Sys2Proof.Machine.execRemLong o s
  | .remzLong o => Sys2Proof.Machine.execRemzLong o s
  | .minLong o => Sys2Proof.Machine.execMinLong o s
  | .maxLong o => Sys2Proof.Machine.execMaxLong o s
  | .minzLong o => Sys2Proof.Machine.execMinzLong o s
  | .maxzLong o => Sys2Proof.Machine.execMaxzLong o s
  | .andLong o => Sys2Proof.Machine.execAndLong o s
  | .orLong o => Sys2Proof.Machine.execOrLong o s
  | .xorLong o => Sys2Proof.Machine.execXorLong o s
  | .andnLong o => Sys2Proof.Machine.execAndnLong o s
  | .shlLong o => Sys2Proof.Machine.execShlLong o s
  | .shrLong o => Sys2Proof.Machine.execShrLong o s
  | .sarLong o => Sys2Proof.Machine.execSarLong o s
  | .rotlLong o => Sys2Proof.Machine.execRotlLong o s
  | .negLong o => Sys2Proof.Machine.execNegLong o s
  | .absLong o => Sys2Proof.Machine.execAbsLong o s
  | .notLong o => Sys2Proof.Machine.execNotLong o s
  | .clzLong o => Sys2Proof.Machine.execClzLong o s
  | .ctzLong o => Sys2Proof.Machine.execCtzLong o s
  | .popcLong o => Sys2Proof.Machine.execPopcLong o s
  | .brevLong o => Sys2Proof.Machine.execBrevLong o s
  | .movLong o => Sys2Proof.Machine.execMovLong o s
  | .satnLong o => Sys2Proof.Machine.execSatnLong o s
  | .crng16Long o => Sys2Proof.Machine.execCrng16Long o s
  | .crng32Long o => Sys2Proof.Machine.execCrng32Long o s
  | .extLong o => Sys2Proof.Machine.execExtLong o s
  | .depLong o => Sys2Proof.Machine.execDepLong o s
  | .moviLong o => Sys2Proof.Machine.execMoviLong o s
  | .movihLong o => Sys2Proof.Machine.execMovihLong o s
  | .cmpLong cond o => Sys2Proof.Machine.execCmpLong cond o s
  | .tstLong wantZero o => Sys2Proof.Machine.execTstLong wantZero o s
  | .selLong o => Sys2Proof.Machine.execSelLong o s
  | .waitt t n => Sys2Proof.Machine.execWaitt t n s
  | .sigt t n => Sys2Proof.Machine.execSigt t n s
  | .pfx p => Sys2Proof.Machine.execPfx p s
  | .pbr b disp => Sys2Proof.Machine.execPbr b disp s
  | .pbrs b a => Sys2Proof.Machine.execPbrs b a s
  | .br b p n u => Sys2Proof.Machine.execBr b p n u s
  | .call b slide => Sys2Proof.Machine.execCall b slide s
  | .ret slide => Sys2Proof.Machine.execRet slide s
  | .loopImm level count lines => Sys2Proof.Machine.execLoopImm level count lines s
  | .loopReg level a lines => Sys2Proof.Machine.execLoopReg level a lines s
  | .lbrk level p n => Sys2Proof.Machine.execLbrk level p n s
  | .ovl n => Sys2Proof.Machine.execOvl n s
  | .penlift map => Sys2Proof.Machine.execPenlift map s
  | .waitc delay => Sys2Proof.Machine.execWaitc delay s
  | .waitcUntil a => Sys2Proof.Machine.execWaitcUntil a s
  | .trap arg => Sys2Proof.Machine.execTrap arg s
  | .rdid sel d => Sys2Proof.Machine.execRdid sel d s
  | .rdclk d => Sys2Proof.Machine.execRdclk d s
  | .csrrd csr d => Sys2Proof.Machine.execCsrrd csr d s
  | .csrwr csr a => Sys2Proof.Machine.execCsrwr csr a s
  | .brk code => Sys2Proof.Machine.execBrk code s
  | .ld size z d base disp => Sys2Proof.Machine.execLd size z d base disp s
  | .st size d base disp => Sys2Proof.Machine.execSt size d base disp s
  | .fence mask => Sys2Proof.Machine.execFence mask s
  | .sfence scope mask => Sys2Proof.Machine.execSfence scope mask s
  | .probe slot a d => Sys2Proof.Machine.execProbe slot a d s
  | .unpin slot => Sys2Proof.Machine.execUnpin slot s
  | .ldLong o => Sys2Proof.Machine.execLdLong o s
  | .stLong o => Sys2Proof.Machine.execStLong o s
  | .spill o => Sys2Proof.Machine.execSpill o s
  | .fill o => Sys2Proof.Machine.execFill o s
  | .ldx o => Sys2Proof.Machine.execLdx o s
  | .stx o => Sys2Proof.Machine.execStx o s
  | .atomAdd o => Sys2Proof.Machine.execAtomAdd o s
  | .atomMin o => Sys2Proof.Machine.execAtomMin o s
  | .atomMax o => Sys2Proof.Machine.execAtomMax o s
  | .atomAnd o => Sys2Proof.Machine.execAtomAnd o s
  | .atomOr o => Sys2Proof.Machine.execAtomOr o s
  | .atomXor o => Sys2Proof.Machine.execAtomXor o s
  | .atomXchg o => Sys2Proof.Machine.execAtomXchg o s
  | .atomCas o => Sys2Proof.Machine.execAtomCas o s
  | .atomFadd o => Sys2Proof.Machine.execAtomFadd o s
  | .atomMinZ o => Sys2Proof.Machine.execAtomMinZ o s
  | .atomMaxZ o => Sys2Proof.Machine.execAtomMaxZ o s
  | .ratomAdd o => Sys2Proof.Machine.execRatomAdd o s
  | .ratomMin o => Sys2Proof.Machine.execRatomMin o s
  | .ratomMax o => Sys2Proof.Machine.execRatomMax o s
  | .ratomAnd o => Sys2Proof.Machine.execRatomAnd o s
  | .ratomOr o => Sys2Proof.Machine.execRatomOr o s
  | .ratomXor o => Sys2Proof.Machine.execRatomXor o s
  | .ratomXchg o => Sys2Proof.Machine.execRatomXchg o s
  | .ratomCas o => Sys2Proof.Machine.execRatomCas o s
  | .ratomFadd o => Sys2Proof.Machine.execRatomFadd o s
  | .ratomMinZ o => Sys2Proof.Machine.execRatomMinZ o s
  | .ratomMaxZ o => Sys2Proof.Machine.execRatomMaxZ o s
  | .waita cond o => Sys2Proof.Machine.execWaita cond o s
  | .vadd o => Sys2Proof.Machine.execVadd o s
  | .vsub o => Sys2Proof.Machine.execVsub o s
  | .vmul o => Sys2Proof.Machine.execVmul o s
  | .vfma o => Sys2Proof.Machine.execVfma o s
  | .vfms o => Sys2Proof.Machine.execVfms o s
  | .vneg o => Sys2Proof.Machine.execVneg o s
  | .vabs o => Sys2Proof.Machine.execVabs o s
  | .vmin o => Sys2Proof.Machine.execVmin o s
  | .vmax o => Sys2Proof.Machine.execVmax o s
  | .vcmp o => Sys2Proof.Machine.execVcmp o s
  | .vsel o => Sys2Proof.Machine.execVsel o s
  | .vcvt o => Sys2Proof.Machine.execVcvt o s
  | .vrcp o => Sys2Proof.Machine.execVrcp o s
  | .vrsq o => Sys2Proof.Machine.execVrsq o s
  | .vsqrt o => Sys2Proof.Machine.execVsqrt o s
  | .vexp2 o => Sys2Proof.Machine.execVexp2 o s
  | .vlog2 o => Sys2Proof.Machine.execVlog2 o s
  | .vsum o => Sys2Proof.Machine.execVsum o s
  | .vmaxr o => Sys2Proof.Machine.execVmaxr o s
  | .vminr o => Sys2Proof.Machine.execVminr o s
  | .vdot o => Sys2Proof.Machine.execVdot o s
  | .vclamp o => Sys2Proof.Machine.execVclamp o s
  | .vscl o => Sys2Proof.Machine.execVscl o s
  | .viadd o => Sys2Proof.Machine.execViadd o s
  | .visub o => Sys2Proof.Machine.execVisub o s
  | .vimul o => Sys2Proof.Machine.execVimul o s
  | .vshl o => Sys2Proof.Machine.execVshl o s
  | .vshr o => Sys2Proof.Machine.execVshr o s
  | .vand o => Sys2Proof.Machine.execVand o s
  | .vor o => Sys2Proof.Machine.execVor o s
  | .vxor o => Sys2Proof.Machine.execVxor o s
  | .vshuf o => Sys2Proof.Machine.execVshuf o s
  | .vbcast o => Sys2Proof.Machine.execVbcast o s
  | .vslide o => Sys2Proof.Machine.execVslide o s
  | .vzip o => Sys2Proof.Machine.execVzip o s
  | .vunzip o => Sys2Proof.Machine.execVunzip o s
  | .dqntSurvey o => Sys2Proof.Machine.execDqntSurvey o s
  | .dqntHead o => Sys2Proof.Machine.execDqntHead o s
  | .dqntQ o => Sys2Proof.Machine.execDqntQ o s
  | .ddq o => Sys2Proof.Machine.execDdq o s
  | .dscale o => Sys2Proof.Machine.execDscale o s
  | .mma o => Sys2Proof.Machine.execMma o s
  | .wld o => Sys2Proof.Machine.execWld o s
  | .accz o => Sys2Proof.Machine.execAccz o s
  | .accrd o => Sys2Proof.Machine.execAccrd o s
  | .accwr o => Sys2Proof.Machine.execAccwr o s
  | .accadd o => Sys2Proof.Machine.execAccadd o s
  | .accsc o => Sys2Proof.Machine.execAccsc o s
  | .cpy o => Sys2Proof.Machine.execCpy o s
  | .cpyh o => Sys2Proof.Machine.execCpyh o s
  | .cpyw o => Sys2Proof.Machine.execCpyw o s
  | .cpyt o => Sys2Proof.Machine.execCpyt o s
  | .gath o => Sys2Proof.Machine.execGath o s
  | .scat o => Sys2Proof.Machine.execScat o s
  | .cpysf o => Sys2Proof.Machine.execCpysf o s
  | .sigw o => Sys2Proof.Machine.execSigw o s
  | .bcst o => Sys2Proof.Machine.execBcst o s
  | .coll o => Sys2Proof.Machine.execColl o s
  | .inkc o => Sys2Proof.Machine.execInkc o s
  | .inkf o => Sys2Proof.Machine.execInkf o s
  | .timld o => Sys2Proof.Machine.execTimld o s
  | .send o => Sys2Proof.Machine.execSend o s
  | .sendi o => Sys2Proof.Machine.execSendi o s
  | .recv o => Sys2Proof.Machine.execRecv o s
  | .recvw o => Sys2Proof.Machine.execRecvw o s
  | .bar n => Sys2Proof.Machine.execBar n s
  | .bara n => Sys2Proof.Machine.execBara n s
  | .barw n => Sys2Proof.Machine.execBarw n s
  | .privilegedOnChipMapWrite addr size value => Sys2Proof.Machine.execPrivilegedOnChipMapWrite addr size value s
  | .stackTemperatureRefreshDemand stack demand => Sys2Proof.Machine.execStackTemperatureRefreshDemand stack demand s
  | .controlStateParityError n fx fy => Sys2Proof.Machine.execControlStateParityError n fx fy s
  | .giferLinkDown link => Sys2Proof.Machine.execGiferLinkDown link s
  | .lineDispatch => Sys2Proof.Machine.execLineDispatch s
  | .crossingWordCompletion => Sys2Proof.Machine.execCrossingWordCompletion s
  | .targetBufferFill => Sys2Proof.Machine.execTargetBufferFill s
  | .sliceWriteLanding => Sys2Proof.Machine.execSliceWriteLanding s
  | .nevWindowStart => Sys2Proof.Machine.execNevWindowStart s
  | .waitcDelayExpiry => Sys2Proof.Machine.execWaitcDelayExpiry s
  | .mmaChunkStart => Sys2Proof.Machine.execMmaChunkStart s
  | .mmaLanding => Sys2Proof.Machine.execMmaLanding s
  | .ceLineRequest => Sys2Proof.Machine.execCeLineRequest s
  | .hbmSlotAccess => Sys2Proof.Machine.execHbmSlotAccess s
  | .hostSlotAccess => Sys2Proof.Machine.execHostSlotAccess s
  | .lineLanding => Sys2Proof.Machine.execLineLanding s
  | .lateLandingFreeze => Sys2Proof.Machine.execLateLandingFreeze s
  | .postedWriteCompletion => Sys2Proof.Machine.execPostedWriteCompletion s
  | .completionSignalWrite => Sys2Proof.Machine.execCompletionSignalWrite s
  | .flitHop => Sys2Proof.Machine.execFlitHop s
  | .messageArrival => Sys2Proof.Machine.execMessageArrival s
  | .ratomHomePerform => Sys2Proof.Machine.execRatomHomePerform s
  | .ratomReplyLanding => Sys2Proof.Machine.execRatomReplyLanding s
  | .barrierCompletion => Sys2Proof.Machine.execBarrierCompletion s
  | .collResultLanding => Sys2Proof.Machine.execCollResultLanding s
  | .inkwellFill => Sys2Proof.Machine.execInkwellFill s
  | .inkwellCopy => Sys2Proof.Machine.execInkwellCopy s
  | .inkwellAxpby => Sys2Proof.Machine.execInkwellAxpby s
  | .inkwellSgdwf => Sys2Proof.Machine.execInkwellSgdwf s
  | .inkwellMomwf => Sys2Proof.Machine.execInkwellMomwf s
  | .inkwellRqnt => Sys2Proof.Machine.execInkwellRqnt s
  | .inkwellDigest => Sys2Proof.Machine.execInkwellDigest s
  | .inkwellStatusLanding => Sys2Proof.Machine.execInkwellStatusLanding s
  | .waitaWake => Sys2Proof.Machine.execWaitaWake s
  | .tileHalted => Sys2Proof.Machine.execTileHalted s
  | .folioCommit => Sys2Proof.Machine.execFolioCommit s
  | .folioEviction => Sys2Proof.Machine.execFolioEviction s
  | .penliftOverdue => Sys2Proof.Machine.execPenliftOverdue s
  | .launchTimeout => Sys2Proof.Machine.execLaunchTimeout s
  | .localHandlerEntry => Sys2Proof.Machine.execLocalHandlerEntry s
  | .trapPostToHost => Sys2Proof.Machine.execTrapPostToHost s
  | .probeResolve => Sys2Proof.Machine.execProbeResolve s
  | .launchRecord => Sys2Proof.Machine.execLaunchRecord s
  | .preemptRecord => Sys2Proof.Machine.execPreemptRecord s
  | .resumeRecord => Sys2Proof.Machine.execResumeRecord s
  | .tileRelease => Sys2Proof.Machine.execTileRelease s
  | .channelClearSweep => Sys2Proof.Machine.execChannelClearSweep s
  | .retireTile => Sys2Proof.Machine.execRetireTile s
  | .restoreTile => Sys2Proof.Machine.execRestoreTile s
  | .retireChannel => Sys2Proof.Machine.execRetireChannel s
  | .retrainGiferLink => Sys2Proof.Machine.execRetrainGiferLink s
  | .retireGiferLink => Sys2Proof.Machine.execRetireGiferLink s
  | .keyRotationComplete => Sys2Proof.Machine.execKeyRotationComplete s
  | .migratePage => Sys2Proof.Machine.execMigratePage s
  | .migrationLineCopy => Sys2Proof.Machine.execMigrationLineCopy s
  | .signetEvidence => Sys2Proof.Machine.execSignetEvidence s
  | .signetImportKey => Sys2Proof.Machine.execSignetImportKey s
  | .signetGenerateKey => Sys2Proof.Machine.execSignetGenerateKey s
  | .signetReadCertChain => Sys2Proof.Machine.execSignetReadCertChain s
  | .warningWindowStart => Sys2Proof.Machine.execWarningWindowStart s
  | .ckptStart => Sys2Proof.Machine.execCkptStart s
  | .ckptArm => Sys2Proof.Machine.execCkptArm s
  | .ckptDisarm => Sys2Proof.Machine.execCkptDisarm s
  | .ckptAbort => Sys2Proof.Machine.execCkptAbort s
  | .ckptSnapshot => Sys2Proof.Machine.execCkptSnapshot s
  | .ckptCopyLine => Sys2Proof.Machine.execCkptCopyLine s
  | .debugStop => Sys2Proof.Machine.execDebugStop s
  | .debugResume => Sys2Proof.Machine.execDebugResume s
  | .debugStopAtCycle => Sys2Proof.Machine.execDebugStopAtCycle s
  | .debugCycleReached => Sys2Proof.Machine.execDebugCycleReached s
  | .armBrk => Sys2Proof.Machine.execArmBrk s
  | .disarmBrk => Sys2Proof.Machine.execDisarmBrk s
  | .traceCaptureEnd => Sys2Proof.Machine.execTraceCaptureEnd s
  | .snapshotFolio => Sys2Proof.Machine.execSnapshotFolio s
  | .snapshotPackage => Sys2Proof.Machine.execSnapshotPackage s
  | .fwStage => Sys2Proof.Machine.execFwStage s
  | .fwActivate => Sys2Proof.Machine.execFwActivate s
  | .clockStepUp => Sys2Proof.Machine.execClockStepUp s
  | .nop => Sys2Proof.Machine.execNop s
  | .halt => Sys2Proof.Machine.execHalt s
  | .ifence => Sys2Proof.Machine.execIfence s
  | .tret => Sys2Proof.Machine.execTret s
  | .perstAssertion => Sys2Proof.Machine.execPerstAssertion s

end Sys2Proof.Machine
end

