-- ==== Sys2Proof/Machine/Tick.lean ====
section
/-! DEFINITION. How steps follow one another (R120, R414; log 3): a tick of wall time, the hub's part of it, and the next
slot of the agenda. -/

namespace Sys2Proof.Machine

/-- Whether a row stands for something that comes from outside the device: only these are taken from the inputs (log 6). -/
def fromOutside (i : Instr) : Bool :=
  match i with
  | .externalResultArrival .. | .fack .. | .lqtailWrite .. | .lqownWrite .. | .leaseWrite .. | .vfReset .. | .tlbinv .. => true
  | .keyRotationArm .. | .scrubVisit .. | .ideKmKeyProgram .. | .hostCompletionArrival .. | .cxlMemRead .. | .cxlMemWrite .. => true
  | .errchWrite .. | .errlnkWrite .. | .traceTriggerNow .. | .profcntLowRead .. | .bringUp .. | .supplyDroop .. => true
  | .giferFlitReceive .. | .registerWrite .. | .privilegedOnChipMapWrite .. | .stackTemperatureRefreshDemand .. => true
  | .controlStateParityError .. | .giferLinkDown .. | .perstAssertion => true
  | _ => false

/-- The IDE stream that a row from outside comes on (R448, log 8): a function's own, the physical function's, or the link's for
CXL.mem; none for what comes on no stream. -/
def State.streamOf (s : State) (i : Instr) : Option Nat :=
  match i with
  | .fack f _ | .tlbinv f _ | .keyRotationArm f _ | .vfReset f | .registerWrite f _ _ | .profcntLowRead f _ _ => some f
  | .lqtailWrite q _ => some (s.queue q).owner
  | .lqownWrite .. | .leaseWrite .. | .errchWrite .. | .errlnkWrite .. | .traceTriggerNow .. => some 0
  | .privilegedOnChipMapWrite .. | .ideKmKeyProgram .. => some 0
  | .cxlMemRead .. | .cxlMemWrite .. => some 64
  | .hostCompletionArrival id .. | .externalResultArrival id .. =>
    (s.hostReads.find? fun r => r.awaits id).map fun r => ((s.folio? r.folio).map fun g => g.place.func).getD 0
  | _ => none

/-- Whether a row may still come on an insecure stream (R448, log 8): the one that programs its keys. -/
def makesSecure (i : Instr) : Bool :=
  match i with
  | .ideKmKeyProgram .. => true
  | _ => false

/-- The first input once its MAC has been checked (R448): what the hub then does, and the machine. Nothing of a row whose MAC
fails, or that comes on an insecure stream, is used. -/
def State.takeInput (s : State) : List Instr × State :=
  match s.inputs with
  | [] => ([], s)
  | x :: r =>
    let s := { s with inputs := r }
    if !fromOutside x.row then ([], s)
    else match s.streamOf x.row with
      | none => ([x.row], s)
      | some n =>
        if !x.mac then ([], s.macFailed n (n % 64))
        else if s.insecure n && !makesSecure x.row then ([], s)
        else ([x.row], s)

/-- The service command that waits, as a step (R428, R429). -/
def State.service (s : State) : List Slot := if s.dev.svcstat = 1 then (s.dev.svcRow.map (.act s.cursor)).toList else []

/-- A tick of wall time begins. What the hub does first in it, in the order of R414: releases, a pending service command, then one
outside event; since a function's reset releases tiles itself (R426), a command that still waits acts after it, before the grant. -/
def State.tick (s : State) : State :=
  let r := ({ s with wall := s.wall + 1 } : State).takeInput
  let act (i : Instr) : Slot := .act s.cursor i
  { r.2 with agenda := (if s.releasing.isEmpty then [] else [act .tileRelease]) ++ [.service] ++ r.1.map act
      ++ [.service, .hub] }

/-- Whether a warning window starts (R478). -/
def State.windowStarts (s : State) : Bool :=
  let n := errWin s.dram.errcfg
  n != 0 && s.wall % (1800000 * n) == 0

/-- Whether the clock may rise by a step (R511). -/
def State.mayStepUp (s : State) : Bool :=
  s.dev.steps != 0 && !s.dev.droop && s.dev.hot.isEmpty && decide (s.dev.stepAt + 1800 ≤ s.wall)

/-- Whether the copier has a request of a world (R425): a checkpoint's lines, or a migrating page. -/
def State.copies (s : State) (f : Nat) : Bool := (s.func f).ckstate == 2 || (s.mig.state == 1 && s.mig.func == f)

/-- The copier serves one world until it has completed its requests (R425). -/
def State.pickCopier (s : State) : State :=
  let w := match s.dev.copier with
    | some f => if s.copies f then some f else (List.range 64).find? s.copies
    | none => (List.range 64).find? s.copies
  { s with dev := { s.dev with copier := w } }

/-- Whether a checkpoint that a warning has called for may start (R479, R482). -/
def FuncRegs.startsNext (r : FuncRegs) : Bool := !r.ckwait.isEmpty && r.ckgo.isNone && r.ckstate != 1 && r.ckstate != 2

/-- The hub's work in the background of a tick (R421, R425, R442, R447, R478, R479, R484, R511, R515). -/
def State.background (s : State) : List Slot :=
  let act (b : Bool) (i : Instr) : List Slot := if b then [.act s.cursor i] else []
  let mine (f : Nat) : Bool := s.dev.copier == some f
  act ((List.range 256).any s.sweeps) .channelClearSweep
  ++ act (s.mig.state == 1 && mine s.mig.func) .migrationLineCopy
  ++ (s.funcs.toList.filter fun r => r.ckstate == 2 && mine r.func).map (fun r => Slot.act { s.cursor with func := r.func } .ckptCopyLine)
  ++ (s.funcs.toList.filter FuncRegs.startsNext).map (fun r => Slot.act { s.cursor with func := r.func } .ckptStart)
  ++ act (s.trust.activating.isSome && !s.fwWaits) .fwActivate
  ++ act ((List.range 64).any fun f => s.rotationOver f) .keyRotationComplete
  ++ act s.windowStarts .warningWindowStart
  ++ act s.mayStepUp .clockStepUp

/-- A tick of the package clock, which is lowered by sixteenths (R136, R511): whether the folios' clocks tick. -/
def State.clock (s : State) : Bool × State :=
  let p := s.dev.phase + (16 - s.dev.steps)
  (decide (16 ≤ p), { s with dev := { s.dev with phase := if 16 ≤ p then p - 16 else p } })

/-- The hub's decision (R166, R414), its background work, and the cycle of every folio (R120). -/
def State.hubStage (s : State) : State :=
  let s := s.grantNext.pickCopier
  let r := s.clock
  let s := r.2
  { s with agenda := s.agenda ++ s.background ++ if r.1 then s.folios.flatMap Folio.tickSlots else [] }

/-- The next slot of the agenda is done (log 3): run is the table of meanings. -/
def State.runSlot (s : State) (run : Instr → State → Host.Outcome State Fault Refusal) : Host.Outcome State Fault Refusal :=
  match s.agenda with
  | [] => .next s.tick
  | x :: r =>
    let s := { s with agenda := r }
    match x with
    | .act c i => run i { s with cursor := c }
    | .issue c => ({ s with cursor := c } : State).runHead run
    | .reissue c =>
      let s : State := { s with cursor := c }
      if s.fencedHere then s.runHead run else .next s
    | .stage p f => .next (s.stage p f)
    | .service => .next { s with agenda := s.service ++ s.agenda }
    | .hub => .next s.hubStage

/-- The raw words of a table's instruction: the first from bit 0 on, the second from bit 32 on (log 4). -/
def tableWords (nbits w : Nat) : Word × Word := (BitVec.ofNat 32 (w % 2 ^ nbits), BitVec.ofNat 32 ((w % 2 ^ nbits) >>> 32))

/-- A folio of one tile whose queue holds one entry at its head, with a full budget and the cycle's grants given (log 5). -/
def folioOfWords (q : Queue) (w : Word × Word) : Folio :=
  let t := Tile.cleared
  let e : Entry := { line := 0, lane := 1, seq := 0, w0 := w.1, w1 := w.2, disp := 0, marker := none, arms := [] }
  let t := { t with
    ctl := t.ctl.setEntries q [e]
    csr := { t.csr with ebal := 2 ^ 24 - 1, erate := 1, ecap := 2 ^ 24 - 1, hlat := 1024 }
    avail := 2 ^ 24 - 1, granted := allQueues, apGo := true }
  let p : Place := { idx := 0, w := 1, h := 1, seam := 0, orient := 0, px0 := 0, py0 := 0, func := 0, chans := [] }
  { folioAt p (launchOf 0 0 0) [] [t] with cycle := 16 }

/-- The state with a table's instruction at the head of its queue, which the next step issues (log 5). -/
def State.placeWords (s : State) (nbits w : Nat) : State :=
  let x := tableWords nbits w
  let q := ((decodeFirst x.1 x.2).map Prod.fst).getD .sq
  { s with folios := folioOfWords q x :: s.folios.filter (fun f => f.place.idx != 0), agenda := [.issue ⟨0, 0, q, 0⟩] }

end Sys2Proof.Machine
end

