-- ==== Sys2Proof/Safety.lean ====
section
/-! DEFINITION. What counts as a sound state, a safe step, an instruction that issues and one that completes, in the terms
that statements use. -/

namespace Sys2Proof.Machine

/-- A step that stops nowhere. -/
def Safe (s : State) : Prop := ∃ s', step s = .next s'

/-- The canonical form of host memory and of HBM (log 2). -/
def State.memWf (s : State) : Prop := s.hostMem.wf ∧ s.dram.hbm.wf

/-- The canonical form of a tile's stores (log 2). -/
def Tile.memWf (t : Tile) : Prop := t.stores.mem.wf

/-- The canonical form of every memory that the machine holds (log 2). -/
def State.allWf (s : State) : Prop :=
  s.memWf ∧ (∀ f ∈ s.folios, ∀ t ∈ f.tiles, t.memWf) ∧ ∀ x ∈ s.idle, x.2.wf

/-- What an issuing instruction pays: nothing inside a handler, whose cycles move no energy (R465), else its debit (R135). -/
def Info.cost (n : Info) (c : Ctx) : Nat := if c.hand then 0 else n.debit c

/-- The conditions on the state and the operands under which the instruction at the cursor, described by n, issues with its
own effect. -/
structure Issues (s : State) (f : Folio) (t : Tile) (c : Ctx) (n : Info) : Prop where
  /-- The cursor names a tile of a running folio. -/
  here : s.at? = some (f, t, c)
  /-- No wait holds the head's queue (R137, R154, R296, R353, R392). -/
  free : t.queueHeld c = false
  /-- The fields are legal (R52). -/
  legal : n.cause = none
  /-- No source slice and no source predicate is pending (R88, R89). -/
  ready : t.violation c n = false
  /-- No fence at the head of AP holds the access's class (R354). -/
  unfenced : ∀ a, n.acc = some a → maskHolds t.fenceMask (c.cls a) = false
  /-- The balance covers the debit, and no earlier queue of the cycle is short of energy (R135). -/
  paid : c.hand = true ∨ n.debit c = 0 ∨ (t.blocked = false ∧ n.debit c ≤ t.avail)
  /-- A PFX names only what the instruction accepts, and its wc finds no source wider than the destination (R70). -/
  accepts : ∀ p, c.pfx = some p → misuse p n = false ∧ (p.wc = true → ∀ w ∈ n.wides, w.1 ≤ w.2)
  /-- A handler runs it only where handlers may (R466). -/
  allowed : c.hand = true → n.hand = true
  /-- Every span lies in the slice file (R83). -/
  inside : ∀ p ∈ n.srcs ++ n.dsts, p.1 + p.2 ≤ 4096
  /-- A handler touches no slice that the folio still has to write (R466). -/
  settled : t.folioPending c n = none
  /-- Every source granule can be corrected (R475). -/
  sound : t.badSlice n.srcs = none

/-- No predicate that the effect g writes inside a handler still awaits a write of the folio (R466). -/
def Tile.predsApart (t : Tile) (c : Ctx) (g : Tile) : Prop := t.folioPreds c (g.pend.drop t.pend.length) = none

/-- Instruction i, described by n, completes with the effect g wherever it issues and ok holds: the entry leaves its queue
with its PFX, its debit is paid, and nothing else changes. -/
def Completes (i : Instr) (n : Tile → Info) (ok : Ctx → Tile → Prop) (g : Ctx → Tile → Tile) : Prop :=
  ∀ s f t c, Issues s f t c (n t) → ok c t → t.predsApart c (g c t) → exec i s = .next (s.putTile f ((g c t).issued c ((n t).cost c)))

/-- Instruction i, described by n, traps with r wherever it would issue and bad holds: it writes nothing and keeps its place
(R460). -/
def Traps (i : Instr) (n : Tile → Info) (bad : Ctx → Tile → Prop) (r : Ctx → Tile → Raise) : Prop :=
  ∀ s f t c, Issues s f t c (n t) → bad c t →
    exec i s = .next (s.putTile f { t.addRaise (c.inHand (r c t)) with ctl := { t.ctl with pfx := none } })

/-- A condition that always holds. -/
def always (_ : Ctx) (_ : Tile) : Prop := True

/-- A short form over w<a> and w<b> (R228) that lands r of its saturation and their values in w<d> with tag 0 at issue + lat,
with r's event (R85, R86, R95, R199). least is its least energy class (R225), sv whether it accepts saturation (R224). -/
def ShortResult (i : Instr) (least : Nat) (sv : Bool) (d a b : BitVec 7) (lat : Nat) (r : Bool → Nat → Nat → Rounded) : Prop :=
  Completes i (short3Info least sv d a b) always fun c t =>
    t.later c lat (.slices (t.win d) 8 (r c.sat (t.word a) (t.word b)).1 0) (evOf (r c.sat (t.word a) (t.word b)).2)

/-- The same for a short form over w<a> alone, at issue + 1. -/
def ShortResult1 (i : Instr) (sv : Bool) (d a : BitVec 7) (r : Bool → Nat → Rounded) : Prop :=
  Completes i (short2Info sv d a) always fun c t =>
    t.later c 1 (.slices (t.win d) 8 (r c.sat (t.word a)).1 0) (evOf (r c.sat (t.word a)).2)

/-- An instruction of the integer block, described by what it reads and writes, that posts one write at issue + 1. -/
def BlockPosts (i : Instr) (srcs dsts : Tile → List (Nat × Nat)) (preds : List Nat) (d : Tile → PendDest) : Prop :=
  Completes i (fun t => blockInfo none (srcs t) (dsts t) preds [] 1 0 false) always fun c t => t.later c 1 (d t) []

/-- A legal control word of EXT (R234): its reserved bits are zero; DEP needs bit 18 zero too. -/
def controlOk (w : Nat) : Bool := decide (w < 2 ^ 19) && !w.testBit 11

/-- The field of a under a control word, extended to w bits (R234, R235). -/
def extField (w a ctl : Nat) : Nat :=
  let len := ctl / 2 ^ 12 % 2 ^ 6 + 1
  let x : Nat := a / 2 ^ (ctl % 2 ^ 11) % 2 ^ len
  if ctl.testBit 18 = false ∧ x.testBit (len - 1) = true then ofSigned w ((x : Int) - 2 ^ len) else x % 2 ^ w

/-- d with the low bits of a in the field of a control word (R234, R236). -/
def depField (w d a ctl : Nat) : Nat :=
  let len := ctl / 2 ^ 12 % 2 ^ 6 + 1
  let pos := ctl % 2 ^ 11
  (d - d / 2 ^ pos % 2 ^ len * 2 ^ pos + a % 2 ^ len * 2 ^ pos) % 2 ^ w

/-- An instruction of the integer block with a long form o (R58) lands the low bits of a value in d with tag 0 at issue + lat,
with an event. -/
def LongLands (i : Instr) (n : Tile → Info) (o : Long3) (lat : Nat) (r : Ctx → Tile → Rounded) : Prop :=
  Completes i n always fun c t =>
    t.later c lat (.slices o.ds.toNat (o.dBits / 4) ((r c t).1 % 2 ^ o.dBits) 0) (evOf (r c t).2)

/-- A long form whose two sources are extended to the width of d (R85, R223): r gets its saturation and the sources. -/
def LongResult (i : Instr) (least : Nat) (sv : Bool) (o : Long3) (lat : Nat) (r : Bool → Nat → Nat → Rounded) : Prop :=
  LongLands i (long3Info i.cause least sv o) o lat fun c t => r c.sat (o.srcA t o.dBits) (o.srcB t o.dBits)

/-- A long form with one source extended to the width of d. -/
def LongResult1 (i : Instr) (sv : Bool) (o : Long3) (r : Bool → Nat → Rounded) : Prop :=
  LongLands i (long2Info i.cause sv false o) o 1 fun c t => r c.sat (o.srcA t o.dBits)

/-- A long shift: b is the amount, unsigned at its own width (R232). -/
def LongShift (i : Instr) (o : Long3) (r : Nat → Nat → Nat) : Prop :=
  LongLands i (longOwnInfo i.cause true o) o 1 fun _ t => (r (o.srcA t o.dBits) (t.spanBits o.bs.toNat o.bBits), none)

/-- A long bit count: a at its own width (R233). -/
def LongCount (i : Instr) (o : Long3) (r : Nat → Nat → Nat) : Prop :=
  LongLands i (long2Info i.cause false true o) o 1 fun _ t => (r o.aBits (t.spanBits o.as.toNat o.aBits), none)

/-- No queue keeps a PFX as its last entry once the entries after the redirecting one are cancelled (R71). -/
def Tile.noOrphan (t : Tile) (c : Ctx) : Prop :=
  ∀ q e, ((t.ctl.entries q).filter fun e => decide (e.seq ≤ c.e.seq)).getLast? = some e → major e.w0 ≠ 0x5F

/-- Some queue's last entry that survives the cancellation is a PFX, and no crossing word that fetch order puts before the redirect
is still to follow it there (R50, R71). -/
def Tile.orphaned (t : Tile) (c : Ctx) : Prop :=
  ∃ q e, ((t.ctl.entries q).filter fun e => decide (e.seq ≤ c.e.seq)).getLast? = some e ∧ e.marker = none ∧ major e.w0 = 0x5F
    ∧ (∀ o, t.ctl.fetch.owe = some o → o.q = q → c.e.seq ≤ o.seq) ∧ ∀ x ∈ t.ctl.fetch.cross, x.owe.q ≠ q

/-- t' is t after the redirect of R139: every entry behind the redirecting one in fetch order is gone, the others stand, the
prefetch buffer is empty, and slices, stores and tokens are as they were. -/
structure Redirected (t t' : Tile) (c : Ctx) : Prop where
  cancels : ∀ q, t'.ctl.entries q = (t.ctl.entries q).filter fun e => decide (e.seq ≤ c.e.seq)
  empties : t'.ctl.fetch.buf = [] ∧ t'.ctl.fetch.owe = none ∧ t'.ctl.fetch.ifence = 0
  keeps : t'.slices = t.slices ∧ t'.stores = t.stores ∧ t'.tok = t.tok ∧ t'.trap = t.trap ∧ t'.wins = t.wins

/-- After t the target line and the line behind it dispatch, from cycle max(k + 1, fill + 5) on, and then the lines that follow
(R139). -/
def fetchesFrom (t' : Tile) (c : Ctx) (l : Nat) (fill : Int) : Prop :=
  t'.ctl.fetch.direct = [l, l + 1] ∧ t'.ctl.fetch.nextRead = l + 2 ∧ t'.ctl.fetch.running = true
  ∧ (t'.ctl.fetch.directAt : Int) = max ((c.k : Int) + 1) (fill + 5)

/-- Instruction i, described by n, redirects to line l, whose buffer began to fill in cycle fill, wherever it issues and ok
holds, and the tile is then as more says. -/
def Redirects (i : Instr) (n : Tile → Info) (ok : Ctx → Tile → Prop) (l : Ctx → Tile → Nat) (fill : Ctx → Tile → Int)
    (more : Ctx → Tile → Tile → Prop) : Prop :=
  ∀ s f t c, Issues s f t c (n t) → t.noOrphan c → ok c t →
    ∃ t', exec i s = .next (s.putTile f (t'.issued c ((n t).cost c))) ∧ Redirected t t' c ∧ fetchesFrom t' c (l c t) (fill c t)
      ∧ more c t t'

/-- Since when the buffer of a target register has been filling; one that is full delays nothing (R138, R139). -/
def Tile.fillOf (t : Tile) (b : Nat) : Int := if (vget t.ctl.btgt b).full then -5 else (vget t.ctl.btgt b).filled

/-- The line that a target register holds, where it is a line of TIM (R143). -/
def Tile.targetLine (t : Tile) (b : Nat) : Nat := (vget t.ctl.btgt b).line.toNat

/-- A target register that is not marked invalid (R143). -/
def Tile.targetValid (t : Tile) (b : Nat) : Prop := 0 ≤ (vget t.ctl.btgt b).line ∧ (vget t.ctl.btgt b).line ≤ 4095

/-- Nothing more to say of a tile. -/
def nothingMore (_ : Ctx) (_ _ : Tile) : Prop := True

/-- No RATOM that has still to land holds an access of class cls to nb bytes from a (R311, R351). -/
def Tile.noRatom (t : Tile) (c : Ctx) (cls a nb : Nat) : Prop :=
  c.hand = true ∨ ∀ m ∈ t.ap.ratoms, c.k < m.land →
    m.cls ≠ c.cls cls ∧ m.cls ≠ 15 ∧ c.cls cls ≠ 15 ∧ ¬(m.own = true ∧ m.addr < a + nb ∧ a < m.addr + m.w / 8)

/-- An access of class cls to nb bytes from a of own SPAD that nothing holds and no check of R332 and R333 refuses. -/
def Tile.admits (t : Tile) (c : Ctx) (cls a nb : Nat) : Prop :=
  t.noRatom c cls a nb ∧ a + nb ≤ 0xF8000 ∧ a % alignOf nb = 0

/-- The value of nb bytes of a tile's stores, the first byte lowest (R21). -/
def Tile.littleEndian (t : Tile) (a nb : Nat) : Nat := ((List.range nb).map fun i => (t.byte (a + i)).toNat * 256 ^ i).sum

/-- An instruction i of the AP, described by n, that accesses nb bytes from a of own SPAD: it adds the access given, traps with
cause 45 outside program SPAD and with cause 46 where it is misaligned (R332 to R334). -/
def Accesses (i : Instr) (n : Tile → Info) (cls : Nat) (a : Tile → Nat) (nb : Nat) (more : Ctx → Tile → Prop)
    (kind : Ctx → Tile → ApKind) : Prop :=
  Completes i n (fun c t => t.admits c cls (a t) nb ∧ more c t) (fun c t => t.access c cls (kind c t))
  ∧ Traps i n (fun c t => t.noRatom c cls (a t) nb ∧ more c t ∧ 0xF8000 < a t + nb) (fun c t => c.raiseInfo 45 (a t) 0)
  ∧ Traps i n (fun c t => t.noRatom c cls (a t) nb ∧ more c t ∧ a t + nb ≤ 0xF8000 ∧ a t % alignOf nb ≠ 0)
    (fun c t => c.raiseInfo 46 (a t) 0)

/-- The classes that a fence's mask selects: those in it, and class 15 for every mask but 0 (R313). -/
def Selects (mask cls : Nat) : Prop := mask ≠ 0 ∧ (mask.testBit cls = true ∨ cls = 15)

/-- A posted line counts d cycles after its slot's start: at once for FENCE (R354), and for SFENCE of a scope where R355's table says so. -/
def CountsAfter (scope : Option Nat) (host : Bool) (hlat d : Nat) : Prop :=
  match scope, host with
  | none, _ => d = 0
  | some s, true => s = 3 ∧ d = hlat
  | some s, false => d = if s < 2 then 2 else 240

/-- A command's completion signal word, where it sends one, has performed before cycle k (R370). -/
def CeCmd.Signalled (m : CeCmd) (k : Nat) : Prop :=
  m.sig ≠ none → m.fn ≠ 7 → m.stop = none → ∃ l, m.sland = some l ∧ l < k

/-- Every access that the tile's queues issued before cycle k with a class that a mask selects has performed every unit before k, or
reached the readers of the scope (R313, R354, R355). -/
structure Tile.Quiet (t : Tile) (k mask : Nat) (scope : Option Nat) : Prop where
  /-- Loads, stores and local atomics. -/
  accesses : ∀ a ∈ t.ap.accs, a.hand = false → a.issue < k → Selects mask a.cls → a.perf < k
  /-- Remote atomics, at their landing. -/
  atomics : ∀ r ∈ t.ap.ratoms, r.issue < k → Selects mask r.cls → r.land < k
  /-- Writes of the matrix engine. -/
  writes : ∀ p ∈ t.mx.pend, p.issue < k → Selects mask p.cls → p.land < k
  /-- An MMA under way. -/
  multiply : ∀ m, t.mx.mma = some m → m.issue < k → ¬Selects mask m.cls
  /-- SENDs whose flit has not left the tile. -/
  sends : ∀ x ∈ t.net.router.inj, ∀ q n v i cls, x.pay = .message q n v i cls → i < k → ¬Selects mask cls
  /-- Receives. -/
  receives : ∀ r ∈ t.net.recvs, r.issue < k → Selects mask r.cls → r.land < k
  /-- Commands that post their lines: each read has left the request stage, each line that the scope awaits has been bound and counts. -/
  posted : ∀ m ∈ t.ce.cmds, m.issue < k → Selects mask m.cls → m.fn = 2 ∨ m.fn = 5 ∧ m.mod = 0 →
    (m.stop = none → m.q0 + m.total ≤ k) ∧ m.Signalled k
    ∧ (∀ b, m.kind = .block b → ∀ x ∈ b.wq, ∀ d, ¬CountsAfter scope (inHostWindow x.1) t.csr.hlat d)
    ∧ ∀ l ∈ t.ce.lines, l.cmd = m.id → l.route = .write → ∀ d, CountsAfter scope (inHostWindow l.pa) t.csr.hlat d → l.start + d < k
  /-- Commands that complete in a cycle of their own. -/
  others : ∀ m ∈ t.ce.cmds, m.issue < k → Selects mask m.cls → ¬(m.fn = 2 ∨ m.fn = 5 ∧ m.mod = 0) →
    m.e ≠ none ∧ m.perf < k ∧ m.Signalled k

/-- The description of a vector instruction (R252 to R257). -/
def vecInfo (i : Instr) (o : LongVec) (least : Nat) (rv sv : Bool) (srcs : List (Nat × Nat)) : Info :=
  { cause := i.cause, srcs := srcs, dsts := [(4 * o.ds.toNat, o.dBits / 4)], preds := [], wides := [], cls := o.ecl.toNat
    least := if 256 < o.dBits ∨ 256 < o.aBits ∨ 256 < o.bBits then 2 else least
    rv := rv, sv := sv, ov := false, acc := none, hand := true }

/-- Every granule of every source carries a tag that its reader accepts (R97, R253). -/
def Tile.tagsFit (t : Tile) (needs : List TagNeed) : Prop :=
  ∀ p ∈ needs, ∀ g ∈ granules p.1.1 p.1.2, t.slices.tag g ∈ p.2

/-- A vector instruction i lands its value and its events in all of d at issue + lat, with a tag, or raises cause 19 for the
first granule, source by source, whose tag its reader does not accept (R97, R253 to R257). -/
def VectorLands (i : Instr) (o : LongVec) (lat least : Nat) (rv sv : Bool) (srcs : List (Nat × Nat)) (needs : List TagNeed)
    (tag : Tile → Nat) (r : Ctx → Tile → Nat × List (Nat × Nat)) : Prop :=
  Completes i (fun _ => vecInfo i o least rv sv srcs) (fun _ t => t.tagsFit needs) (fun c t =>
    t.later c lat (.slices (4 * o.ds.toNat) (o.dBits / 4) (r c t).1 (BitVec.ofNat 5 (tag t))) (r c t).2)
  ∧ ∀ l p l' g, needs = l ++ p :: l' → Traps i (fun _ => vecInfo i o least rv sv srcs)
      (fun _ t => t.tagsFit l ∧ t.slices.badTag p.1.1 p.1.2 p.2 = some g) (fun c t => c.raiseInfo 19 g (t.slices.tag g))

/-- A copy instruction i of function number fn over the descriptor that o names starts its command where its checks pass, and
traps with the lowest of its faults where they do not (R361 to R377). -/
def CopyStarts (i : Instr) (o : CopyOp) (fn least : Nat) : Prop :=
  ∀ (s : State) (f : Folio) (t : Tile) (c : Ctx),
    let n : Info := ceInfo i.cause o least true false
    let d : Nat := t.desc o
    let md : Nat := o.mod.toNat
    Issues s f t c n → ceHold o (fun c t => t.copyExts c fn o.mod.toNat (t.desc o)) c t = none →
    (lowestFault (t.copyFaults c fn md d) = none →
      ∃ (t' : Tile) (m : CeCmd), exec i s = .next (s.putTile f (t'.issued c (n.cost c)))
        ∧ t'.ce.cmds = t.ce.cmds ++ [m] ∧ t'.ce.lines = t.ce.lines ∧ t'.stores = t.stores ∧ t'.slices = t.slices
        ∧ m.fn = fn ∧ m.mod = md ∧ m.desc = d ∧ m.issue = c.k ∧ m.cls = c.cls o.ocl.toNat ∧ m.stop = none ∧ m.fault = []
        ∧ m.q0 = max (c.k + 1) t.ce.lastReq ∧ m.left = m.total ∧ m.targets = copyTargets c fn d
        ∧ m.total = (if isBlock fn md then blocksBytes (t.blocks c fn md d) / 64 else copyLines fn d)
        ∧ t'.ce.lastReq = m.q0 + m.total
        ∧ m.e = (if usesLat fn md then some (if fn = 6 then c.k + dLat d else c.k + dLat d + m.total - 1) else none)
        ∧ m.sig = (if dSv d then
            some ⟨(winTarget c (dSigAddr d)).1, (winTarget c (dSigAddr d)).2, dSoff d, dSval d⟩ else none)
        ∧ (isBlock fn md = false → m.kind = .plain))
    ∧ ∀ x : CeFault, lowestFault (t.copyFaults c fn md d) = some x →
      exec i s = .next (s.putTile f { t.addRaise (c.inHand (c.ceRaise x)) with ctl := { t.ctl with pfx := none } })

/-- Row i ends in a next state that p holds of. -/
def Ends (i : Instr) (s : State) (p : State → Prop) : Prop := ∃ s' : State, exec i s = .next s' ∧ p s'

/-- Every record of a queue before record n has completed, and its rings are sized (R160, R163). -/
def LaunchQueue.inOrder (x : LaunchQueue) (n : Nat) : Prop := x.sized = true ∧ x.early = [] ∧ x.done.toNat = n ∧ n < 2 ^ 32 - 1

/-- From s to s' the completion of record n of queue q has been written to its slot, and LQDONE raised (R163). -/
def State.Answers (s s' : State) (q n : Nat) (d : Done) : Prop :=
  (s'.queue q).done.toNat = n + 1
  ∧ s'.hostMem = s.hostMem.writeN ((s.queue q).cbase.toNat / 32 * 32 + n % 2 ^ (s.queue q).log * 32) 32
      ((n + d.status * 2 ^ 32 + d.detail * 2 ^ 40 + d.job.toNat * 2 ^ 64 + d.phase.toNat * 2 ^ 96 + d.cycle % 2 ^ 64 * 2 ^ 128
        + s.nowNs % 2 ^ 64 * 2 ^ 192) % 2 ^ 256)

/-- A folio of s has left its tiles in s', which await their release with the given completion (R170, R176). -/
def State.Gone (s s' : State) (f : Folio) (done : Option (Nat × Nat × Done)) : Prop :=
  s'.folios = s.folios.filter (fun g => g.place.idx != f.place.idx)
  ∧ s'.releasing = s.releasing ++ [⟨f.place, f.launch.job, f.cycle, done, f.stops, f.launch.queue⟩]

/-- The completion of a folio's launch record with a status and a detail (R163, R170). -/
def Folio.completion (f : Folio) (status detail : Nat) : Nat × Nat × Done :=
  (f.launch.queue, f.launch.recNo, ⟨status, detail, f.launch.job, f.launch.phase, f.cycle, f.launch.irq, f.launch.domain, f.launch.epoch⟩)

/-- A line of HBM that a read finds sound, with no error to correct (R421, R446, R474). -/
def State.soundLine (s : State) (pa : Nat) : Prop :=
  let c : Chan := vget s.dram.chans (chanNum pa)
  c.pendingClear (chanLine pa) = false ∧ s.lineFails pa = false ∧ chanLine pa ∉ c.poison ∧ chanLine pa ∉ c.soft

/-- No checkpoint of the function that holds a line's channel is under way (R484). -/
def State.unguarded (s : State) (pa : Nat) : Prop := (s.func (vget s.dram.chans (chanNum pa)).func).ckpt = none

/-- The value of a significand and an exponent. -/
def ratOf (v : Nat × Int) : ℚ := v.1 * 2 ^ v.2

/-- out is x, a positive real, with a sign, rounded into format f: one of x's two neighbours among the format's magnitudes, with N beyond
the largest, as the mode says. Reaching N is an overflow; an inexact result below the smallest normal magnitude of a format that is not an
integer format counts an underflow (R191, R192). -/
def RoundsTo (f : Nat) (r : Rnd) (u : Nat) (scaled neg : Bool) (x : ℝ) (out : Rounded) : Prop :=
  let bey : ℝ := ratOf (beyondMax f neg)
  let top := maxCode f neg
  let a := min x bey
  ∃ c ≤ top,
    let lo : ℝ := ratOf (magValue f c)
    let hi : ℝ := if c = top then bey else ratOf (magValue f (c + 1))
    let up : Prop := match r.rm with
      | 0 => hi - a < a - lo ∨ hi - a = a - lo ∧ (c = top ∨ c % 2 = 1)
      | 1 => False
      | 2 => neg = false
      | 3 => neg = true
      | 4 => hi - a ≤ a - lo
      | _ => (u : ℤ) < ⌊2 ^ 32 * (a - lo) / (hi - lo)⌋
    let small : Prop := fmtIsInt f = false ∧ a < (2 : ℝ) ^ minNormExp f
    lo ≤ a ∧ a ≤ hi ∧ (a = hi → c = top)
    ∧ (lo = a → out = (encodeMag f neg c, none))
    ∧ (lo ≠ a → up → c = top → out = overflowOf f neg r.sat scaled)
    ∧ (lo ≠ a → ∀ n, (up ∧ c ≠ top ∧ n = c + 1 ∨ ¬up ∧ n = c) →
      (small → out = (encodeMag f neg n, some 2)) ∧ (¬small → out = (encodeMag f neg n, none)))

/-- The value of a finite decoded element. -/
def Num.rat : Num → ℚ
  | .fin s m e => (if s then -1 else 1) * ratOf (m, e)
  | _ => 0

/-- Whether a decoded element is finite. -/
def Num.isFinite : Num → Bool
  | .fin .. => true
  | _ => false

end Sys2Proof.Machine
end

