-- ==== Sys2Proof/Certificates/Slice0/Obligations.lean ====
section
/-! DEFINITION. The statements for the provers, from the numbered rules of spec/. -/

open Sys2Proof Sys2Proof.Machine

/-- R226: fit(x) delivers an exact integer at W bits: wrapped without saturation, and under it the nearest end of the range with
one saturation event, or the value itself. -/
def Obligations.FitWrapsOrClamps : Prop :=
  ∀ (x : Int) (w : Nat), 0 < w →
    (∀ signed, fit x w signed false = ((x % 2 ^ w).toNat, none))
    ∧ (x < -(2 ^ (w - 1) : Int) → fit x w true true = (2 ^ (w - 1), some 3))
    ∧ ((2 ^ (w - 1) : Int) ≤ x → fit x w true true = (2 ^ (w - 1) - 1, some 3))
    ∧ (-(2 ^ (w - 1) : Int) ≤ x → x < 2 ^ (w - 1) → fit x w true true = ((x % 2 ^ w).toNat, none))
    ∧ (x < 0 → fit x w false true = (0, some 3))
    ∧ ((2 ^ w : Int) ≤ x → fit x w false true = (2 ^ w - 1, some 3))
    ∧ (0 ≤ x → x < 2 ^ w → fit x w false true = (x.toNat, none))

/-- R229, short forms: each reads w<a> and w<b> at issue and lands its result in w<d>, with tag 0 and its event, after its
latency; NEG, ABS and ADDI read w<a> alone. -/
def Obligations.ShortArithmeticCompletes : Prop :=
  ∀ d a b : BitVec 7,
    ShortResult (.add d a b) 0 true d a b 1 (fun sat x y => fit (toSigned 32 x + toSigned 32 y) 32 true sat)
    ∧ ShortResult (.sub d a b) 0 true d a b 1 (fun sat x y => fit (toSigned 32 x - toSigned 32 y) 32 true sat)
    ∧ ShortResult (.mul d a b) 1 true d a b 3 (fun sat x y => fit (toSigned 32 x * toSigned 32 y) 32 true sat)
    ∧ ShortResult (.mulh d a b) 1 false d a b 3
        (fun _ x y => (((toSigned 32 x * toSigned 32 y).fdiv (2 ^ 32) % 2 ^ 32).toNat, none))
    ∧ ShortResult (.mulhz d a b) 1 false d a b 3 (fun _ x y => (x * y / 2 ^ 32, none))
    ∧ ShortResult (.min d a b) 0 false d a b 1 (fun _ x y => (if toSigned 32 y < toSigned 32 x then y else x, none))
    ∧ ShortResult (.max d a b) 0 false d a b 1 (fun _ x y => (if toSigned 32 x < toSigned 32 y then y else x, none))
    ∧ ShortResult (.minz d a b) 0 false d a b 1 (fun _ x y => (Nat.min x y, none))
    ∧ ShortResult (.maxz d a b) 0 false d a b 1 (fun _ x y => (Nat.max x y, none))
    ∧ ShortResult1 (.neg d a) true d a (fun sat x => fit (-toSigned 32 x) 32 true sat)
    ∧ ShortResult1 (.abs d a) true d a (fun sat x => fit (toSigned 32 x).natAbs 32 true sat)
    ∧ ∀ imm : BitVec 11, ShortResult1 (.addi d a imm) true d a (fun sat x => fit (toSigned 32 x + imm.toInt) 32 true sat)

/-- R230, short forms: DIV and REM truncate toward zero; a zero divisor gives all ones or the dividend and counts an invalid
event; the one quotient that does not fit wraps or saturates. Every result lands 18 cycles after issue (R225). -/
def Obligations.ShortDivisionCompletes : Prop :=
  ∀ d a b : BitVec 7,
    ShortResult (.div d a b) 1 true d a b 18 (fun sat x y =>
      if y = 0 then (2 ^ 32 - 1, some 0)
      else if toSigned 32 x = -2 ^ 31 ∧ toSigned 32 y = -1 then (if sat then (2 ^ 31 - 1, some 3) else (2 ^ 31, none))
      else (((toSigned 32 x).tdiv (toSigned 32 y) % 2 ^ 32).toNat, none))
    ∧ ShortResult (.divz d a b) 1 false d a b 18 (fun _ x y => if y = 0 then (2 ^ 32 - 1, some 0) else (x / y, none))
    ∧ ShortResult (.rem d a b) 1 false d a b 18 (fun _ x y =>
      if y = 0 then (x, some 0)
      else (((toSigned 32 x - toSigned 32 y * (toSigned 32 x).tdiv (toSigned 32 y)) % 2 ^ 32).toNat, none))
    ∧ ShortResult (.remz d a b) 1 false d a b 18 (fun _ x y => if y = 0 then (x, some 0) else (x - y * (x / y), none))

/-- R231 to R233, short forms: the logic operations act bit by bit, and a shift by 32 or more empties the word or fills it with its sign;
what CLZ, CTZ, POPC and BREV of a 32-bit word are, bit by bit; each lands at issue + 1. -/
def Obligations.ShortLogicShiftsAndCountsComplete : Prop :=
  (∀ d a b : BitVec 7,
    ShortResult (.and d a b) 0 false d a b 1 (fun _ x y => (x &&& y, none))
    ∧ ShortResult (.or d a b) 0 false d a b 1 (fun _ x y => (x ||| y, none))
    ∧ ShortResult (.xor d a b) 0 false d a b 1 (fun _ x y => (x ^^^ y, none))
    ∧ ShortResult (.andn d a b) 0 false d a b 1 (fun _ x y => (x &&& (2 ^ 32 - 1 - y), none))
    ∧ ShortResult1 (.not d a) false d a (fun _ x => (2 ^ 32 - 1 - x, none))
    ∧ ShortResult (.shl d a b) 0 false d a b 1 (fun _ x n => (if 32 ≤ n then 0 else x * 2 ^ n % 2 ^ 32, none))
    ∧ ShortResult (.shr d a b) 0 false d a b 1 (fun _ x n => (if 32 ≤ n then 0 else x / 2 ^ n, none))
    ∧ ShortResult (.sar d a b) 0 false d a b 1 (fun _ x n =>
        (if 32 ≤ n then (if toSigned 32 x < 0 then 2 ^ 32 - 1 else 0) else ((toSigned 32 x).fdiv (2 ^ n) % 2 ^ 32).toNat, none))
    ∧ ShortResult (.rotl d a b) 0 false d a b 1 (fun _ x n =>
        ((x * 2 ^ (n % 32) ||| x / 2 ^ (32 - n % 32)) % 2 ^ 32, none)))
  ∧ (∃ clz ctz popc brev : Nat → Nat,
    (∀ x < 2 ^ 32,
      (clz x ≤ 32 ∧ (∀ i < clz x, x.testBit (31 - i) = false) ∧ (clz x < 32 → x.testBit (31 - clz x) = true))
      ∧ (ctz x ≤ 32 ∧ (∀ i < ctz x, x.testBit i = false) ∧ (ctz x < 32 → x.testBit (ctz x) = true))
      ∧ popc x = (List.range 32).countP (fun i => x.testBit i)
      ∧ (brev x < 2 ^ 32 ∧ ∀ i < 32, (brev x).testBit i = x.testBit (31 - i)))
    ∧ ∀ d a : BitVec 7,
      ShortResult1 (.clz d a) false d a (fun _ x => (clz x, none))
      ∧ ShortResult1 (.ctz d a) false d a (fun _ x => (ctz x, none))
      ∧ ShortResult1 (.popc d a) false d a (fun _ x => (popc x, none))
      ∧ ShortResult1 (.brev d a) false d a (fun _ x => (brev x, none)))

/-- R245, R248 to R250, short forms: SATN clamps to n bits and counts a saturation event where it had to; CRNG.16 works on two
lanes of 16 bits and CRNG.32 on one. -/
def Obligations.ShortClampAndGeneratorsComplete : Prop :=
  ∀ (d a b : BitVec 7) (n : BitVec 5),
    ShortResult1 (.satn d a false n) false d a (fun _ x =>
      if toSigned 32 x < -(2 ^ n.toNat : Int) then (2 ^ 32 - 2 ^ n.toNat, some 3)
      else if (2 ^ n.toNat : Int) ≤ toSigned 32 x then (2 ^ n.toNat - 1, some 3) else (x, none))
    ∧ ShortResult1 (.satn d a true n) false d a (fun _ x =>
      if toSigned 32 x < 0 then (0, some 3)
      else if (2 ^ (n.toNat + 1) : Int) ≤ toSigned 32 x then ((2 ^ (n.toNat + 1) - 1) % 2 ^ 32, some 3) else (x, none))
    ∧ ShortResult (.crng16 d a b) 1 false d a b 3 (fun _ x y =>
        let g (u v : Nat) : Nat :=
          let x1 := (u ^^^ v) * 0x6F % 2 ^ 16
          let x3 := (x1 ^^^ x1 / 2 ^ 7) * 0x2B % 2 ^ 16
          x3 ^^^ x3 / 2 ^ 8
        (g (x % 2 ^ 16) (y % 2 ^ 16) + g (x / 2 ^ 16) (y / 2 ^ 16) * 2 ^ 16, none))
    ∧ ShortResult (.crng32 d a b) 1 false d a b 3 (fun _ x y =>
        let x1 := (x ^^^ y) * 0x2C1B3C6D % 2 ^ 32
        let x3 := (x1 ^^^ x1 / 2 ^ 15) * 0x297A2D39 % 2 ^ 32
        (x3 ^^^ x3 / 2 ^ 16, none))

/-- R235 to R238, R242, short forms: EXT takes a field of w<a> and extends it, DEP puts the low bits of w<a> into w<d>, MOV and SEL
copy with the common tag of their sources, MOVI and MOVIH write immediates. -/
def Obligations.ShortFieldsAndMovesComplete : Prop :=
  ∀ d a b : BitVec 7,
    (Completes (.ext d a b) (short3Info 0 false d a b) (fun _ t => controlOk (t.word b) = true) fun c t =>
      t.later c 1 (.slices (t.win d) 8 (extField 32 (t.word a) (t.word b)) 0) [])
    ∧ (Completes (.dep d a b) (fun t => blockInfo none [t.wSpan d, t.wSpan a, t.wSpan b] [t.wSpan d] [] [] 1 0 false)
      (fun _ t => controlOk (t.word b) = true ∧ (t.word b).testBit 18 = false) fun c t =>
      t.later c 1 (.slices (t.win d) 8 (depField 32 (t.word d) (t.word a) (t.word b)) 0) [])
    ∧ (Completes (.mov d a) (short2Info false d a) always fun c t =>
      t.later c 1 (.slices (t.win d) 8 (t.word a) (t.slices.commonTag [t.wSpan a])) [])
    ∧ (∀ imm : BitVec 18, BlockPosts (.movi d imm) (fun _ => []) (fun t => [t.wSpan d]) []
        (fun t => .slices (t.win d) 8 (imm.signExtend 32).toNat 0)
      ∧ BlockPosts (.movih d imm) (fun t => [t.wSpan d]) (fun t => [t.wSpan d]) []
        (fun t => .slices (t.win d) 8 (imm.toNat * 2 ^ 14 + t.word d % 2 ^ 14) 0))
    ∧ ∀ p : BitVec 4, BlockPosts (.sel p d a b) (fun t => [t.wSpan a, t.wSpan b]) (fun t => [t.wSpan d]) [p.toNat]
        (fun t => .slices (t.win d) 8 (if t.pred p.toNat then t.word a else t.word b) (t.slices.commonTag [t.wSpan a, t.wSpan b]))

/-- R234, short forms: a control word with a nonzero reserved bit raises cause 5 at EXT or DEP, and nothing is written. -/
def Obligations.ReservedControlWordTraps : Prop :=
  ∀ d a b : BitVec 7,
    (Traps (.ext d a b) (short3Info 0 false d a b) (fun _ t => controlOk (t.word b) = false) fun c _ => c.raise 5)
    ∧ Traps (.dep d a b) (fun t => blockInfo none [t.wSpan d, t.wSpan a, t.wSpan b] [t.wSpan d] [] [] 1 0 false)
      (fun _ t => controlOk (t.word b) = false ∨ (t.word b).testBit 18 = true) fun c _ => c.raise 5

/-- R241, R243, R244, R246, R247, short forms: the compares and the predicate operations write one predicate at issue + 1; all sixteen
predicates move to and from a word, and the tag of the granule that holds a word is set and read. -/
def Obligations.PredicatesAndTagsComplete : Prop :=
  ((∀ (cond : Cond) (pd : BitVec 4) (a b : BitVec 7),
    BlockPosts (.cmp cond pd a b) (fun t => [t.wSpan a, t.wSpan b]) (fun _ => []) []
      (fun t => predWrite pd.toNat (condHolds cond 32 (t.word a) (t.word b))))
  ∧ (∀ (cond : Cond) (pd : BitVec 4) (a : BitVec 7) (imm : BitVec 10),
    BlockPosts (.cmpi cond pd a imm) (fun t => [t.wSpan a]) (fun _ => []) []
      (fun t => predWrite pd.toNat (condHolds cond 32 (t.word a)
        (if cond = .ltz ∨ cond = .lez ∨ cond = .gtz ∨ cond = .gez then imm.toNat else (imm.signExtend 32).toNat))))
  ∧ (∀ (pd : BitVec 4) (a b : BitVec 7),
    BlockPosts (.tst false pd a b) (fun t => [t.wSpan a, t.wSpan b]) (fun _ => []) []
        (fun t => predWrite pd.toNat (decide (t.word a &&& t.word b ≠ 0)))
      ∧ BlockPosts (.tst true pd a b) (fun t => [t.wSpan a, t.wSpan b]) (fun _ => []) []
        (fun t => predWrite pd.toNat (decide (t.word a &&& t.word b = 0))))
  ∧ ∀ pd pa pb : BitVec 4,
    BlockPosts (.pand pd pa pb) (fun _ => []) (fun _ => []) [pa.toNat, pb.toNat]
        (fun t => predWrite pd.toNat (t.pred pa.toNat && t.pred pb.toNat))
    ∧ BlockPosts (.por pd pa pb) (fun _ => []) (fun _ => []) [pa.toNat, pb.toNat]
        (fun t => predWrite pd.toNat (t.pred pa.toNat || t.pred pb.toNat))
    ∧ BlockPosts (.pxor pd pa pb) (fun _ => []) (fun _ => []) [pa.toNat, pb.toNat]
        (fun t => predWrite pd.toNat (t.pred pa.toNat ^^ t.pred pb.toNat))
    ∧ BlockPosts (.pnot pd pa) (fun _ => []) (fun _ => []) [pa.toNat] (fun t => predWrite pd.toNat (!t.pred pa.toNat))
    ∧ BlockPosts (.pmov pd pa) (fun _ => []) (fun _ => []) [pa.toNat] (fun t => predWrite pd.toNat (t.pred pa.toNat)))
  ∧ (∀ (d a : BitVec 7) (tag : BitVec 5),
    BlockPosts (.ppack d) (fun _ => []) (fun t => [t.wSpan d]) (List.range 16)
      (fun t => .slices (t.win d) 8 t.slices.preds.toNat 0)
    ∧ BlockPosts (.punpack a) (fun t => [t.wSpan a]) (fun _ => []) []
      (fun t => .preds 0xFFFF (BitVec.ofNat 16 (t.word a)))
    ∧ BlockPosts (.tagset d tag) (fun _ => []) (fun t => [(16 * (t.ctl.winb + d.toNat / 2), 16)]) []
      (fun t => .tag (t.ctl.winb + d.toNat / 2) tag)
    ∧ BlockPosts (.tagget d a) (fun t => [(16 * (t.ctl.winb + a.toNat / 2), 16)]) (fun t => [t.wSpan d]) []
      (fun t => .slices (t.win d) 8 (t.slices.tag (t.ctl.winb + a.toNat / 2)) 0))

/-- R229 and R230, long forms: the same results at the width of d, signed unless sx bit 17 says unsigned where R229 lets it. -/
def Obligations.LongArithmeticCompletes : Prop :=
  ∀ o : Long3,
    let w := o.dBits
    let int (x : Nat) : Int := if o.sxa then x else toSigned w x
    let sg (x : Nat) : Int := toSigned w x
    LongResult (.addLong o) 0 true o 1 (fun sat x y => fit (int x + int y) w (!o.sxa) sat)
    ∧ LongResult (.subLong o) 0 true o 1 (fun sat x y => fit (int x - int y) w (!o.sxa) sat)
    ∧ LongResult (.mulLong o) 1 true o 3 (fun sat x y => fit (int x * int y) w (!o.sxa) sat)
    ∧ LongResult (.mulhLong o) 1 false o 3 (fun _ x y => (((sg x * sg y).fdiv (2 ^ w) % 2 ^ w).toNat, none))
    ∧ LongResult (.mulhzLong o) 1 false o 3 (fun _ x y => (x * y / 2 ^ w, none))
    ∧ LongResult (.divLong o) 1 true o 18 (fun sat x y =>
      if y = 0 then (2 ^ w - 1, some 0)
      else if sg x = -2 ^ (w - 1) ∧ sg y = -1 then fit (2 ^ (w - 1)) w true sat
      else (((sg x).tdiv (sg y) % 2 ^ w).toNat, none))
    ∧ LongResult (.divzLong o) 1 false o 18 (fun _ x y => if y = 0 then (2 ^ w - 1, some 0) else (x / y, none))
    ∧ LongResult (.remLong o) 1 false o 18 (fun _ x y =>
      if y = 0 then (x, some 0) else (((sg x - sg y * (sg x).tdiv (sg y)) % 2 ^ w).toNat, none))
    ∧ LongResult (.remzLong o) 1 false o 18 (fun _ x y => if y = 0 then (x, some 0) else (x - y * (x / y), none))
    ∧ LongResult (.minLong o) 0 false o 1 (fun _ x y => (if sg y < sg x then y else x, none))
    ∧ LongResult (.maxLong o) 0 false o 1 (fun _ x y => (if sg x < sg y then y else x, none))
    ∧ LongResult (.minzLong o) 0 false o 1 (fun _ x y => (Nat.min x y, none))
    ∧ LongResult (.maxzLong o) 0 false o 1 (fun _ x y => (Nat.max x y, none))
    ∧ LongResult1 (.negLong o) true o (fun sat x => fit (-sg x) w true sat)
    ∧ LongResult1 (.absLong o) true o (fun sat x => fit (sg x).natAbs w true sat)

/-- R231 to R233, R245 and R250, long forms: logic at the width of d, shifts by an amount at its own width, bit counts of a at its
own width, SATN and the generators. -/
def Obligations.LongLogicAndBitsComplete : Prop :=
  ∀ o : Long3,
    let w := o.dBits
    LongResult (.andLong o) 0 false o 1 (fun _ x y => (x &&& y, none))
    ∧ LongResult (.orLong o) 0 false o 1 (fun _ x y => (x ||| y, none))
    ∧ LongResult (.xorLong o) 0 false o 1 (fun _ x y => (x ^^^ y, none))
    ∧ LongResult (.andnLong o) 0 false o 1 (fun _ x y => (x &&& (2 ^ w - 1 - y), none))
    ∧ LongResult1 (.notLong o) false o (fun _ x => (2 ^ w - 1 - x, none))
    ∧ LongShift (.shlLong o) o (fun x n => if w ≤ n then 0 else x * 2 ^ n % 2 ^ w)
    ∧ LongShift (.shrLong o) o (fun x n => if w ≤ n then 0 else x / 2 ^ n)
    ∧ LongShift (.sarLong o) o (fun x n =>
        if w ≤ n then (if toSigned w x < 0 then 2 ^ w - 1 else 0) else ((toSigned w x).fdiv (2 ^ n) % 2 ^ w).toNat)
    ∧ LongShift (.rotlLong o) o (fun x n => (x * 2 ^ (n % w) ||| x / 2 ^ (w - n % w)) % 2 ^ w)
    ∧ LongCount (.clzLong o) o (fun w x => if x = 0 then w else w - 1 - Nat.log2 x)
    ∧ LongCount (.ctzLong o) o (fun w x => ((List.range w).find? fun i => x.testBit i).getD w)
    ∧ LongCount (.popcLong o) o (fun w x => (List.range w).countP fun i => x.testBit i)
    ∧ LongCount (.brevLong o) o (fun w x => ((List.range w).map fun i => if x.testBit (w - 1 - i) then 2 ^ i else 0).sum)
    ∧ LongResult1 (.satnLong o) false o (fun _ x =>
        let n := o.bs.toNat % 64 + 1
        let lo : Int := if o.bs.getLsbD 6 then 0 else -2 ^ (n - 1)
        let hi : Int := if o.bs.getLsbD 6 then 2 ^ n - 1 else 2 ^ (n - 1) - 1
        if toSigned w x < lo then ((lo % 2 ^ w).toNat, some 3)
        else if hi < toSigned w x then ((hi % 2 ^ w).toNat, some 3) else (x, none))
    ∧ LongLands (.crng16Long o) (fun t => { long3Info (Instr.crng16Long o).cause 1 false o t with wides := [] }) o 3
        (fun _ t => (((List.range (w / 16)).map fun i =>
          crng16 (o.srcA t w / 2 ^ (16 * i) % 2 ^ 16) (o.srcB t w / 2 ^ (16 * i) % 2 ^ 16) * 2 ^ (16 * i)).sum, none))
    ∧ LongLands (.crng32Long o) (fun t => { long3Info (Instr.crng32Long o).cause 1 false o t with wides := [] }) o 3
        (fun _ t => (((List.range (w / 32)).map fun i =>
          crng32 (o.srcA t w / 2 ^ (32 * i) % 2 ^ 32) (o.srcB t w / 2 ^ (32 * i) % 2 ^ 32) * 2 ^ (32 * i)).sum, none))

/-- R235 to R242, long forms: fields at their own widths, moves with the common tag of their sources, immediates, compares into a
predicate at issue + 1, and the select. -/
def Obligations.LongMovesAndComparesComplete : Prop :=
  (∀ o : Long3,
    let a (t : Tile) := t.spanBits o.as.toNat o.aBits
    let ctl (t : Tile) := t.spanBits o.bs.toNat 32
    (Completes (.extLong o) (longOwnInfo (Instr.extLong o).cause false o) (fun _ t => controlOk (ctl t) = true) fun c t =>
      t.later c 1 (.slices o.ds.toNat (o.dBits / 4) (extField o.dBits (a t) (ctl t)) 0) [])
    ∧ (Completes (.depLong o)
      (fun t => { longOwnInfo (Instr.depLong o).cause false o t with srcs := [o.dSpan, o.aSpan, o.bSpan] })
      (fun _ t => controlOk (ctl t) = true ∧ (ctl t).testBit 18 = false) fun c t =>
      t.later c 1 (.slices o.ds.toNat (o.dBits / 4)
        (depField o.dBits (t.spanBits o.ds.toNat o.dBits) (a t) (ctl t)) 0) [])
    ∧ Completes (.movLong o) (long2Info (Instr.movLong o).cause false false o) always fun c t =>
      t.later c 1 (.slices o.ds.toNat (o.dBits / 4) (o.srcA t o.dBits) (t.slices.commonTag [o.aSpan])) [])
  ∧ (∀ o : LongImm,
    let w := widthBits o.wd
    let ext (n : Nat) : Nat := if o.z || !o.imm.msb then o.imm.toNat % 2 ^ n else (o.imm.toInt % 2 ^ n).toNat
    (Completes (.moviLong o) (fun _ => longImmInfo (Instr.moviLong o).cause o false) always fun c t =>
      t.later c 1 (.slices o.ds.toNat (w / 4) (ext w) 0) [])
    ∧ Completes (.movihLong o) (fun _ => longImmInfo (Instr.movihLong o).cause o true) always fun c t =>
      t.later c 1 (.slices o.ds.toNat (w / 4) (ext (w - 32) * 2 ^ 32 + t.spanBits o.ds.toNat w % 2 ^ 32) 0) [])
  ∧ (∀ o : LongCmp,
    let w := Nat.max (widthBits o.wa) (widthBits o.wb)
    let a (t : Tile) := extendTo (widthBits o.wa) w o.sxa (t.spanBits o.as.toNat (widthBits o.wa))
    let b (t : Tile) := extendTo (widthBits o.wb) w o.sxb (t.spanBits o.bs.toNat (widthBits o.wb))
    (∀ cond, Completes (.cmpLong cond o) (fun _ => longCmpInfo (Instr.cmpLong cond o).cause o) always fun c t =>
      t.later c 1 (predWrite o.pd.toNat (condHolds cond w (a t) (b t))) [])
    ∧ (Completes (.tstLong false o) (fun _ => longCmpInfo (Instr.tstLong false o).cause o) always fun c t =>
      t.later c 1 (predWrite o.pd.toNat (decide (a t &&& b t ≠ 0))) [])
    ∧ Completes (.tstLong true o) (fun _ => longCmpInfo (Instr.tstLong true o).cause o) always fun c t =>
      t.later c 1 (predWrite o.pd.toNat (decide (a t &&& b t = 0))) [])
  ∧ ∀ o : LongSel,
    let w := widthBits o.wd
    let aS := spanOf o.as.toNat (widthBits o.wa)
    let bS := spanOf o.bs.toNat (widthBits o.wb)
    let a (t : Tile) := extendTo (widthBits o.wa) w o.sxa (t.spanBits o.as.toNat (widthBits o.wa))
    let b (t : Tile) := extendTo (widthBits o.wb) w o.sxb (t.spanBits o.bs.toNat (widthBits o.wb))
    Completes (.selLong o) (fun _ => blockInfo none [aS, bS] [spanOf o.ds.toNat w] [o.p.toNat]
        [(widthBits o.wa, w), (widthBits o.wb, w)] o.ecl.toNat (longLeast 0 w) false) always fun c t =>
      t.later c 1 (.slices o.ds.toNat (w / 4) (if t.pred o.p.toNat then a t else b t) (t.slices.commonTag [aS, bS])) []

/-- R89: while a source is pending, ADD with SBMODE 0 stays at the head of its queue, and nothing of it happens; with
SBMODE 1 it raises cause 17, which names the lowest pending source slice and the cycle until which that slice is pending. -/
def Obligations.PendingSourceHoldsOrTraps : Prop :=
  ∀ (s : State) (f : Folio) (t : Tile) (c : Ctx) (d a b : BitVec 7),
    let n := short3Info 0 true d a b t
    s.at? = some (f, t, c) → t.queueHeld c = false → c.pfx = none → c.hand = false → t.ctl.winb ≤ 192 →
    t.blocked = false → n.debit c ≤ t.avail → t.violation c n = true →
    (t.csr.sbmode = false → exec (.add d a b) s = .next (s.putTile f (t.held .scoreboard)))
    ∧ (t.csr.sbmode = true → ∃ x u,
      (t.win a ≤ x ∧ x < t.win a + 8 ∨ t.win b ≤ x ∧ x < t.win b + 8) ∧ t.pendingUntil false c.k x 1 = some u
      ∧ (∀ y < x, t.win a ≤ y ∧ y < t.win a + 8 ∨ t.win b ≤ y ∧ y < t.win b + 8 → t.pendingUntil false c.k y 1 = none)
      ∧ exec (.add d a b) s
        = .next (s.putTile f { t.addRaise (c.raiseInfo 17 x u) with ctl := { t.ctl with pfx := none } }))

/-- R86, R90 and R96: the one write due in a cycle lands whole. Its slices hold its value, every other slice keeps its own, a
granule covered whole takes its tag, one covered in part keeps an equal tag and else becomes MIXED, and the tile's stores,
predicates, tokens and accesses stay as they are. -/
def Obligations.DueSliceWriteLands : Prop :=
  ∀ (s : State) (f : Folio) (t : Tile) (c : Ctx) (p : PendWrite) (x n v : Nat) (tag : BitVec 5),
    s.at? = some (f, t, c) → (t.pend.filter fun q => q.hand == c.hand && decide (q.land ≤ c.k)) = [p] →
    p.dest = .slices x n v tag → 0 < n → x + n ≤ 4096 → v < 2 ^ (4 * n) →
    ∃ t', exec .sliceWriteLanding s = .next (s.putTile f t')
      ∧ t'.slices.span x n = v
      ∧ (∀ y, y < x ∨ x + n ≤ y → t'.slices.span y 1 = t.slices.span y 1)
      ∧ (∀ g < 256, t'.slices.tag g =
        if x ≤ 16 * g ∧ 16 * g + 16 ≤ x + n then tag.toNat
        else if x < 16 * g + 16 ∧ 16 * g < x + n then (if t.slices.tag g = tag.toNat then tag.toNat else 16)
        else t.slices.tag g)
      ∧ t'.pend = t.pend.filter (fun q => !(q.hand == c.hand && decide (q.land ≤ c.k)))
      ∧ t'.slices.preds = t.slices.preds ∧ t'.stores = t.stores ∧ t'.tok = t.tok ∧ t'.csr = t.csr ∧ t'.ctl = t.ctl
      ∧ t'.ap = t.ap ∧ t'.raises = t.raises

/-- R91: two writes of different writers that are due in one cycle and meet raise cause 18, which names the lowest slice they share;
the shared slices keep their value, and each write's other slices land. -/
def Obligations.CollidingWritesKeepSharedSlices : Prop :=
  ∀ (t : Tile) (hand : Bool) (k : Nat) (p q : PendWrite) (x n v y m w : Nat) (tp tq : BitVec 5),
    (t.pend.filter fun r => r.hand == hand && decide (r.land ≤ k)) = [p, q] →
    p.dest = .slices x n v tp → q.dest = .slices y m w tq → p.writer ≠ q.writer →
    0 < n → 0 < m → x + n ≤ 4096 → y + m ≤ 4096 → x < y + m → y < x + n →
    let t' := t.landAll hand k
    (∀ z, x ≤ z → z < x + n → y ≤ z → z < y + m → t'.slices.span z 1 = t.slices.span z 1)
    ∧ (∀ z, x ≤ z → z < x + n → (z < y ∨ y + m ≤ z) → t'.slices.span z 1 = v / 16 ^ (z - x) % 16)
    ∧ (∀ z, y ≤ z → z < y + m → (z < x ∨ x + n ≤ z) → t'.slices.span z 1 = w / 16 ^ (z - y) % 16)
    ∧ ∃ r, t'.raises = t.raises ++ [r] ∧ r.cause = 18 ∧ r.inst = false ∧ r.info % 4096 = Nat.max x y

/-- R17, R28, R86, R222, R224: whatever a queue instruction does at its issue, only the tile at the cursor changes, and of it neither the
slice file nor any byte of its stores: results are pending writes and accesses, which land later; and an instruction of the common
integer block touches no token, access, mark or control register: beside its entry, its energy, its hold and its trap it only adds one
pending write. -/
def Obligations.QueueInstructionsKeepTheirFrame : Prop :=
  (∀ (i : Instr) (s s' : State), i.isQueue = true → exec i s = .next s' →
    ∃ f t c t', s.at? = some (f, t, c) ∧ s' = s.putTile f t' ∧ t'.slices = t.slices ∧ t'.stores = t.stores
      ∧ t'.trap.tcause = t.trap.tcause ∧ t'.wins = t.wins ∧ t'.tables = t.tables)
  ∧ (∀ (i : Instr) (s s' : State), i.inQueue .sq = true → i.inQueue .xu = true → i.inQueue .ce = false → exec i s = .next s' →
    ∃ f t c t', s.at? = some (f, t, c) ∧ s' = s.putTile f t' ∧ t'.slices = t.slices ∧ t'.stores = t.stores ∧ t'.tok = t.tok
      ∧ t'.csr = t.csr ∧ t'.trap = t.trap ∧ t'.wins = t.wins ∧ t'.ap = t.ap ∧ t'.ce = t.ce ∧ t'.mx = t.mx ∧ t'.net = t.net
      ∧ t'.sigs = t.sigs ∧ t'.halting = t.halting ∧ t'.ctl.winb = t.ctl.winb ∧ t'.ctl.btgt = t.ctl.btgt
      ∧ t'.ctl.loops = t.ctl.loops ∧ t'.ctl.fetch = t.ctl.fetch
      ∧ ∃ l, t'.pend = t.pend ++ l ∧ l.length ≤ 1)

/-- R139, R142 to R145, R149, R155: HALT stops fetch, a taken BR and a CALL redirect through a target register as it stood at issue,
RET through b7, OVL to the overlay's entry line, and TRET in a handler stops the handler's fetch; each cancels what follows it. A BR that
is not taken performs nothing. (What OVL waits for beside entries and writes, queueBusy, is log 15.) -/
def Obligations.RedirectsComplete : Prop :=
  (∀ s f t c, Issues s f t c (seqInfo none [] [] [] false) → t.noOrphan c →
    ∃ t', exec .halt s = .next (s.putTile f (t'.issued c ((seqInfo none [] [] [] false).cost c))) ∧ Redirected t t' c
      ∧ t'.ctl.fetch.running = false ∧ t'.ctl.fetch.direct = [] ∧ t'.halting = true)
  ∧ (∀ s f t c, Issues s f t c (seqInfo none [] [] [] true) → t.noOrphan c → c.hand = true →
    (∀ p ∈ t.pend, p.hand = true → p.land ≤ c.k) → (∀ a ∈ t.ap.accs, a.hand = false) →
    ∃ t' : Tile, exec .tret s = .next (s.putTile f (t'.issued c ((seqInfo none [] [] [] true).cost c))) ∧ t'.trap.ret = true
      ∧ Redirected t { t' with trap := t.trap } c ∧ t'.ctl.fetch.running = false ∧ t'.slices = t.slices ∧ t'.stores = t.stores)
  ∧ (∀ (b : BitVec 3) (p : BitVec 4) (n u : Bool),
    Redirects (.br b p n u) (fun _ => seqInfo (Instr.br b p n u).cause [] [] (if u then [] else [p.toNat]) true)
      (fun _ t => (u = true ∨ t.pred p.toNat ≠ n) ∧ t.targetValid b.toNat)
      (fun _ t => t.targetLine b.toNat) (fun _ t => t.fillOf b.toNat) (fun _ t t' => t'.pend = t.pend)
    ∧ Completes (.br b p n u) (fun _ => seqInfo (Instr.br b p n u).cause [] [] (if u then [] else [p.toNat]) true)
      (fun _ t => u = false ∧ t.pred p.toNat = n) fun _ t => t)
  ∧ (∀ (b : BitVec 3) (slide : BitVec 6),
    Redirects (.call b slide) (fun _ => seqInfo none [] [] [] false)
      (fun _ t => t.targetValid b.toNat ∧ t.ctl.winb + slide.toNat ≤ 192)
      (fun _ t => t.targetLine b.toNat) (fun _ t => t.fillOf b.toNat)
      (fun c t t' => t'.pend = ((t.later c 1 (.target 7 ⟨c.e.line + 1, c.k, false⟩) []).later c 1
        (.winb (t.ctl.winb + slide.toNat)) []).pend)
    ∧ Redirects (.ret slide) (fun _ => seqInfo none [] [] [] false)
      (fun _ t => t.targetValid 7 ∧ slide.toNat ≤ t.ctl.winb)
      (fun _ t => t.targetLine 7) (fun _ t => t.fillOf 7)
      (fun c t t' => t'.pend = (t.later c 1 (.winb (t.ctl.winb - slide.toNat)) []).pend))
  ∧ ∀ n : BitVec 8, Redirects (.ovl n) (fun _ => seqInfo none [] [] [] false)
      (fun c t => (∀ i < 6, t.trailer.testBit i = true → t.queueBusy c (i + 1) = false)
        ∧ (vget t.csr.ovt n.toNat).getLsbD 63 = true)
      (fun _ t => (vget t.csr.ovt n.toNat).toNat % 4096) (fun c _ => c.k) (fun _ _ t' => t'.csr.ovcur = n.toNat)

/-- R71, R139, R145, R149: a redirect to no line of TIM raises cause 9 with the line its register holds, a slide out of the slice file
raises cause 21, an overlay that is not loaded raises cause 93, and any redirect that would leave an orphan PFX at the end of a queue
raises cause 7 in its place; the instruction performs nothing. (What OVL waits for, queueBusy, is log 15.) -/
def Obligations.RedirectTraps : Prop :=
  let line (b : Nat) (t : Tile) : Nat := ofSigned 64 (vget t.ctl.btgt b).line
  (∀ (b : BitVec 3) (p : BitVec 4) (n u : Bool), Traps (.br b p n u)
      (fun _ => seqInfo (Instr.br b p n u).cause [] [] (if u then [] else [p.toNat]) true)
      (fun c t => t.noOrphan c ∧ (u = true ∨ t.pred p.toNat ≠ n) ∧ ¬t.targetValid b.toNat)
      (fun c t => c.raiseInfo 9 (line b.toNat t) 0))
  ∧ (∀ (b : BitVec 3) (slide : BitVec 6),
    Traps (.call b slide) (fun _ => seqInfo none [] [] [] false)
      (fun c t => t.noOrphan c ∧ ¬t.targetValid b.toNat) (fun c t => c.raiseInfo 9 (line b.toNat t) 0)
    ∧ Traps (.call b slide) (fun _ => seqInfo none [] [] [] false)
      (fun c t => t.noOrphan c ∧ t.targetValid b.toNat ∧ 192 < t.ctl.winb + slide.toNat) (fun c _ => c.raise 21)
    ∧ Traps (.ret slide) (fun _ => seqInfo none [] [] [] false)
      (fun c t => t.noOrphan c ∧ ¬t.targetValid 7) (fun c t => c.raiseInfo 9 (line 7 t) 0)
    ∧ Traps (.ret slide) (fun _ => seqInfo none [] [] [] false)
      (fun c t => t.noOrphan c ∧ t.targetValid 7 ∧ t.ctl.winb < slide.toNat) (fun c _ => c.raise 21))
  ∧ (∀ n : BitVec 8, Traps (.ovl n) (fun _ => seqInfo none [] [] [] false)
      (fun c t => (∀ i < 6, t.trailer.testBit i = true → t.queueBusy c (i + 1) = false)
        ∧ (vget t.csr.ovt n.toNat).getLsbD 63 = false) (fun c _ => c.raise 93))
  ∧ let orphan (i : Instr) (n : Info) (ok : Ctx → Tile → Prop) : Prop :=
      Traps i (fun _ => n) (fun c t => t.orphaned c ∧ ok c t) (fun c _ => c.raise 7)
    let plain := seqInfo none [] [] [] false
    orphan .halt plain always
    ∧ orphan .tret (seqInfo none [] [] [] true) (fun c t => c.hand = true
      ∧ (∀ p ∈ t.pend, p.hand = true → p.land ≤ c.k) ∧ ∀ a ∈ t.ap.accs, a.hand = false)
    ∧ (∀ (b : BitVec 3) (p : BitVec 4) (n u : Bool),
      orphan (.br b p n u) (seqInfo (Instr.br b p n u).cause [] [] (if u then [] else [p.toNat]) true)
        fun _ t => (u = true ∨ t.pred p.toNat ≠ n) ∧ t.targetValid b.toNat)
    ∧ (∀ (b : BitVec 3) (slide : BitVec 6), orphan (.call b slide) plain (fun _ t => t.targetValid b.toNat)
      ∧ orphan (.ret slide) plain fun _ t => t.targetValid 7)
    ∧ (∀ (l : BitVec 2) (p : BitVec 4) (n : Bool), orphan (.lbrk l p n) (seqInfo none [] [] [p.toNat] false)
      fun _ t => (vget t.ctl.loops l.toNat).act = true ∧ t.pred p.toNat ≠ n)
    ∧ ∀ n : BitVec 8, orphan (.ovl n) plain fun c t =>
      (∀ i < 6, t.trailer.testBit i = true → t.queueBusy c (i + 1) = false) ∧ (vget t.csr.ovt n.toNat).getLsbD 63 = true

/-- R71, R146 and R147: LOOP opens its level, or raises cause 89 in each of the cases of R146; LBRK leaves the level and every inner one
for the line after the body, falls through, or raises cause 89 on an inactive level. The dispatch of the body's last line takes one
iteration off the innermost level and turns fetch back to the body's first line, or, where it leaves an orphan PFX at the end of a queue,
raises cause 7 that names it and does neither. -/
def Obligations.LoopsComplete : Prop :=
  (∀ (l : BitVec 2) (lines : BitVec 10),
    let opens (count : Tile → Nat) (c : Ctx) (t : Tile) : Prop :=
      count t ≠ 0 ∧ (vget t.ctl.loops l.toNat).act = false ∧ c.e.line + lines.toNat ≤ 4095
      ∧ ∀ j < l.toNat, (vget t.ctl.loops j).act = true ∧ c.e.line + lines.toNat ≤ (vget t.ctl.loops j).last
    let opened (count : Tile → Nat) (c : Ctx) (t : Tile) : Tile :=
      let new : Loop := { act := true, count := count t, first := c.e.line + 1, last := c.e.line + lines.toNat, opened := c.k }
      { t with ctl := { t.ctl with loops := vset t.ctl.loops l.toNat new } }
    (∀ n : BitVec 12,
      let count (_ : Tile) := if n = 0 then 4096 else n.toNat
      Completes (.loopImm l n lines) (fun _ => seqInfo (Instr.loopImm l n lines).cause [] [] [] false) (opens count) (opened count)
      ∧ Traps (.loopImm l n lines) (fun _ => seqInfo (Instr.loopImm l n lines).cause [] [] [] false)
        (fun c t => ¬opens count c t) (fun c _ => c.raise 89))
    ∧ ∀ a : BitVec 7,
      Completes (.loopReg l a lines) (fun t => seqInfo (Instr.loopReg l a lines).cause [t.wSpan a] [] [] false)
        (opens fun t => t.word a) (opened fun t => t.word a)
      ∧ Traps (.loopReg l a lines) (fun t => seqInfo (Instr.loopReg l a lines).cause [t.wSpan a] [] [] false)
        (fun c t => ¬opens (fun t => t.word a) c t) (fun c _ => c.raise 89))
  ∧ (∀ (l : BitVec 2) (p : BitVec 4) (n : Bool),
    let info (_ : Tile) := seqInfo none [] [] [p.toNat] false
    Redirects (.lbrk l p n) info
      (fun _ t => (vget t.ctl.loops l.toNat).act = true ∧ t.pred p.toNat ≠ n ∧ (vget t.ctl.loops l.toNat).last < 4095)
      (fun _ t => (vget t.ctl.loops l.toNat).last + 1) (fun _ t => (vget t.ctl.loops l.toNat).opened)
      (fun _ t t' => ∀ j < 4,
        let x : Loop := vget t.ctl.loops j
        vget t'.ctl.loops j = if l.toNat ≤ j then { x with act := false, count := 0 } else x)
    ∧ Completes (.lbrk l p n) info (fun _ t => (vget t.ctl.loops l.toNat).act = true ∧ t.pred p.toNat = n) (fun _ t => t)
    ∧ Traps (.lbrk l p n) info (fun _ t => (vget t.ctl.loops l.toNat).act = false) (fun c _ => c.raise 89)
    ∧ Traps (.lbrk l p n) info
      (fun c t => t.noOrphan c ∧ (vget t.ctl.loops l.toNat).act = true ∧ t.pred p.toNat ≠ n ∧ 4095 ≤ (vget t.ctl.loops l.toNat).last)
      (fun c t => c.raiseInfo 9 ((vget t.ctl.loops l.toNat).last + 1) 0))
  ∧ ∀ (s : State) (f : Folio) (t : Tile) (c : Ctx) (p : PreLine) (l : Nat), s.at? = some (f, t, c) → t.nextLine c.k = some p →
    p.line < 4096 → t.ctl.loopWaits p.line = false → t.ctl.fetch.owe = none → l < 4 →
    let loop : Loop := vget t.ctl.loops l
    let r : List (Queue × Entry) × Option Owe := parseLine p.bits p.line t.ctl.fetch.seqCtr c.k none p.bad
    loop.act = true → loop.last = p.line → 1 < loop.count → (∀ j < 4, l < j → (vget t.ctl.loops j).act = false) →
    r.2 = none → roomFor t.ctl r.1 = true →
    let orphan (q : Queue) (e : Entry) : Prop :=
      (t.ctl.entries q ++ (r.1.filter fun x => x.1 == q).map fun x => x.2).getLast? = some e ∧ e.marker = none ∧ major e.w0 = 0x5F
      ∧ ∀ x ∈ t.ctl.fetch.cross, x.owe.q ≠ q
    ∃ t' : Tile, exec .lineDispatch s = .next (s.putTile f t') ∧ t'.slices = t.slices ∧ t'.stores = t.stores ∧ t'.pend = t.pend
      ∧ ((∀ q e, ¬orphan q e) → t'.raises = t.raises ∧ t'.ctl.fetch.direct = [loop.first, loop.first + 1]
        ∧ t'.ctl.fetch.directAt = c.k + 1
        ∧ ∀ j < 4, vget t'.ctl.loops j = if j = l then { loop with count := loop.count - 1 } else vget t.ctl.loops j)
      ∧ ((∃ q e, orphan q e) → t'.ctl.loops = t.ctl.loops ∧ t'.ctl.fetch.direct = t.ctl.fetch.direct.tail
        ∧ ∃ x q e, t'.raises = t.raises ++ [x] ∧ orphan q e ∧ x.cause = 7 ∧ x.inst = false ∧ x.line = e.line ∧ x.lane = e.lane
          ∧ x.queue = queueNum q)

/-- R142, R143, R150, R152, R154: NOP changes nothing; PBR and PBRS load a target register at issue + 1; IFENCE refetches the line
after its own; PENLIFT is noted for the end of the cycle, where it is legal; WAITC holds back the next entry, until its delay has
expired, or itself, until a cycle. (That accesses of AP and receives of NET under way make a PENLIFT illegal is log 32, that posted writes
and signal words do is log 31.) -/
def Obligations.SequencerPlainComplete : Prop :=
  Completes .nop (fun _ => seqInfo none [] [] [] true) always (fun _ t => t)
  ∧ (∀ (b : BitVec 3) (disp : BitVec 13), Completes (.pbr b disp) (fun _ => seqInfo none [] [] [] true) always fun c t =>
      t.later c 1 (.target b.toNat ⟨c.e.line + disp.toInt, c.k, false⟩) [])
  ∧ (∀ (b : BitVec 3) (a : BitVec 7), Completes (.pbrs b a) (fun t => seqInfo none [t.wSpan a] [] [] true) always fun c t =>
      t.later c 1 (.target b.toNat ⟨(t.word a % 4096 : Nat), c.k, false⟩) [])
  ∧ Completes .ifence (fun _ => seqInfo none [] [] [] true) always (fun c t =>
      { t with ctl := { t.ctl with fetch := { t.ctl.fetch with
          direct := [], buf := [], nextRead := c.e.line + 1, readFrom := c.k + 1, renewAt := c.k + 1
          ifence := t.ctl.fetch.ifence - 1, running := true } } })
  ∧ (∀ map : BitVec 12,
      Completes (.penlift map) (fun _ => seqInfo none [] [] [] false)
        (fun c t => t.penForbidden c map.toNat = false)
        (fun c t => { t with penNow := some (map.toNat, c.e.line, c.e.lane) })
      ∧ Traps (.penlift map) (fun _ => seqInfo none [] [] [] false)
        (fun c t => t.penForbidden c map.toNat = true) (fun c _ => c.raise 61))
  ∧ (∀ delay : BitVec 24, Completes (.waitc delay) (fun _ => seqInfo none [] [] [] true) always fun c t =>
      { t with ctl := { t.ctl with notBefore := c.k + Nat.max 1 delay.toNat } })
  ∧ (∀ a : BitVec 7, Completes (.waitcUntil a) (fun t => seqInfo (Instr.waitcUntil a).cause [t.pairSpan a] [] [] true)
      (fun c t => t.pair a ≤ c.cyc) (fun _ t => t))
  ∧ (∀ (a : BitVec 7) s f t c, Issues s f t c (seqInfo (Instr.waitcUntil a).cause [t.pairSpan a] [] [] true) → c.cyc < t.pair a →
      exec (.waitcUntil a) s = .next (s.putTile f (t.held .wait)))
  ∧ ∀ s f t c, s.at? = some (f, t, c) →
      exec .waitcDelayExpiry s = .next (s.putTile f
        { t with ctl := { t.ctl with notBefore := if t.ctl.notBefore ≤ c.k then 0 else t.ctl.notBefore } })

/-- R69, R70, R151: WAITT takes its tokens in a cycle that grants them and else holds; SIGT's tokens join at the end of the cycle; a
legal PFX stands before the next entry of its queue, and before another PFX it is a misuse. -/
def Obligations.TokensAndPfxComplete : Prop :=
  (∀ (t : BitVec 3) (n : BitVec 8),
    Completes (.waitt t n) (fun _ => tokenInfo) (fun c tl => c.q ∈ tl.granted)
      (fun _ tl => { tl with tok := vset tl.tok t.toNat (vget tl.tok t.toNat - n.toNat) })
    ∧ (∀ s f tl c, Issues s f tl c tokenInfo → c.q ∉ tl.granted →
      exec (.waitt t n) s = .next (s.putTile f (tl.held .token)))
    ∧ Completes (.sigt t n) (fun _ => tokenInfo) always
      (fun c tl => { tl with sigs := tl.sigs ++ [(t.toNat, n.toNat, queueNum c.q)] }))
  ∧ ∀ (p : Pfx) (s : State) (f : Folio) (t : Tile) (c : Ctx) (e : Entry),
    s.at? = some (f, t, c) → t.queueHeld c = false → (Instr.pfx p).cause = none → (t.ctl.entries c.q)[1]? = some e →
    (e.marker.isSome ∨ major e.w0 ≠ 0x5F →
      exec (.pfx p) s = .next (s.putTile f { t with ctl := { t.ctl with pfx := some (c.q, p) } }))
    ∧ (e.marker = none → major e.w0 = 0x5F → exec (.pfx p) s = .next (s.putTile f (t.addRaise (c.inHand (c.raise 8)))))

/-- R151: the WAITTs that one cycle grants never take more of a counter than it holds, and what SIGTs add at its end raises cause 60,
with the counter unchanged, where it would pass 255. -/
def Obligations.TokenCountersStayInRange : Prop :=
  (∀ (t : Tile) (c : Ctx) (tok : Vector Nat 8) (n : BitVec 3) (qs : List Queue),
    ((grantTokens t c tok qs).map fun q => match t.headInstr q with
      | some (.waitt m k) => if m = n then k.toNat else 0
      | _ => 0).sum ≤ vget tok n.toNat)
  ∧ ∀ (t : Tile) (n : Nat), n < 8 →
    let sum := ((t.sigs.filter fun x => x.1 == n).map fun x => x.2.1).sum
    (vget t.tok n + sum ≤ 255 → vget t.addTokens.tok n = vget t.tok n + sum)
    ∧ (255 < vget t.tok n + sum → 0 < sum → vget t.addTokens.tok n = vget t.tok n ∧ raiseEnd 60 n 0 ∈ t.addTokens.raises)

/-- R84, R102, R156, R198, R287, R350, R464: RDID, RDCLK and CSRRD land values in w<d> with tag 0, CSRWR lands its value with the reserved
fields at zero (CSRRD of PREDS reads all sixteen predicates, none of them pending: R88, R99); an unassigned or read-only CSR, or a value that its CSR refuses, raises its cause and changes nothing; and what a CSR
takes is what it then reads as. -/
def Obligations.ControlRegistersComplete : Prop :=
  ((∀ (sel : IdSel) (d : BitVec 7), Completes (.rdid sel d) (fun t => seqInfo none [] [t.wSpan d] [] true) always fun c t =>
    t.later c 1 (.slices (t.win d) 8 (match sel with
      | .fx => c.fx | .fy => c.fy | .width => c.place.w | .height => c.place.h
      | .phase => c.launch.phase.toNat | .package => c.launch.lpkg.toNat) 0) [])
  ∧ (∀ d : BitVec 7, Completes (.rdclk d) (fun t => seqInfo (Instr.rdclk d).cause [] [t.pairSpan d] [] true) always fun c t =>
    t.later c 1 (.slices (t.win d) 16 (c.cyc % 2 ^ 64) 0) [])
  ∧ (∀ (csr : BitVec 12) (d : BitVec 7),
    let info (t : Tile) := seqInfo (Instr.csrrd csr d).cause [] [t.pairSpan d] (if csr = 0x014 then List.range 16 else []) true
    Completes (.csrrd csr d) info (fun c t => (t.readCsr c csr.toNat).isSome)
      (fun c t => t.later c 1 (.slices (t.win d) 16 ((t.readCsr c csr.toNat).getD 0) 0) [])
    ∧ Traps (.csrrd csr d) info (fun c t => t.readCsr c csr.toNat = none) (fun c _ => c.raise 88))
  ∧ ∀ (csr : BitVec 12) (a : BitVec 7),
    let n := csr.toNat
    let info (t : Tile) := seqInfo (Instr.csrwr csr a).cause [t.pairSpan a] [] [] true
    (∀ x, Traps (.csrwr csr a) info (fun _ t => csrRefused n (t.pair a) = some x) (fun c _ => c.raise x))
    ∧ Completes (.csrwr csr a) info
      (fun c t => csrRefused n (t.pair a) = none ∧ n ≠ 0x014 ∧ ¬(0x018 ≤ n ∧ n < 0x020) ∧ (n = 0x09B → c.hand = true))
      (fun c t => t.later c 1 (.csr n (BitVec.ofNat 64 (csrKeep n (t.pair a)))) [])
    ∧ (n = 0x014 → Completes (.csrwr csr a) info always
      fun c t => t.later c 1 (.preds 0xFFFF (BitVec.ofNat 16 (t.pair a))) [])
    ∧ (0x018 ≤ n ∧ n < 0x020 → Completes (.csrwr csr a) info always
      fun c t => t.later c 1 (.target (n - 0x018) ⟨(t.pair a % 4096 : Nat), c.k, false⟩) [])
    ∧ (n = 0x09B → Completes (.csrwr csr a) info (fun c _ => c.hand = false) (fun _ t => t)))
  ∧ (∀ (t : Tile) (c : Ctx) (n v : Nat), v < 2 ^ 64 → csrRefused n v = none → n ≠ 0x09B →
    (t.setCsr n (csrKeep n v)).readCsr c n = some (csrKeep n v))

/-- R332 to R334, R341 to R344: LD in both forms, LDX and FILL add a read of own SPAD two cycles on, at the address that the form gives
modulo 2^32, or trap with cause 45 or 46. -/
def Obligations.LoadsComplete : Prop :=
  (∀ (size : BitVec 2) (z : Bool) (d base : BitVec 7) (disp : BitVec 8),
    let nb := 2 ^ size.toNat
    let a (t : Tile) : Nat := (((t.word base : Int) + disp.toInt * nb) % 2 ^ 32).toNat
    Accesses (.ld size z d base disp)
      (fun t => apInfo (Instr.ld size z d base disp).cause [t.wSpan base] [if size = 3 then t.pairSpan d else t.wSpan d]
        1 1 0 false false true)
      0 a nb always fun _ t => .load (a t) nb (t.win d) (if size = 3 then 64 else 32) !z)
  ∧ ∀ o : LongMem,
    let info (i : Instr) (srcs : List (Nat × Nat)) (w : Nat) (_ : Tile) :=
      apInfo i.cause srcs [(o.vs.toNat, w / 4)] o.ecl.toNat (if 256 < o.bits then 2 else 1) o.ocl.toNat false false true
    let w := if o.x = 1 then 32 else o.bits
    let a (t : Tile) : Nat := (((t.slices.span o.bas.toNat 8 : Int) + o.disp) % 2 ^ 32).toNat
    let x (t : Tile) : Nat :=
      (((t.slices.span o.bas.toNat 8 : Int) + toSigned 32 (t.slices.span o.indexStart 8) * 2 ^ o.x.toNat) % 2 ^ 32).toNat
    let slot (t : Tile) : Nat := (((t.csr.sp.toNat : Int) + o.disp) % 2 ^ 32).toNat
    Accesses (.ldLong o) (info (.ldLong o) [o.baseSpan] w) o.ocl.toNat a (o.bits / 8) always
      (fun _ t => .load (a t) (o.bits / 8) o.vs.toNat w false)
    ∧ Accesses (.ldx o) (info (.ldx o) [o.baseSpan, (o.indexStart, 8)] o.bits) o.ocl.toNat x (o.bits / 8) always
      (fun _ t => .load (x t) (o.bits / 8) o.vs.toNat o.bits false)
    ∧ Accesses (.fill o) (info (.fill o) [] o.bits) o.ocl.toNat slot ((o.bits + 63) / 64 * 8) always
      (fun _ t => .load (slot t) ((o.bits + 63) / 64 * 8) o.vs.toNat o.bits false)

/-- R332 to R334, R341 to R345: ST in both forms, STX and SPILL add a write of own SPAD two cycles on with the data read at issue, or
trap with cause 45 or 46; a SPILL below the stack limit raises cause 47 with the slot's address. -/
def Obligations.StoresComplete : Prop :=
  (∀ (size : BitVec 2) (d base : BitVec 7) (disp : BitVec 8),
    let nb := 2 ^ size.toNat
    let a (t : Tile) : Nat := (((t.word base : Int) + disp.toInt * nb) % 2 ^ 32).toNat
    Accesses (.st size d base disp)
      (fun t => apInfo (Instr.st size d base disp).cause [t.wSpan base, if size = 3 then t.pairSpan d else t.wSpan d] []
        1 1 0 false false true)
      0 a nb always fun _ t => .store (a t) nb (t.pair d % 2 ^ (8 * nb)))
  ∧ ∀ o : LongMem,
    let info (i : Instr) (srcs : List (Nat × Nat)) (_ : Tile) :=
      apInfo i.cause srcs [] o.ecl.toNat (if 256 < o.bits then 2 else 1) o.ocl.toNat false false true
    let a (t : Tile) : Nat := (((t.slices.span o.bas.toNat 8 : Int) + o.disp) % 2 ^ 32).toNat
    let x (t : Tile) : Nat :=
      (((t.slices.span o.bas.toNat 8 : Int) + toSigned 32 (t.slices.span o.indexStart 8) * 2 ^ o.x.toNat) % 2 ^ 32).toNat
    let slot (t : Tile) : Nat := (((t.csr.sp.toNat : Int) + o.disp) % 2 ^ 32).toNat
    let v (t : Tile) : Nat := t.slices.span o.vs.toNat (o.bits / 4)
    let room (_ : Ctx) (t : Tile) : Prop := t.csr.splim.toNat ≤ slot t
    Accesses (.stLong o) (info (.stLong o) [o.baseSpan, o.vSpan]) o.ocl.toNat a (o.bits / 8) always
      (fun _ t => .store (a t) (o.bits / 8) (v t))
    ∧ Accesses (.stx o) (info (.stx o) [o.baseSpan, (o.indexStart, 8), o.vSpan]) o.ocl.toNat x (o.bits / 8) always
      (fun _ t => .store (x t) (o.bits / 8) (v t))
    ∧ Accesses (.spill o) (info (.spill o) [o.vSpan]) o.ocl.toNat slot ((o.bits + 63) / 64 * 8) room
      (fun _ t => .store (slot t) ((o.bits + 63) / 64 * 8) (v t))
    ∧ Traps (.spill o) (info (.spill o) [o.vSpan])
      (fun c t => t.admits c o.ocl.toNat (slot t) ((o.bits + 63) / 64 * 8) ∧ ¬room c t) (fun c t => c.raiseInfo 47 (slot t) 0)

/-- R334 to R336, R339: the one read of the AP due in a cycle posts its value, extended or truncated, for issue + 4 with tag 0 and
changes nothing else but the count of corrected words (R474); a read that finds marked words marks each of them poisoned, raises cause
80 with the lowest one's offset and posts nothing. -/
def Obligations.LoadPerforms : Prop :=
  ∀ (t : Tile) (hand : Bool) (k : Nat) (a : ApAcc) (addr nb vs w : Nat) (sign : Bool),
    t.ap.accs = [a] → a.hand = hand → a.perf = k → a.kind = .load addr nb vs w sign → 0 < nb → 0 < w →
    (t.badWord addr nb = none → t.apReads hand k = { t.corrects addr nb with pend := t.pend ++ [{
        land := a.issue + 4, issue := a.issue, writer := 2, hand := hand, events := []
        dest := .slices vs (w / 4)
          (let v := t.littleEndian addr nb
           if sign = true ∧ 8 * nb < w ∧ v.testBit (8 * nb - 1) = true then v + 2 ^ w - 2 ^ (8 * nb) else v % 2 ^ w) 0 }] })
    ∧ ∀ x, t.badWord addr nb = some x →
      (addr / 8 ≤ x ∧ 8 * x < addr + nb ∧ (x ∈ t.stores.poison ∨ x ∈ t.stores.bad))
      ∧ (∀ y, addr / 8 ≤ y → y < x → 8 * y < addr + nb → y ∉ t.stores.poison ∧ y ∉ t.stores.bad)
      ∧ (t.apReads hand k).pend = t.pend
      ∧ (∀ y, addr / 8 ≤ y → 8 * y < addr + nb → y ∈ t.stores.poison ∨ y ∈ t.stores.bad →
        y ∈ (t.apReads hand k).stores.poison ∧ y ∉ (t.apReads hand k).stores.bad)
      ∧ (t.apReads hand k).raises = t.raises ++ [raiseEnd 80 (8 * x) 0] ∧ (t.apReads hand k).stores.mem = t.stores.mem

/-- R21, R28, R334, R339: the one store of the AP due in a cycle writes exactly its bytes, the lowest byte of its data first; every
other byte reads as before, and slices, predicates, tokens and the queues stay. A store that covers marked words only in part writes
nothing, marks each of them poisoned and raises cause 80 for the first of them. -/
def Obligations.StorePerforms : Prop :=
  ∀ (t : Tile) (hand : Bool) (k : Nat) (a : ApAcc) (addr nb v : Nat),
    t.ap.accs = [a] → a.hand = hand → a.perf = k → a.kind = .store addr nb v →
    let t' := t.apWrites hand k
    (t.partBad addr nb = [] →
      (∀ i < nb, t'.byte (addr + i) = BitVec.ofNat 8 (v / 256 ^ i))
      ∧ (∀ x, x < addr ∨ addr + nb ≤ x → t'.byte x = t.byte x)
      ∧ t'.raises = t.raises)
    ∧ (∀ x l, t.partBad addr nb = x :: l →
      (x ∈ t.stores.poison ∨ x ∈ t.stores.bad) ∧ (8 * x < addr ∨ addr + nb < 8 * x + 8)
      ∧ t'.stores.mem = t.stores.mem ∧ t'.raises = t.raises ++ [raiseEnd 80 (8 * x) 0] ∧ ∀ y ∈ x :: l, y ∈ t'.stores.poison)
    ∧ t'.slices = t.slices ∧ t'.tok = t.tok ∧ t'.ctl = t.ctl ∧ t'.csr = t.csr ∧ t'.trap = t.trap ∧ t'.pend = t.pend
    ∧ t'.stores.forms = t.stores.forms ∧ t'.ap = t.ap

/-- R97, R333, R334, R346: each local atomic adds an access of its operation two cycles on, with its operand, or CAS's expected and new
value, read at issue, or traps with cause 45 or 46; FADD raises cause 19 for an operand whose tag is not its format's. -/
def Obligations.AtomicsComplete : Prop :=
  ∀ (o : LongMem) (i : Instr) (op : AtomOp),
    (i, op) ∈ [(Instr.atomAdd o, AtomOp.add), (.atomMin o, .min), (.atomMax o, .max), (.atomAnd o, .and), (.atomOr o, .or),
      (.atomXor o, .xor), (.atomXchg o, .xchg), (.atomCas o, .cas), (.atomFadd o, .fadd), (.atomMinZ o, .minz), (.atomMaxZ o, .maxz)] →
    let n := o.bits / 4
    let info (_ : Tile) : Info := apInfo i.cause [o.baseSpan, (o.vs.toNat, if op = .cas then 2 * n else n)] [(o.vs.toNat, n)]
      o.ecl.toNat 1 o.ocl.toNat (op == .fadd) (op == .add || op == .fadd) true
    let a (t : Tile) : Nat := (((t.slices.span o.bas.toNat 8 : Int) + o.disp) % 2 ^ 32).toNat
    let tagged (_ : Ctx) (t : Tile) : Prop :=
      op = .fadd → ∀ g ∈ granules o.vs.toNat n, t.slices.tag g ∈ [0, if o.bits = 64 then 1 else 2]
    (o.bits = 32 ∨ o.bits = 64 →
      Accesses i info o.ocl.toNat a (o.bits / 8) tagged fun c t =>
        .atom op (a t) o.bits o.vs.toNat (t.slices.span o.vs.toNat n)
          (if op = .cas then t.slices.span (o.vs.toNat + n) n else 0) (if op = .fadd then c.rnd t else ⟨0, c.sat⟩)
          (draw t.csr.rseed c.k 0))
    ∧ (op = .fadd → ∀ g, Traps i info
      (fun c t => t.noRatom c o.ocl.toNat (a t) (o.bits / 8)
        ∧ t.slices.badTag o.vs.toNat n [0, if o.bits = 64 then 1 else 2] = some g)
      (fun c t => c.raiseInfo 19 g (t.slices.tag g)))

/-- R347 and R348: the one local atomic due in a cycle returns the old word for issue + 6, writes the word of its operation's table row
and no other byte, and CAS writes only where the old word is the expected one; on a marked word it writes nothing, leaves it poisoned (R339)
and raises cause 80. -/
def Obligations.AtomicPerforms : Prop :=
  ∀ (t : Tile) (hand : Bool) (k : Nat) (a : ApAcc) (op : AtomOp) (addr w vs v n u : Nat) (r : Rnd),
    t.ap.accs = [a] → a.hand = hand → a.perf = k → a.kind = .atom op addr w vs v n r u → w = 32 ∨ w = 64 → v < 2 ^ w → n < 2 ^ w →
    let t' := t.apWrites hand k
    let old := t.littleEndian addr (w / 8)
    let s (x : Nat) : Int := toSigned w x
    (t.badWord addr (w / 8) = none →
      (∃ ev, t'.pend = t.pend ++ [{ land := a.issue + 6, issue := a.issue, writer := 2, hand := hand, events := ev
                                    dest := .slices vs (w / 4) old 0 }])
      ∧ (∀ x, x < addr ∨ addr + w / 8 ≤ x → t'.byte x = t.byte x)
      ∧ (op ≠ .fadd → t'.littleEndian addr (w / 8) = match op with
        | .add => (fit (s old + s v) w true r.sat).1
        | .min => if s v < s old then v else old
        | .max => if s old < s v then v else old
        | .minz => Nat.min v old
        | .maxz => Nat.max v old
        | .and => old &&& v
        | .or => old ||| v
        | .xor => old ^^^ v
        | .xchg => v
        | .cas => if old = v then n else old
        | .fadd => old)
      ∧ (op = .fadd → ∃ x e, accumulate (if w = 64 then 1 else 2) r u false false
          [some (decodeElem (if w = 64 then 1 else 2) old), some (decodeElem (if w = 64 then 1 else 2) v)] = (x, e)
        ∧ t'.littleEndian addr (w / 8) = x % 2 ^ w))
    ∧ (∀ x, t.badWord addr (w / 8) = some x → t'.stores.mem = t.stores.mem ∧ t'.pend = t.pend
        ∧ (∀ y ∈ t.badWords addr (w / 8), y ∈ t'.stores.poison)
        ∧ t'.raises = t.raises ++ [raiseEnd 80 (8 * x) 0])
    ∧ t'.slices = t.slices ∧ t'.tok = t.tok ∧ t'.ctl = t.ctl ∧ t'.csr = t.csr ∧ t'.ap = t.ap

/-- R26, R349 to R351: a RATOM whose target tile and offset stand sends its request flit in the next cycle and lands at issue + RALAT;
an RALAT below the round trip of R131 raises cause 63 and sends nothing. -/
def Obligations.RemoteAtomicsComplete : Prop :=
  ∀ (o : LongMem) (i : Instr) (op : AtomOp),
    (i, op) ∈ [(Instr.ratomAdd o, AtomOp.add), (.ratomMin o, .min), (.ratomMax o, .max), (.ratomAnd o, .and), (.ratomOr o, .or),
      (.ratomXor o, .xor), (.ratomXchg o, .xchg), (.ratomCas o, .cas), (.ratomFadd o, .fadd), (.ratomMinZ o, .minz),
      (.ratomMaxZ o, .maxz)] →
    o.bits = 32 ∨ o.bits = 64 →
    let n := o.bits / 4
    let info (_ : Tile) : Info := apInfo i.cause [(o.bas.toNat, 16), (o.vs.toNat, if op = .cas then 2 * n else n)] [(o.vs.toNat, n)]
      o.ecl.toNat 1 o.ocl.toNat (op == .fadd) (op == .add || op == .fadd) false
    let base (t : Tile) : Nat := t.slices.span o.bas.toNat 16
    let off (t : Tile) : Nat := (((base t % 2 ^ 22 : Nat) : Int) + o.disp) % 2 ^ 22 |>.toNat
    let dx (t : Tile) : Nat := base t / 2 ^ 32 % 256
    let dy (t : Tile) : Nat := base t / 2 ^ 24 % 256
    let goes (x y : Ctx → Tile → Nat) (c : Ctx) (t : Tile) : Prop :=
      t.noRatom c o.ocl.toNat (if dx t = 0 ∧ dy t = 0 then off t else 0) (if dx t = 0 ∧ dy t = 0 then o.bits / 8 else 0)
      ∧ (op = .fadd → ∀ g ∈ granules o.vs.toNat n, t.slices.tag g ∈ [0, if o.bits = 64 then 1 else 2])
      ∧ base t / 2 ^ 40 = 0 ∧ base t / 2 ^ 22 % 4 = 0
      ∧ ((x c t : Nat) : Int) = c.fx + toSigned 8 (dx t) ∧ x c t < c.place.w
      ∧ ((y c t : Nat) : Int) = c.fy + toSigned 8 (dy t) ∧ y c t < c.place.h
      ∧ off t + o.bits / 8 ≤ 0xF8000 ∧ off t % (o.bits / 8) = 0
    ∀ x y : Ctx → Tile → Nat,
      (∀ s f t c, Issues s f t c (info t) → goes x y c t → 2 * hops c.place c.fx c.fy (x c t) (y c t) ≤ t.csr.ralat →
        ∃ t' : Tile, exec i s = .next (s.putTile f (t'.issued c ((info t).cost c)))
          ∧ t'.net.router.inj = t.net.router.inj ++ [{ srcX := c.fx, srcY := c.fy, tgts := [(x c t, y c t)], born := c.k + 1
                                                       bad := false
                                                       pay := .request c.k op (off t) o.bits (t.slices.span o.vs.toNat n)
                                                         (if op = .cas then t.slices.span (o.vs.toNat + n) n else 0)
                                                         (draw t.csr.rseed c.k 0) (if op = .fadd then c.rnd t else ⟨0, c.sat⟩) }]
          ∧ t'.ap.ratoms = t.ap.ratoms ++ [{ id := c.k, issue := c.k, land := c.k + t.csr.ralat, cls := c.cls o.ocl.toNat
                                             own := x c t == c.fx && y c t == c.fy, addr := off t, w := o.bits
                                             vs := o.vs.toNat, reply := none }]
          ∧ t'.slices = t.slices ∧ t'.stores = t.stores ∧ t'.pend = t.pend)
      ∧ Traps i info (fun c t => goes x y c t ∧ t.csr.ralat < 2 * hops c.place c.fx c.fy (x c t) (y c t))
        (fun c t => c.raiseInfo 63 (c.k + t.csr.ralat) 0)

/-- R313, R353 to R355, R357, R358: WAITA goes to sleep on its word, or traps with cause 45 or 46; asleep, it examines its word in every
cycle from issue + 2, wakes in the first in which the word meets its condition, and traps with cause 80 where the word is poisoned or
cannot be corrected. FENCE, SFENCE and UNPIN issue in the cycle that lets them and else hold. A cycle lets a FENCE or SFENCE that stands at
the head of AP issue exactly when every earlier access with a class of its mask has performed, or reached its scope's readers; inside a
handler it waits for the handler's own accesses alone (the model's reading, log 44). It lets UNPIN issue exactly when every command of the CE has completed. A fence that
has reached the head of AP holds a SEND of a masked class. UNPIN makes its slot invalid at issue + 1, and PROBE of a free slot is noted for the
end of the cycle, with its writes of w<d> and of the slot pending from its issue; of a slot in use it raises cause 48, of an address of
2^54 or more cause 49. (That a cycle is judged at its grant, and that MX and CE, which come before AP, hold in their turn and have another
after a fence that has issued, is log 17.) -/
def Obligations.WaitsFencesAndProbesComplete : Prop :=
  (∀ (cond : Cond) (o : LongMem),
    let info (_ : Tile) := apInfo (Instr.waita cond o).cause [o.baseSpan, o.vSpan] [] o.ecl.toNat 1 o.ocl.toNat false false false
    let a (t : Tile) : Nat := (((t.slices.span o.bas.toNat 8 : Int) + o.disp) % 2 ^ 32).toNat
    Completes (.waita cond o) info (fun c t => t.admits c o.ocl.toNat (a t) 8)
      (fun c t => { t with ap := { t.ap with sleep := some { line := c.e.line, lane := c.e.lane, w0 := c.e.w0, w1 := c.e.w1
                                                             issue := c.k, cond := cond, addr := a t
                                                             cmp := t.slices.span o.vs.toNat 16, cls := c.cls o.ocl.toNat } } })
    ∧ Traps (.waita cond o) info (fun c t => t.noRatom c o.ocl.toNat (a t) 8 ∧ 0xF8000 < a t + 8) (fun c t => c.raiseInfo 45 (a t) 0)
    ∧ Traps (.waita cond o) info (fun c t => t.noRatom c o.ocl.toNat (a t) 8 ∧ a t + 8 ≤ 0xF8000 ∧ a t % 8 ≠ 0)
      (fun c t => c.raiseInfo 46 (a t) 0))
  ∧ (∀ (m : BitVec 16) (sc : BitVec 2), ∀ i ∈ [Instr.fence m, .sfence sc m],
      Completes i (fun _ => fenceInfoOf none [] [] true) (fun _ t => t.apGo = true) (fun _ t => t)
      ∧ ∀ s f t c, Issues s f t c (fenceInfoOf none [] [] true) → t.apGo = false → exec i s = .next (s.putTile f (t.held .fence)))
  ∧ (∀ (t : Tile) (c : Ctx) (m : BitVec 16) (sc : BitVec 2) (slot : BitVec 5), t.headReady c .ap = true →
    (c.hand = false → t.headInstr .ap = some (.fence m) → ((t.grant c).apGo = true ↔ t.Quiet c.k m.toNat none))
    ∧ (c.hand = false → t.headInstr .ap = some (.sfence sc m) → ((t.grant c).apGo = true ↔ t.Quiet c.k m.toNat (some sc.toNat)))
    ∧ (c.hand = true → t.headInstr .ap = some (.fence m) ∨ t.headInstr .ap = some (.sfence sc m) → ((t.grant c).apGo = true ↔
      ∀ a ∈ t.ap.accs, a.hand = true → a.issue < c.k → Selects m.toNat a.cls → a.perf < c.k))
    ∧ (t.headInstr .ap = some (.unpin slot) → ((t.grant c).apGo = true ↔ ∀ x ∈ t.ce.cmds, ∃ e, x.e = some e ∧ e < c.k)))
  ∧ (∀ (o : NetSend) (s : State) (f : Folio) (t : Tile) (c : Ctx) (mask : Nat),
    let n : Info := netInfo (Instr.send o).cause [spanOf o.vs.toNat (widthBits o.wv)] [] o.ecl.toNat o.ocl.toNat
    s.at? = some (f, t, c) → c.q = .net → c.hand = false → t.queueHeld c = false → n.cause = none → t.violation c n = false →
    t.ctl.since .ap ≠ none → t.headFence = some mask → Selects mask (c.cls o.ocl.toNat) →
    exec (.send o) s = .next (s.putTile f (t.held .fence)))
  ∧ (∀ slot : BitVec 5, Completes (.unpin slot) (fun _ => fenceInfoOf none [] [] false) (fun _ t => t.apGo = true)
      (fun c t => t.later c 1 (.slot slot.toNat false false 0 false 0 0) []))
  ∧ (∀ (slot : BitVec 5) (a d : BitVec 7),
    let info (t : Tile) := fenceInfoOf (Instr.probe slot a d).cause [t.pairSpan a] [t.wSpan d] false
    Completes (.probe slot a d) info (fun _ t => (vget t.wins slot.toNat).v = false ∧ t.pair a < 2 ^ 54)
      (fun c t => (({ t with probe := some (slot.toNat, t.pair a, t.win d, c.k) } : Tile).later c 1 (.slices (t.win d) 8 0 0) []).later c 1
        .nothing [])
    ∧ Traps (.probe slot a d) info (fun _ t => (vget t.wins slot.toNat).v = true) (fun c _ => c.raise 48)
    ∧ Traps (.probe slot a d) info (fun _ t => (vget t.wins slot.toNat).v = false ∧ 2 ^ 54 ≤ t.pair a) (fun c _ => c.raise 49))
  ∧ ∀ s f t c w, s.at? = some (f, t, c) → t.ap.sleep = some w →
    ∃ s', exec .waitaWake s = .next s' ∧
      ∀ g t', s'.folio? s.cursor.folio = some g → g.tiles[s.cursor.tile]? = some t' →
        (c.cyc < w.issue + 2 → t' = t)
        ∧ (w.issue + 2 ≤ c.cyc → ∀ x, t.badWord w.addr 8 = some x →
          t' = (t.poisonWord x).addRaise (raiseNamed 80 w.line w.lane 2 (8 * x) 0))
        ∧ (w.issue + 2 ≤ c.cyc → t.badWord w.addr 8 = none →
          if condHolds w.cond 64 (t.littleEndian w.addr 8) w.cmp = true
          then t'.ap.sleep = none ∧ t'.ap.notBefore = c.cyc + 1 else t' = t.corrects w.addr 8)

/-- R191 and R192: a nonzero finite value rounds to one of its two neighbours among the format's magnitudes, with N beyond the largest, as
its mode says: nearest with ties to even or away, towards zero, up, down, or by the draw. Reaching N is an overflow; an inexact result
below the smallest normal magnitude of a format that is not an integer format counts an underflow. -/
def Obligations.RoundingFollowsTheMode : Prop :=
  ∀ (f : Nat) (r : Rnd) (u : Nat) (scaled neg : Bool) (m : Nat) (e : Int), f ≤ 15 → r.rm ≤ 5 → u < 2 ^ 32 → m ≠ 0 →
    RoundsTo f r u scaled neg (ratOf (m, e)) (roundFin f r u scaled neg m e)

/-- R186 to R188, R264: a sum of finite terms is exact and rounds once; a sum of zero takes its sign by R187; a NaN term gives the canonical
NaN without an event; an invalid product, or infinities of both signs, give it with one invalid event. -/
def Obligations.SumsAreExactAndRoundOnce : Prop :=
  ∀ (f : Nat) (r : Rnd) (u : Nat) (scaled : Bool) (ts : List Machine.Num),
    (ts.all Machine.Num.isFinite = true → (ts.map Machine.Num.rat).sum ≠ 0 → ∃ neg m e, m ≠ 0
      ∧ (Machine.Num.fin neg m e).rat = (ts.map Machine.Num.rat).sum
      ∧ accumulate f r u scaled false (ts.map some) = roundFin f r u scaled neg m e)
    ∧ (ts ≠ [] → ts.all Machine.Num.isFinite = true → (ts.map Machine.Num.rat).sum = 0 →
      accumulate f r u scaled false (ts.map some) = (zeroOf f
        (if ts.all Machine.Num.isNegZero then true else if ts.all Machine.Num.isPosZero then false else r.rm == 3), none))
    ∧ (Machine.Num.nan ∈ ts → accumulate f r u scaled false (ts.map some) = (fmtNan f, none))
    ∧ (Machine.Num.nan ∉ ts → Machine.Num.inf true ∈ ts → Machine.Num.inf false ∈ ts → accumulate f r u scaled false (ts.map some) = (fmtNan f, some 0))
    ∧ (Machine.Num.nan ∉ ts → accumulate f r u scaled false (none :: ts.map some) = (fmtNan f, some 0))
    ∧ ∀ s, Machine.Num.nan ∉ ts → Machine.Num.inf s ∈ ts → Machine.Num.inf (!s) ∉ ts → accumulate f r u scaled false (ts.map some) = (infOf f s, none)

/-- R253 to R257, R259, R264: VADD, VSUB, VMUL, VFMA, VFMS and VSCL land in each lane, VSUM and VDOT in their one lane, the sum of their exact
terms rounded once, after 3, 5, 6 or 7 cycles, with tag ef, or raise cause 19 for a source with another format's tag (VSCL takes its scale within 4096
binades, beyond which no format tells scales apart). -/
def Obligations.VectorArithmeticCompletes : Prop :=
  ∀ o : LongVec,
    let f := o.fmt
    let a (t : Tile) (i : Nat) := numLane f (o.aVal t) i
    let b (t : Tile) (i : Nat) := numLane f (o.bVal t) i
    let d (t : Tile) (i : Nat) := numLane f (o.dVal t) i
    let src (v : Nat) := (List.range (o.aBits / elemBits o.srcFmt)).map fun i => decodeElem o.srcFmt (laneOf (elemBits o.srcFmt) v i)
    let lanes (terms : Tile → Nat → List (Option Machine.Num)) (c : Ctx) (t : Tile) :=
      packRounded o.w ((List.range (o.dBits / o.w)).map fun i => accumulate f (c.rnd t) (c.drawAt t i) false false (terms t i))
    let need (s : Nat × Nat) (g : Nat) : List TagNeed := if inN g then [(s, [0, g])] else []
    let tag (_ : Tile) := f
    let ab := need o.aSpan f ++ need o.bSpan f
    VectorLands (.vadd o) o 3 1 true true [o.aSpan, o.bSpan] ab tag (lanes fun t i => [some (a t i), some (b t i)])
    ∧ VectorLands (.vsub o) o 3 1 true true [o.aSpan, o.bSpan] ab tag (lanes fun t i => [some (a t i), some (b t i).neg])
    ∧ VectorLands (.vmul o) o 3 1 true true [o.aSpan, o.bSpan] ab tag (lanes fun t i => [(a t i).mul (b t i)])
    ∧ VectorLands (.vfma o) o 5 1 true true [o.dSpan, o.aSpan, o.bSpan] (ab ++ need o.dSpan f) tag
      (lanes fun t i => [(a t i).mul (b t i), some (d t i)])
    ∧ VectorLands (.vfms o) o 5 1 true true [o.dSpan, o.aSpan, o.bSpan] (ab ++ need o.dSpan f) tag
      (lanes fun t i => [((a t i).mul (b t i)).map Machine.Num.neg, some (d t i)])
    ∧ VectorLands (.vscl o) o 3 1 true true [o.aSpan, o.bSpan] (need o.aSpan f) tag
      (lanes fun t i => [some ((a t i).scale (max (-4096) (min 4096 (toSigned 32 (o.bVal t)))))])
    ∧ VectorLands (.vsum o) o 6 2 true true [o.aSpan] (need o.aSpan o.srcFmt) tag (fun c t =>
      packRounded o.w [accumulate f (c.rnd t) (c.drawAt t 0) false false ((src (o.aVal t)).map some)])
    ∧ VectorLands (.vdot o) o 7 2 true true [o.dSpan, o.aSpan, o.bSpan]
      (need o.aSpan o.srcFmt ++ need o.bSpan o.srcFmt ++ need o.dSpan f) tag (fun c t =>
      packRounded o.w [accumulate f (c.rnd t) (c.drawAt t 0) false
        ((src (o.aVal t)).any Machine.Num.isNan || (src (o.bVal t)).any Machine.Num.isNan)
        (some (d t 0) :: List.zipWith Machine.Num.mul (src (o.aVal t)) (src (o.bVal t)))])

/-- R194 to R196, R265, R266: VCVT converts each lane from its source format, after 4 cycles; VRCP, VRSQ, VSQRT, VEXP2 and VLOG2 land each
lane's function after 8 cycles. Of a finite input 1/A, 1/√A and √A are the exact real rounded once as R191 says, 2^A of an integer and log2
of a power of two are that exact value rounded (other values of the two rest on the digit comparison of log 12); the functions answer
the special inputs of R265's table; a conversion rounds a finite value once (R194), gives NaN and each infinity what R195's table gives
them in the target format, and an integer that does not fit an integer format what R196 says. (That VCVT to an integer format saturates by
FPCTL.sat, as R196 has it, and not by R254's rule for integer lanes is log 18.) -/
def Obligations.VectorFunctionsComplete : Prop :=
  (∀ o : LongVec,
    let need (g : Nat) : List TagNeed := if inN g then [(o.aSpan, [0, g])] else []
    let lanes (g : Rnd → Nat → Nat → Nat → Rounded) (c : Ctx) (t : Tile) :=
      packRounded o.w ((List.range (o.dBits / o.w)).map fun i => g (c.rnd t) (c.drawAt t i) (o.aVal t) i)
    let fn (x : Transc) := lanes fun r u v i => transcElem x o.fmt r u (laneOf o.w v i)
    VectorLands (.vcvt o) o 4 1 true true [o.aSpan] (need o.xn) (fun _ => o.fmt)
      (lanes fun r u v i => convert o.xn o.fmt r u (laneOf (elemBits o.xn) v i))
    ∧ VectorLands (.vrcp o) o 8 2 true true [o.aSpan] (need o.fmt) (fun _ => o.fmt) (fn .rcp)
    ∧ VectorLands (.vrsq o) o 8 2 true true [o.aSpan] (need o.fmt) (fun _ => o.fmt) (fn .rsq)
    ∧ VectorLands (.vsqrt o) o 8 2 true true [o.aSpan] (need o.fmt) (fun _ => o.fmt) (fn .sqrt)
    ∧ VectorLands (.vexp2 o) o 8 2 true true [o.aSpan] (need o.fmt) (fun _ => o.fmt) (fn .exp2)
    ∧ VectorLands (.vlog2 o) o 8 2 true true [o.aSpan] (need o.fmt) (fun _ => o.fmt) (fn .log2))
  ∧ (∀ (f : Nat) (r : Rnd) (u x : Nat), 1 ≤ f → f ≤ 4 →
    (decodeElem f x = .nan → ∀ g, transcElem g f r u x = (fmtNan f, none))
    ∧ (∀ e, decodeElem f x = .fin false 0 e → transcElem .rcp f r u x = (infOf f false, none)
      ∧ transcElem .rsq f r u x = (infOf f false, none) ∧ transcElem .sqrt f r u x = (zeroOf f false, none)
      ∧ transcElem .log2 f r u x = (infOf f true, none))
    ∧ (∀ e, decodeElem f x = .fin true 0 e → transcElem .rcp f r u x = (infOf f true, none)
      ∧ transcElem .rsq f r u x = (infOf f true, none) ∧ transcElem .sqrt f r u x = (zeroOf f true, none)
      ∧ transcElem .log2 f r u x = (infOf f true, none))
    ∧ (decodeElem f x = .inf false → transcElem .rcp f r u x = (0, none) ∧ transcElem .rsq f r u x = (0, none)
      ∧ ∀ g ∈ [Transc.sqrt, .exp2, .log2], transcElem g f r u x = (infOf f false, none))
    ∧ (decodeElem f x = .inf true → transcElem .rcp f r u x = (zeroOf f true, none) ∧ transcElem .exp2 f r u x = (0, none)
      ∧ ∀ g ∈ [Transc.rsq, .sqrt, .log2], transcElem g f r u x = (fmtNan f, some 0))
    ∧ (∀ m e, m ≠ 0 → decodeElem f x = .fin true m e →
      ∀ g ∈ [Transc.rsq, .sqrt, .log2], transcElem g f r u x = (fmtNan f, some 0))
    ∧ (∀ s e, decodeElem f x = .fin s 0 e → transcElem .exp2 f r u x = roundFin f r u false false 1 0)
    ∧ (r.rm ≤ 5 → u < 2 ^ 32 → ∀ s m e, m ≠ 0 → decodeElem f x = .fin s m e →
      let a : ℝ := ratOf (m, e)
      RoundsTo f r u false s (1 / a) (transcElem .rcp f r u x)
      ∧ (s = false → RoundsTo f r u false false (1 / √a) (transcElem .rsq f r u x)
        ∧ RoundsTo f r u false false √a (transcElem .sqrt f r u x))
      ∧ (∀ n : ℤ, (if s then -a else a) = n → transcElem .exp2 f r u x = roundFin f r u false false 1 n)
      ∧ ∀ j : ℤ, s = false → a = 2 ^ j → transcElem .log2 f r u x =
        if j = 0 then (0, none) else roundFin f r u false (decide (j < 0)) j.natAbs 0))
  ∧ ∀ (x f : Nat) (r : Rnd) (u v : Nat), x ≤ 15 → f ≤ 15 →
    (decodeElem x v = .nan → convert x f r u v =
      if inI f = true then (if r.sat then 0 else 2 ^ (elemBits f - 1), some 0)
      else if 7 ≤ f ∧ f ≤ 9 then (0, some 0) else (fmtNan f, none))
    ∧ (∀ s, decodeElem x v = .inf s → convert x f r u v =
      let w := elemBits f
      if 1 ≤ f ∧ f ≤ 5 then (infOf f s, none)
      else if inI f = true then
        (if r.sat then (if s then 2 ^ (w - 1) else 2 ^ (w - 1) - 1, some 3) else (2 ^ (w - 1), some 0))
      else if 7 ≤ f ∧ f ≤ 9 ∨ r.sat = true then (maxCode f s + if s then 2 ^ (w - 1) else 0, some 3)
      else (fmtNan f, some 0))
    ∧ (∀ s m e, inI x = false ∨ inI f = false → decodeElem x v = .fin s m e → convert x f r u v = roundFin f r u false s m e)
    ∧ (inI x = true → inI f = true →
      let w := elemBits f
      let n := toSigned (elemBits x) v
      convert x f r u v = if r.sat = false ∨ -2 ^ (w - 1) ≤ n ∧ n < 2 ^ (w - 1) then ((n % 2 ^ w).toNat, none)
        else (if n < 0 then 2 ^ (w - 1) else 2 ^ (w - 1) - 1, some 3))

/-- R67, R260 to R264: VNEG, VABS, VMIN, VMAX, VCLAMP, VCMP and VSEL after 3 cycles and VMAXR and VMINR after 6 land encodings that they
choose or change by the sign bit alone, without a rounding or an event. VCMP's lanes compare by value in the floating formats and as
two's complement, or as unsigned under the .z conditions, in the integer formats. -/
def Obligations.VectorPicksComplete : Prop :=
  (∀ o : LongVec,
    let f := o.fmt
    let need (s : Nat × Nat) : List TagNeed := if inN f then [(s, [0, f])] else []
    let ab := need o.aSpan ++ need o.bSpan
    let a (t : Tile) (i : Nat) := laneOf o.w (o.aVal t) i
    let b (t : Tile) (i : Nat) := laneOf o.w (o.bVal t) i
    let lanes (g : Tile → Nat → Nat) (_ : Ctx) (t : Tile) :=
      packRounded o.w ((List.range (o.dBits / o.w)).map fun i => (g t i, none))
    let tag (_ : Tile) := f
    VectorLands (.vneg o) o 3 1 false false [o.aSpan] (need o.aSpan) tag (lanes fun t i => signOp f false (a t i))
    ∧ VectorLands (.vabs o) o 3 1 false false [o.aSpan] (need o.aSpan) tag (lanes fun t i => signOp f true (a t i))
    ∧ VectorLands (.vmin o) o 3 1 false false [o.aSpan, o.bSpan] ab tag (lanes fun t i => minMax f false (a t i) (b t i))
    ∧ VectorLands (.vmax o) o 3 1 false false [o.aSpan, o.bSpan] ab tag (lanes fun t i => minMax f true (a t i) (b t i))
    ∧ VectorLands (.vclamp o) o 3 1 false false [o.aSpan, o.bSpan] ab tag
      (lanes fun t i => minMax f false (minMax f true (a t i) (b t 0)) (b t 1))
    ∧ VectorLands (.vcmp o) o 3 1 false false [o.aSpan, o.bSpan] ab (fun _ => 0)
      (lanes fun t i => if vcmpLane f o.xn (a t i) (b t i) then 2 ^ o.w - 1 else 0)
    ∧ VectorLands (.vsel o) o 3 1 false false [o.dSpan, o.aSpan, o.bSpan] [] (fun t => t.slices.commonTag [o.aSpan, o.bSpan])
      (lanes fun t i => if (laneOf o.w (o.dVal t) i).testBit (o.w - 1) then a t i else b t i)
    ∧ (0 < o.aBits / o.w → ∀ big : Bool, VectorLands (if big then .vmaxr o else .vminr o) o 6 2 false false [o.aSpan] (need o.aSpan) tag
      (fun _ t => packRounded o.w
        [(((List.range (o.aBits / o.w - 1)).map fun i => a t (i + 1)).foldl (minMax f big) (minMax f big (a t 0) (a t 0)), none)])))
  ∧ (∀ f x, f ≤ 15 → inN f = true → x < 2 ^ elemBits f → decodeElem f x ≠ .nan →
      (∀ m e s, decodeElem f x = .fin s m e → (m ≠ 0 ∨ f < 13) →
        decodeElem f (signOp f false x) = .fin (!s) m e ∧ decodeElem f (signOp f true x) = .fin false m e)
      ∧ (∀ s, decodeElem f x = .inf s → decodeElem f (signOp f false x) = .inf !s ∧ decodeElem f (signOp f true x) = .inf false))
  ∧ (∀ f x y k, inI f = false →
      (decodeElem f x = .nan ∨ decodeElem f y = .nan → vcmpLane f k x y = (k == 1))
      ∧ ∀ s t m n e g, decodeElem f x = .fin s m e → decodeElem f y = .fin t n g →
        let p : ℚ := (Machine.Num.fin s m e).rat
        let q : ℚ := (Machine.Num.fin t n g).rat
        vcmpLane f 0 x y = decide (p = q) ∧ vcmpLane f 1 x y = decide (p ≠ q) ∧ vcmpLane f 2 x y = decide (p < q)
        ∧ vcmpLane f 3 x y = decide (p ≤ q) ∧ vcmpLane f 4 x y = decide (q < p) ∧ vcmpLane f 5 x y = decide (q ≤ p))
  ∧ (∀ (f x y : ℕ) (s : Bool), inI f = false → decodeElem f x = .inf s → decodeElem f y ≠ .nan →
      let p := decodeElem f y
      vcmpLane f 0 x y = decide (p = .inf s) ∧ vcmpLane f 2 x y = (s && decide (p ≠ .inf true))
      ∧ vcmpLane f 4 x y = (!s && decide (p ≠ .inf false)) ∧ vcmpLane f 1 x y = !vcmpLane f 0 x y
      ∧ vcmpLane f 3 x y = !vcmpLane f 4 x y ∧ vcmpLane f 5 x y = !vcmpLane f 2 x y
      ∧ vcmpLane f 0 y x = vcmpLane f 0 x y ∧ vcmpLane f 1 y x = vcmpLane f 1 x y ∧ vcmpLane f 2 y x = vcmpLane f 4 x y
      ∧ vcmpLane f 3 y x = vcmpLane f 5 x y ∧ vcmpLane f 4 y x = vcmpLane f 2 x y ∧ vcmpLane f 5 y x = vcmpLane f 3 x y)
  ∧ (∀ f x y : ℕ, inI f = true → x < 2 ^ elemBits f → y < 2 ^ elemBits f →
      let p : ℤ := if x < 2 ^ (elemBits f - 1) then x else (x : ℤ) - 2 ^ elemBits f
      let q : ℤ := if y < 2 ^ (elemBits f - 1) then y else (y : ℤ) - 2 ^ elemBits f
      vcmpLane f 0 x y = decide (x = y) ∧ vcmpLane f 1 x y = decide (x ≠ y) ∧ vcmpLane f 2 x y = decide (p < q)
      ∧ vcmpLane f 3 x y = decide (p ≤ q) ∧ vcmpLane f 4 x y = decide (q < p) ∧ vcmpLane f 5 x y = decide (q ≤ p)
      ∧ vcmpLane f 6 x y = decide (x < y) ∧ vcmpLane f 7 x y = decide (x ≤ y) ∧ vcmpLane f 8 x y = decide (y < x)
      ∧ vcmpLane f 9 x y = decide (y ≤ x))
  ∧ (∀ f x, decodeElem f x = .nan → signOp f false x = fmtNan f ∧ signOp f true x = fmtNan f)
  ∧ ∀ f x y, f ≤ 15 →
    (decodeElem f x = .nan ∨ decodeElem f y = .nan → ∀ big, minMax f big x y = fmtNan f)
    ∧ ∀ s t m n e g, decodeElem f x = .fin s m e → decodeElem f y = .fin t n g →
      ((Machine.Num.fin s m e).rat < (Machine.Num.fin t n g).rat ∨ (m = 0 ∧ n = 0 ∧ s = true ∧ t = false) →
        minMax f false x y = x ∧ minMax f true x y = y ∧ minMax f false y x = x ∧ minMax f true y x = y)

/-- R267, R268: the integer lane instructions land each lane's wrapped or saturated result after 1 cycle, VIMUL after 3, with tag ef, and the
permutes copy whole lanes after 2 with their sources' common tag. Lanes stand in ascending order and the events of the lanes add up (R179,
R255). (The permutes' tags, of a alone or over both sources' granules, are the model's reading, log 19.) -/
def Obligations.VectorLanesComplete : Prop :=
  (∀ o : LongVec,
    let n := o.dBits / o.w
    let a (t : Tile) (i : Nat) := laneOf o.w (o.aVal t) i
    let b (t : Tile) (i : Nat) := laneOf o.w (o.bVal t) i
    let z := o.x.getLsbD 0
    let int (v : Nat) : Int := if z then (v : Int) else toSigned o.w v
    let rounded (g : Bool → Nat → Nat → Rounded) (c : Ctx) (t : Tile) :=
      packRounded o.w ((List.range n).map fun i => g c.sat (a t i) (b t i))
    let ef (_ : Tile) := o.fmt
    let lane (g : Tile → Nat → Nat) (_ : Ctx) (t : Tile) := packRounded o.w ((List.range n).map fun i => (g t i, none))
    let ab := [o.aSpan, o.bSpan]
    let common (s : List (Nat × Nat)) (t : Tile) := t.slices.commonTag s
    VectorLands (.viadd o) o 1 1 false true ab [] ef (rounded fun sat x y => fit (int x + int y) o.w (!z) sat)
    ∧ VectorLands (.visub o) o 1 1 false true ab [] ef (rounded fun sat x y => fit (int x - int y) o.w (!z) sat)
    ∧ VectorLands (.vimul o) o 3 1 false true ab [] ef (rounded fun sat x y => fit (int x * int y) o.w (!z) sat)
    ∧ VectorLands (.vshl o) o 1 1 false false ab [] ef (lane fun t i => if o.w ≤ b t i then 0 else a t i * 2 ^ b t i % 2 ^ o.w)
    ∧ VectorLands (.vshr o) o 1 1 false false ab [] ef (lane fun t i =>
      if z then (if o.w ≤ b t i then 0 else a t i / 2 ^ b t i)
      else if o.w ≤ b t i then (if toSigned o.w (a t i) < 0 then 2 ^ o.w - 1 else 0)
      else (toSigned o.w (a t i) / 2 ^ b t i % 2 ^ o.w).toNat)
    ∧ VectorLands (.vand o) o 1 1 false false ab [] ef (lane fun t i => a t i &&& b t i)
    ∧ VectorLands (.vor o) o 1 1 false false ab [] ef (lane fun t i => a t i ||| b t i)
    ∧ VectorLands (.vxor o) o 1 1 false false ab [] ef (lane fun t i => a t i ^^^ b t i)
    ∧ VectorLands (.vshuf o) o 2 1 false false ab [] (common [o.aSpan]) (lane fun t i =>
      if o.aBits / o.w ≤ laneOf 8 (o.bVal t) i then 0 else a t (laneOf 8 (o.bVal t) i))
    ∧ VectorLands (.vbcast o) o 2 1 false false [o.aSpan] [] (common [o.aSpan]) (lane fun t _ => a t 0)
    ∧ VectorLands (.vslide o) o 2 1 false false ab [] (common ab) (lane fun t i =>
      if i + o.xn < n then a t (i + o.xn) else if i + o.xn < 2 * n then b t (i + o.xn - n) else 0)
    ∧ VectorLands (.vzip o) o 2 1 false false ab [] (common ab) (lane fun t i => if i % 2 = 0 then a t (i / 2) else b t (i / 2))
    ∧ VectorLands (.vunzip o) o 2 1 false false [o.aSpan] [] (common [o.aSpan])
      (lane fun t i => a t (if i < n / 2 then 2 * i else 2 * (i - n / 2) + 1)))
  ∧ ∀ (w : Nat) (l : List Rounded), 0 < w →
    (∀ (i : Nat) (r : Rounded), l[i]? = some r → laneOf w (packRounded w l).1 i = r.1 % 2 ^ w)
    ∧ (packRounded w l).1 < 2 ^ (w * l.length)
    ∧ ∀ k, (((packRounded w l).2.filter fun p => p.1 == k).map fun p => p.2).sum = l.countP fun r => r.2 == some k

/-- R207 to R209, R213, R214, R269 to R275: the survey and quantise steps of DQNT, DDQ and DSCALE land their results after 2, 6, 6 and 1
cycles, the header step after 4, where cursor and header are legal; the steps with a cursor raise cause 5 for a bad one, and DQNT's second
step, DDQ and DSCALE 22 for a bad header. (That DDQ's n is d's lane count, that a width of a which does not match it raises cause 5, and
what quantElem gives a value that is not finite are log 20; cause 22's block address is the header's first slice, log 41.) -/
def Obligations.DuctusInstructionsComplete : Prop :=
  ∀ o : LongVec,
    let lands (i : Instr) (lat least : Nat) (rv : Bool) (srcs : List (Nat × Nat)) (ok : Tile → Prop) (tag : Nat)
        (r : Ctx → Tile → Nat × List (Nat × Nat)) : Prop :=
      Completes i (fun _ => vecInfo i o least rv false srcs) (fun _ t => ok t) (fun c t =>
        t.later c lat (.slices (4 * o.ds.toNat) (o.dBits / 4) (r c t).1 (BitVec.ofNat 5 tag)) (r c t).2)
    let traps (i : Instr) (least : Nat) (rv : Bool) (srcs : List (Nat × Nat)) (bad : Tile → Prop) (r : Ctx → Raise) : Prop :=
      Traps i (fun _ => vecInfo i o least rv false srcs) (fun _ t => bad t) (fun c _ => r c)
    let plain (t : Tile) : Prop := t.tagsFit (if inN o.dqSrc then [(o.aSpan, [0, o.dqSrc])] else [])
    let src (t : Tile) := (List.range (o.aBits / elemBits o.dqSrc)).map fun i => decodeElem o.dqSrc (laneOf (elemBits o.dqSrc) (o.aVal t) i)
    let inf (x : Machine.Num) : Bool := x == .inf true || x == .inf false
    let head (t : Tile) := o.bVal t % 2 ^ 192
    let cur (t : Tile) := o.bVal t / 2 ^ 192
    let all := [o.dSpan, o.aSpan, o.bSpan]
    lands (.dqntSurvey o) 2 1 true all (fun t => curBad (o.bVal t % 2 ^ 32) (src t).length = false ∧ plain t) 0
      (fun _ t => (surveyRow (o.dVal t) (curRow (o.bVal t % 2 ^ 32)) (curCol (o.bVal t % 2 ^ 32)) (src t),
        if (src t).countP inf = 0 then [] else [(0, (src t).countP inf)]))
    ∧ traps (.dqntSurvey o) 1 true all (fun t => curBad (o.bVal t % 2 ^ 32) (src t).length = true) (fun c => c.raise 5)
    ∧ lands (.dqntHead o) 4 1 true [o.aSpan] (fun _ => True) 0 (fun _ t =>
      let h := headerOf o.fmt 0 ((List.range 32).map fun i => laneOf 16 (o.aVal t) i)
        ((List.range 32).map fun i => laneOf 16 (o.aVal t) (32 + i))
      (h.1, if h.2 then [(5, 1)] else []))
    ∧ lands (.dqntQ o) 6 2 true [o.aSpan, o.bSpan]
      (fun t => curBad (cur t) (src t).length = false ∧ hdrBad (head t) (some o.fmt) = false ∧ plain t) (16 + o.fmt) (fun c t =>
        packRounded o.w ((src t).zipIdx.map fun p =>
          quantElem (head t) (c.rnd t).rm (draw t.csr.rseed (curCyc (cur t)) (drawIndex (curRow (cur t)) (curCol (cur t) + p.2)))
            (curRow (cur t)) (curCol (cur t) + p.2) p.1))
    ∧ traps (.dqntQ o) 2 true [o.aSpan, o.bSpan] (fun t => curBad (cur t) (src t).length = true) (fun c => c.raise 5)
    ∧ traps (.dqntQ o) 2 true [o.aSpan, o.bSpan]
      (fun t => curBad (cur t) (src t).length = false ∧ hdrBad (head t) (some o.fmt) = true ∧ plain t)
      (fun c => c.raiseInfo 22 (4 * o.bs.toNat) 0)
    ∧ (let n := o.dBits / o.w
       let fits (t : Tile) : Prop := curBad (cur t) n = false ∧ hdrBad (head t) none = false
         ∧ o.aBits = n * elemBits (hdrFmt (head t)) ∧ t.tagsFit [(o.aSpan, [0, 16 + hdrFmt (head t)])]
       lands (.ddq o) 6 2 true [o.aSpan, o.bSpan] (fun t => fits t ∧ hdrScale (head t) = 0xFFF) o.fmt
         (fun _ _ => (packLanes o.w ((List.range n).map fun _ => fmtNan o.fmt), [(4, 1)]))
       ∧ lands (.ddq o) 6 2 true [o.aSpan, o.bSpan] (fun t => fits t ∧ hdrScale (head t) ≠ 0xFFF) o.fmt (fun c t =>
         packRounded o.w ((List.range n).map fun m =>
           match ductusValue (head t) (laneOf (elemBits (hdrFmt (head t))) (o.aVal t) m) (curRow (cur t)) (curCol (cur t) + m) with
           | .nan => (fmtNan o.fmt, none)
           | .inf s => (infOf o.fmt s, none)
           | .fin s x e => roundFin o.fmt (c.rnd t) (c.drawAt t m) true s x e))
       ∧ traps (.ddq o) 2 true [o.aSpan, o.bSpan] (fun t => curBad (cur t) n = true) (fun c => c.raise 5)
       ∧ traps (.ddq o) 2 true [o.aSpan, o.bSpan]
         (fun t => curBad (cur t) n = false ∧ inB (hdrFmt (head t)) = true ∧ o.aBits ≠ n * elemBits (hdrFmt (head t)))
         (fun c => c.raise 5)
       ∧ traps (.ddq o) 2 true [o.aSpan, o.bSpan] (fun t => curBad (cur t) n = false ∧ hdrBad (head t) none = true
           ∧ (inB (hdrFmt (head t)) = true → o.aBits = n * elemBits (hdrFmt (head t))
             ∧ t.tagsFit [(o.aSpan, [0, 16 + hdrFmt (head t)])]))
         (fun c => c.raiseInfo 22 (4 * o.bs.toNat) 0))
    ∧ lands (.dscale o) 1 1 false [o.aSpan, o.bSpan] (fun t => hdrBad (o.aVal t) none = false) 0 (fun _ t =>
      let n := (hdrScale (o.aVal t) : Int) + toSigned 32 (o.bVal t)
      let set (x : Nat) := o.aVal t - hdrScale (o.aVal t) + x
      if hdrScale (o.aVal t) = 0xFFF then (o.aVal t, []) else if n < 0 ∨ 0xFFE < n then (set 0xFFF, [(5, 1)]) else (set n.toNat, []))
    ∧ traps (.dscale o) 1 false [o.aSpan, o.bSpan] (fun t => hdrBad (o.aVal t) none = true)
      (fun c => c.raiseInfo 22 (4 * o.as.toNat) 0)

/-- R208, R210, R214, R215: the transpose of a block holds at row i and column j what the block holds at row j and column i, and the block
that is quantised from the transposed array is the transpose of the block that is quantised from the array, in every mode. -/
def Obligations.DuctusTransposes : Prop :=
  (∀ (h e i j : Nat), i < 32 → j < 32 → ductusValue (transposeHdr h) e i j = ductusValue h e j i)
  ∧ (∀ (w pay i j : Nat), 0 < w → i < 32 → j < 32 → payElem w (transposePay w pay) i j = payElem w pay j i)
  ∧ ∀ (f gen rm : Nat) (u : Nat → Nat) (x : Nat → Nat → Machine.Num), inB f = true → gen < 16 →
    let p := quantise f gen rm u x
    let q := quantise f gen rm u fun i j => x j i
    q.1 = transposeHdr p.1 ∧ q.2.1 = transposePay (elemBits f) p.2.1

/-- R276, R277, R281, R288, R289, R295 to R304, R517: MMA starts its first chunk as it issues and holds the array, WLD posts its lines with
their form for issue + n + 4, and the accumulator instructions post their results for their latencies and hold the accumulator port until
then, where the unit is free and nothing that they must wait for is pending; else they hold. -/
def Obligations.MatrixInstructionsComplete : Prop :=
  ∀ o : Mat,
    let fa := o.fa.toNat
    let fb := o.fb.toNat
    let sp := 256 * o.sp.toNat
    let acc := o.acc.toNat
    let kind (t : Tile) := t.csr.mxctl.toNat / 16 % 4
    let pair (t : Tile) : Bool := kind t == 2
    let fmt (t : Tile) := if kind t = 0 then 0 else if kind t = 1 then 2 else 1
    let even (t : Tile) (l : List Nat) : Prop := kind t = 2 → ∀ a ∈ l, a % 2 = 0
    let elem (t : Tile) (a e : Nat) : Nat := (t.accRead (pair t) a).getD e 0
    let w (t : Tile) := if fa = 0 then (if kind t = 2 then 64 else 32) else elemBits fa
    let lat (t : Tile) (n : Nat) := if kind t = 2 then 2 * n else n
    let wide (t : Tile) := if kind t = 2 ∨ w t = 64 then 132 else 68
    let mark (t : Tile) (a : Nat) := (t.accBad (pair t) a).map fun off => (83, off)
    let rounded (g : Nat → Rounded) := (List.range 4096).map g
    let posts (t : Tile) (c : Ctx) (n : Nat) (l : List Rounded) (p : Option (Nat × Nat)) : Tile :=
      t.accPost c n (pair t) acc (l.map Prod.fst) (packRounded 1 l).2 p
    -- MMA
    (∀ s f t c, Issues s f t c (mmaInfo o t) →
      let ablk := t.csr.mxctl.getLsbD 0
      let loc := locate t fb (256 * o.wb.toNat) 0 o.n.toNat
      mxHold arrayFree true (accSet (o.fa == 1 && o.fb == 1) acc) (mmaExtents o) c t = none → mmaCause o t = none →
      sp + o.n.toNat * aChunkBytes fa ablk ≤ 0xF8000 → (∀ r ∈ loc.1, r.start + r.size ≤ 0x40000) →
      ∃ t' m, exec (.mma o) s = .next (s.putTile f (t'.issued c ((mmaInfo o t).cost c)))
        ∧ t' = { t.corrects sp (aChunkBytes fa ablk) with mx := { t.mx with mma := some m } }
        ∧ m.issue = c.k ∧ m.lastStart = c.k ∧ m.acc = acc ∧ m.n = o.n.toNat ∧ m.recs = loc.1 ∧ m.ablk = ablk ∧ m.sat = c.sat
        ∧ m.t = chunkTime (Nat.max (elemBits fa) (elemBits fb)) ∧ m.chunks.map Chunk.a = [t.bytes sp (aChunkBytes fa ablk)])
    ∧ (∀ s f t c, Issues s f t c (mmaInfo o t) → t.mx.mma.isSome → exec (.mma o) s = .next (s.putTile f (t.held .unit)))
    -- WLD and ACCZ
    ∧ (let len := 256 * o.n.toNat
       let dst := 256 * o.wb.toNat
       let info (_ : Tile) := mxInfo (Instr.wld o).cause o 1 false false true
       let free (c : Ctx) (t : Tile) : Prop := mxHold wportFree true [] (fun _ => [(sp, len), (0x100000 + dst, len)]) c t = none
       let port (c : Ctx) (t : Tile) : Tile := { t with mx := { t.mx with wportFree := c.k + (o.n.toNat + 4) } }
       Completes (.wld o) info
         (fun c t => free c t ∧ sp + len ≤ 0xF8000 ∧ dst + len ≤ 0x40000 ∧ t.badWord sp len = none)
         (fun c t => ((port c t).corrects sp len).mxPost c (o.n.toNat + 4) (.wbuf dst len (t.bytes sp len) fb) [] none)
       ∧ Traps (.wld o) info (fun c t => free c t ∧ 0xF8000 < sp + len) (fun c _ => c.raiseInfo 45 sp 0)
       ∧ Traps (.wld o) info (fun c t => free c t ∧ sp + len ≤ 0xF8000 ∧ 0x40000 < dst + len) (fun c _ => c.raiseInfo 74 dst 0))
    ∧ Completes (.accz o) (fun _ => mxInfo (Instr.accz o).cause o 1 false false false)
        (fun c t => mxHold aportFree false [acc] (fun _ => []) c t = none)
        (fun c t => (t.mxPost c 1 (.acc acc 0) [] none).takePort c 1)
    -- ACCRD, elements and blocks
    ∧ (let info (t : Tile) := mxInfo (Instr.accrd o).cause o 2 true (!t.csr.mxctl.getLsbD 1) true
       let ok (blk : Bool) (len : Tile → Nat) (c : Ctx) (t : Tile) : Prop :=
         mxHold aportFree true (accSet (pair t) acc) (fun t => [(sp, accrdBytes fa t)]) c t = none ∧ even t [acc]
         ∧ t.csr.mxctl.getLsbD 1 = blk ∧ sp + len t ≤ 0xF8000
       Completes (.accrd o) info (fun c t => ok false (fun t => 512 * w t) c t ∧ fa = 0) (fun c t =>
         (t.mxPost c (if w t = 64 then 132 else 68) (.spad sp (512 * w t)
           (packLanes (w t) (t.accRead (pair t) acc).toList)) [] (mark t acc)).takePort c (if w t = 64 then 132 else 68))
       ∧ Completes (.accrd o) info (fun c t => ok false (fun t => 512 * w t) c t ∧ fa ≠ 0) (fun c t =>
         let r := packRounded (elemBits fa) (rounded fun e => convert (fmt t) fa (c.rnd t) (c.drawAt t e) (elem t acc e))
         (t.mxPost c (if w t = 64 then 132 else 68) (.spad sp (512 * w t) r.1) r.2 (mark t acc)).takePort c
           (if w t = 64 then 132 else 68))
       ∧ Completes (.accrd o) info (fun c t => ok true (fun _ => 4 * blockBytes fa) c t ∧ inB fa = true ∧ kind t ≠ 0) (fun c t =>
         let r := accBlocks fa (t.csr.mxctl.toNat / 256 % 16) (c.rnd t).rm (c.drawAt t)
           fun i j => decodeElem (fmt t) (elem t acc (64 * i + j))
         (t.mxPost c 80 (.spad sp (4 * blockBytes fa) r.1) r.2 (mark t acc)).takePort c 80))
    -- ACCWR, ACCADD and ACCSC
    ∧ (let info (_ : Tile) := mxInfo (Instr.accwr o).cause o 2 true true true
       let free (c : Ctx) (t : Tile) : Prop :=
         mxHold aportFree true (accSet (pair t) acc) (fun t => [(sp, 512 * w t)]) c t = none ∧ even t [acc]
       Completes (.accwr o) info (fun c t => free c t ∧ sp + 512 * w t ≤ 0xF8000 ∧ t.badWord sp (512 * w t) = none) (fun c t =>
         posts (t.corrects sp (512 * w t)) c (wide t) (rounded fun e =>
           let v := laneOf (w t) (t.bytes sp (512 * w t)) e
           if fa = 0 then (v, none) else convert fa (fmt t) (c.rnd t) (c.drawAt t e) v) none)
       ∧ Traps (.accwr o) info (fun c t => free c t ∧ 0xF8000 < sp + 512 * w t) (fun c _ => c.raiseInfo 45 sp 0))
    ∧ Completes (.accadd o) (fun _ => mxInfo (Instr.accadd o).cause o 2 true true false)
        (fun c t => mxHold aportFree true (accSet (pair t) acc ++ accSet (pair t) o.acc2.toNat) (fun _ => []) c t = none
          ∧ even t [acc, o.acc2.toNat])
        (fun c t => posts t c (lat t 8) (rounded fun e =>
          if kind t = 0 then fit (toSigned 32 (elem t acc e) + toSigned 32 (elem t o.acc2.toNat e)) 32 true (c.rnd t).sat
          else accumulate (fmt t) (c.rnd t) (c.drawAt t e) false false
            [some (decodeElem (fmt t) (elem t acc e)), some (decodeElem (fmt t) (elem t o.acc2.toNat e))])
          ((mark t acc).or (mark t o.acc2.toNat)))
    ∧ Completes (.accsc o) (fun _ => mxInfo (Instr.accsc o).cause o 1 true true false)
        (fun c t => mxHold aportFree true (accSet (pair t) acc) (fun _ => []) c t = none ∧ even t [acc])
        (fun c t => posts t c (lat t 4) (rounded fun e =>
          if kind t = 0 then fit (scaleInt (toSigned 32 (elem t acc e)) (toSigned 8 o.n.toNat) (c.rnd t).rm (c.drawAt t e)) 32 true (c.rnd t).sat
          else accumulate (fmt t) (c.rnd t) (c.drawAt t e) false false
            [some ((decodeElem (fmt t) (elem t acc e)).scale (toSigned 8 o.n.toNat))]) (mark t acc))

/-- R289 to R294, R473: the next chunk of a running MMA starts once T cycles have passed and its debit fits, and blocks later queues where it does
not fit; at the landing the accumulator takes, in the same cycle, elements that have gone through the chunks in order, each chunk's
products summed and rounded as its path says, and no other byte changes; on the FP64 path the pair acc and acc + 1 takes them, the low
words in acc; a faulty chunk or a poisoned accumulator word lands nothing and raises its cause. -/
def Obligations.MatrixMultiplyRuns : Prop :=
  let elem (m : Mma) (i j x : Nat) : Nat := m.chunks.foldl (fun x ch => (chunkElem m.path (m.ablk || ch.form == 3) m.sat x fun k =>
    ((aNums m.fa m.ablk ch.a).getD (32 * i + k) (.fin false 0 0)).mul
      ((bNums m.fb ch.form ch.b).getD (64 * k + j) (.fin false 0 0))).1) x
  (∀ (s : State) (f : Folio) (t : Tile) (c : Ctx) (m : Mma), s.at? = some (f, t, c) → t.mx.mma = some m →
    (m.chunks.length < m.n → m.lastStart + m.t ≤ c.cyc → (m.debit = 0 ∨ t.blocked = false ∧ m.debit ≤ t.avail) →
      ∃ t' m', exec .mmaChunkStart s = .next (s.putTile f t') ∧ t'.mx.mma = some m' ∧ m'.lastStart = c.cyc
        ∧ t'.avail = t.avail - m.debit ∧ t'.stores.mem = t.stores.mem
        ∧ m'.chunks.map Chunk.a = m.chunks.map Chunk.a
          ++ [t.bytes (256 * m.sp + m.chunks.length * aChunkBytes m.fa m.ablk) (aChunkBytes m.fa m.ablk)])
    ∧ (m.chunks.length < m.n → m.lastStart + m.t ≤ c.cyc → m.debit ≠ 0 → (t.blocked = true ∨ t.avail < m.debit) →
      exec .mmaChunkStart s = .next (s.putTile f { t with blocked := true })))
  ∧ ∀ (s : State) (f : Folio) (t : Tile) (c : Ctx) (m : Mma), s.at? = some (f, t, c) → t.mx.mma = some m →
    m.n ≤ m.chunks.length → m.lastStart + m.t ≤ c.cyc → m.acc < 4 →
    (∀ x, m.chunks.findSome? Chunk.fault = some x → ∃ t' r, exec .mmaLanding s = .next (s.putTile f t') ∧ t'.mx.mma = none
      ∧ t'.stores = t.stores ∧ t'.raises = t.raises ++ [r] ∧ r.cause = x.1 ∧ r.info = x.2.1 ∧ r.inst = false)
    ∧ (m.chunks.findSome? Chunk.fault = none → m.path ≠ 3 → t.accBad false m.acc = none →
      (∀ p ∈ t.mx.pend, p.land ≠ c.cyc) →
      ∃ t' v ev, exec .mmaLanding s = .next (s.putTile f t') ∧ t'.mx.mma = none ∧ t'.slices = t.slices ∧ t'.pend = t.pend
        ∧ t'.stores = t.stores ∧ t'.mx.pend = t.mx.pend ++ [{ land := c.cyc, issue := m.issue, cls := m.cls, dest := .acc m.acc v,
                                                               events := ev, poison := none }]
        ∧ let u := t'.mxLand c.cyc true
        (∀ a, a < accBase m.acc ∨ accBase m.acc + 0x4000 ≤ a → u.byte a = t.byte a)
        ∧ ∀ i < 64, ∀ j < 64, u.bytes (accBase m.acc + 4 * (64 * i + j)) 4 = elem m i j (t.bytes (accBase m.acc + 4 * (64 * i + j)) 4))
    ∧ (m.chunks.findSome? Chunk.fault = none → m.path = 3 → m.acc < 3 → t.accBad true m.acc = none →
      (∀ p ∈ t.mx.pend, p.land ≠ c.cyc) →
      ∃ t' v w ev, exec .mmaLanding s = .next (s.putTile f t') ∧ t'.mx.mma = none ∧ t'.slices = t.slices ∧ t'.pend = t.pend
        ∧ t'.stores = t.stores
        ∧ (let p : MxPend := { land := c.cyc, issue := m.issue, cls := m.cls, dest := .acc m.acc v, events := ev, poison := none }
           t'.mx.pend = t.mx.pend ++ [p, { p with dest := .acc (m.acc + 1) w, events := [] }])
        ∧ let u := t'.mxLand c.cyc true
          let pair (t : Tile) (e : Nat) := t.bytes (accBase m.acc + 4 * e) 4 + 2 ^ 32 * t.bytes (accBase (m.acc + 1) + 4 * e) 4
          (∀ a, a < accBase m.acc ∨ accBase m.acc + 0x8000 ≤ a → u.byte a = t.byte a)
          ∧ ∀ i < 64, ∀ j < 64, pair u (64 * i + j) = elem m i j (pair t (64 * i + j)))
    ∧ ∀ off, m.chunks.findSome? Chunk.fault = none → t.accBad (m.path == 3) m.acc = some off →
      ∃ t' r, exec .mmaLanding s = .next (s.putTile f t') ∧ t'.mx.mma = none ∧ t'.stores = t.stores ∧ t'.mx.pend = t.mx.pend
        ∧ t'.raises = t.raises ++ [r] ∧ r.cause = 83 ∧ r.info = off ∧ r.inst = false


/-- R45 to R75 as the spec's own examples write them out: these words, each queue's among them, stand for these instructions; a major
that no table assigns raises cause 3. -/
def Obligations.SpecWordsDecode : Prop :=
  decode .sq 0x0000C082 0 = .ok (.add 3 1 2)
  ∧ decode .sq 0x08040FF8 0 = .ok (.addi 1 1 (-8))
  ∧ decode .sq 0x13221064 0 = .ok (.cmpi .gez 1 4 100)
  ∧ decode .sq 0x16A0C082 0 = .ok (.sel 5 3 1 2)
  ∧ decode .xu 0xC7944441 0x12C190F4
      = .ok (.selLong { ecl := 1, sxa := false, sxb := false, p := 9, wd := 4, wa := 4, wb := 4, ds := 300, as := 400, bs := 500 })
  ∧ decode .sq 0x488E0000 0 = .ok (.br 2 3 true false)
  ∧ decode .sq 0x4E400C02 0 = .ok (.loopImm 0 3 2)
  ∧ decode .sq 0x66020280 0 = .ok (.csrwr 0x010 10)
  ∧ decode .net 0xBA400002 0 = .ok (.waitt 1 2)
  ∧ decode .ap 0x438303FE 0 = .ok (.st 3 6 3 (-2))
  ∧ decode .ap 0x48414300 0 = .ok (.probe 4 10 12)
  ∧ decode .ap 0xCE041C30 0x0C801000
      = .ok (.waita .eq { ecl := 1, ocl := 0, wv := 7, x := 0, hi := 0x30, vs := 200, bas := 16, lo := 0 })
  ∧ decode .xu 0xD004AEEC 0x10080300
      = .ok (.vadd { ecl := 1, ef := 2, wd := 11, wa := 11, wb := 11, x := 0, ds := 64, as := 128, bs := 192 })
  ∧ decode .mx 0xC00D6608 0x04004000
      = .ok (.mma { ecl := 3, acc := 1, fa := 6, fb := 6, n := 8, sp := 0x040, wb := 0x010, acc2 := 0 })
  ∧ decode .ce 0xC0142400 0x00010000
      = .ok (.cpyh { ecl := 1, ocl := 0, f := true, dsc := 1024, rmask := 1, mod := 0 })
  ∧ decode .net 0xC0041CC0 0x01FE1000
      = .ok (.send { ecl := 1, ocl := 0, wv := 7, ch := 3, dx := 1, dy := -2, vs := 256 })
  ∧ decode .sq 0x3E000000 0 = .error 3 ∧ decode .ce 0x0000C082 0 = .error 3

/-- R45 to R75: the words of every instruction whose fields are legal decode, in every queue that accepts it, to that very
instruction, so that no bit of an encoding is dropped. -/
def Obligations.EncodedInstructionDecodes : Prop :=
  ∀ (i : Instr) (q : Queue), i.inQueue q = true → i.cause = none → decode q (encode i).1 (encode i).2 = .ok i

/-- R17, R51, R52, R69 and R466: a step runs the next slot of its cycle. Where the slot issues a queue's head, a marker raises its cause, a
lane that no handler may use raises cause 10, words that do not decode raise their cause, each with the misuse that a PFX before it shows
alone (that one head can raise several causes is log 114), and words that decode to i run i's meaning at that state; after a PFX the same head runs once more with it, and else the issue is noted for the trace and the wait log. -/
def Obligations.StepRunsDecodedInstruction : Prop :=
  ∀ (s : State) (cu : Cursor) (r : List Slot),
    let s0 : State := { s with agenda := r, cursor := cu }
    (∀ i, s.agenda = .act cu i :: r → step s = exec i s0)
    ∧ (∀ f t c, s.agenda = .issue cu :: r → s0.at? = some (f, t, c) → t.ctl.entries cu.queue ≠ [] →
      let noUnit : Prop := c.hand = true ∧ (cu.queue = .ce ∨ cu.queue = .mx ∨ cu.queue = .net)
      let unit : List Raise := if noUnit then [c.raiseInfo 10 c.e.words c.k] else []
      let prefix8 : List Raise := if c.pfx.any fun p => p.rm.any fun m => decide (6 ≤ m.toNat) then [c.prefixRaise] else []
      (∀ m, c.e.marker = some m → step s = .next (s0.putTile f (t.headTrap c (unit ++ c.raiseInfo m.cause m.info 0 :: prefix8))))
      ∧ (∀ x, c.e.marker = none → decode cu.queue c.e.w0 c.e.w1 = .error x →
        step s = .next (s0.putTile f (t.headTrap c (unit ++ c.raise x :: prefix8))))
      ∧ (∀ i, c.e.marker = none → noUnit → decode cu.queue c.e.w0 c.e.w1 = .ok i →
        step s = .next (s0.putTile f (t.headTrap c (unit ++ prefix8))))
      ∧ ∀ i, c.e.marker = none → ¬noUnit → decode cu.queue c.e.w0 c.e.w1 = .ok i →
        (∀ x, exec i s0 = .fault x → step s = .fault x)
        ∧ (∀ x, exec i s0 = .refused x → step s = .refused x)
        ∧ ∀ s' t', exec i s0 = .next s' →
          (s'.folio? cu.folio).bind (fun (g : Folio) => g.tiles[cu.tile]?) = some t' →
          (c.pfx = none → t'.ctl.pfx.isSome = true → step s = .next { s' with agenda := .issue cu :: s'.agenda })
          ∧ (c.pfx.isSome = true ∨ t'.ctl.pfx = none → step s = .next (s'.logIssue f cu.tile t t' c)))

/-- R161, R512, R513: DEVSTATE is 0 after reset, AGEI 100 and EBUD 0xFFFF_FFFF; every queue belongs to function 0 with its registers zero
and every phase is 0. No folio runs, and every memory is in its canonical form (log 1, 2). -/
def Obligations.ResetState : Prop :=
  State.reset.dev.devstate = 0 ∧ State.reset.dev.agei = 100 ∧ State.reset.dev.ebud = 0xFFFFFFFF
  ∧ (∀ q, State.reset.queue q = LaunchQueue.zero q 0) ∧ (∀ f d, (State.reset.domain f d).phase = 0)
  ∧ State.reset.folios = [] ∧ State.reset.allWf

/-- The canonical form of every memory (log 2), which holds of State.reset, is kept by every step. -/
def Obligations.StepKeepsMemoryForm : Prop :=
  ∀ s s' : State, s.allWf → step s = .next s' → s'.allWf


/-- R155: TRAP raises cause 90 and records its argument; BRK raises cause 91 with its code, or where breakpoints are armed has the folio
enter a debug stop after the cycle; TRET outside a handler raises cause 92. The trap state is then written at the cycle's end
(TrapStateAndHandler). -/
def Obligations.TrapInstructionsComplete : Prop :=
  (∀ arg : BitVec 16, Traps (.trap arg) (fun _ => seqInfo none [] [] [] true) always
    (fun c _ => { c.raise 90 with arg := arg.toNat }))
  ∧ (∀ code : BitVec 16,
    Traps (.brk code) (fun _ => seqInfo none [] [] [] true) (fun c _ => c.brk = false)
      (fun c _ => { c.raise 91 with arg := code.toNat })
    ∧ Completes (.brk code) (fun _ => seqInfo none [] [] [] true) (fun c _ => c.brk = true)
      (fun c t => { t with brkNow := some (c.e.line, c.e.lane, code.toNat) }))
  ∧ Traps .tret (fun _ => seqInfo none [] [] [] true) (fun c _ => c.hand = false) (fun c _ => c.raise 92)

/-- R461, R464, R465 and R467: a cycle's raises leave the trap CSRs of the one with the lowest cause, at equal causes of entries that
of the first queue, with bit 7 set when there were several; entry to a local handler shadows queues, buffers, target registers,
loop levels and WINB, starts at TVEC.line with WINB hwinb and HCYC 0, and leaves slices, stores, tokens and the saved trap state; the
return restores what was shadowed, without the faulting entry when skip is 1 (a flagged copy so dropped is noted as lost, R296), and
clears act. -/
def Obligations.TrapStateAndHandler : Prop :=
  (∀ (cyc : Nat) (l : List Raise) (old : TrapCsrs), l ≠ [] → (∀ x ∈ l, x.cause < 128) →
    ∃ r ∈ l, (∀ x ∈ l, r.cause ≤ x.cause) ∧ (r.inst = true → ∀ x ∈ l, x.cause = r.cause → x.inst = true → r.queue ≤ x.queue)
      ∧ let t := recordTrap cyc l old
        t.cause = r.cause ∧ t.tcause.getLsbD 7 = decide (1 < l.length) ∧ t.tcyc = BitVec.ofNat 64 cyc
        ∧ t.tpos = BitVec.ofNat 64 (r.line * 4096 + r.lane * 256 + (if r.inst then 128 else 0) + r.queue)
        ∧ t.targ = BitVec.ofNat 64 r.arg ∧ t.tinfo = BitVec.ofNat 64 r.info ∧ t.tinfo2 = BitVec.ofNat 64 r.info2
        ∧ t.tvec = old.tvec ∧ t.tloc0 = old.tloc0 ∧ t.tloc1 = old.tloc1 ∧ t.act = old.act ∧ t.skip = old.skip)
  ∧ (∀ s f t c, s.at? = some (f, t, c) →
    ∃ t' : Tile, exec .localHandlerEntry s = .next (s.putTile f t') ∧ t'.shadow = some t.ctl
      ∧ t'.trap.act = true ∧ t'.trap.skip = false ∧ t'.trap.hcyc = 0
      ∧ (∀ q, t'.ctl.entries q = []) ∧ t'.ctl.winb = t.trap.tvec.toNat / 2 ^ 16 % 256
      ∧ t'.ctl.fetch.direct = [t.trap.tvec.toNat % 4096, t.trap.tvec.toNat % 4096 + 1] ∧ t'.ctl.fetch.running = true
      ∧ (∀ b < 8, (vget t'.ctl.btgt b).line = 0) ∧ (∀ l < 4, (vget t'.ctl.loops l).act = false)
      ∧ t'.slices = t.slices ∧ t'.stores = t.stores ∧ t'.tok = t.tok ∧ t'.csr = t.csr ∧ t'.wins = t.wins ∧ t'.pend = t.pend
      ∧ t'.trap.tcause = t.trap.tcause ∧ t'.trap.tcyc = t.trap.tcyc ∧ t'.trap.tpos = t.trap.tpos ∧ t'.trap.tinfo = t.trap.tinfo)
  ∧ ∀ (t : Tile) (c : Control), t.shadow = some c →
    t.leaveHandler.trap.act = false ∧ t.leaveHandler.shadow = none
    ∧ t.leaveHandler.slices = t.slices ∧ t.leaveHandler.stores = t.stores ∧ t.leaveHandler.tok = t.tok
    ∧ t.leaveHandler.csr = t.csr
    ∧ (t.trap.skip = false ∨ t.trap.tpos.getLsbD 7 = false → t.leaveHandler.ctl = c)
    ∧ ∀ q e rest, t.trap.skip = true → t.trap.tpos.getLsbD 7 = true → t.trap.posQueue = some q → c.entries q = e :: rest →
      e.line = t.trap.tpos.toNat / 4096 % 4096 → e.lane = t.trap.tpos.toNat / 256 % 8 →
      t.leaveHandler.ctl = { c.setEntries q rest with
        headAt := vset c.headAt (queueNum q - 1) none, pfx := none
        lost := if followFlag e.w0 = true then c.lost ++ [e.seq] else c.lost }


/-- R361 to R365 and R370 to R381, R383, R388: a CE instruction whose checks pass starts one command, which sends its requests from the
first cycle the request stage is free, with its lines, its signal and, where its lines land at named cycles, its completion cycle;
one whose checks fail raises the fault of the lowest cause and starts nothing. SIGW takes the next cycle of the signal lane, COLL the
next number of a collective, TIMLD invalidates its overlay entry, INKC starts an Inkwell command, INKF changes nothing. A command
waits while ceHold names a hold, and none is named where no earlier command, no write under its release mask and no UNPIN is
pending. (The model's readings in what the checks look at: block sizes log 22, cause 75 beside address faults log 39, byte alignment log 49,
cause 46 of a misaligned signal word log 56.) -/
def Obligations.CopyInstructionsComplete : Prop :=
  (∀ o : CopyOp,
    CopyStarts (.cpy o) o 0 1 ∧ CopyStarts (.cpyh o) o 1 1 ∧ CopyStarts (.cpyw o) o 2 1 ∧ CopyStarts (.cpyt o) o 3 1
    ∧ CopyStarts (.gath o) o 4 1 ∧ CopyStarts (.scat o) o 5 1 ∧ CopyStarts (.cpysf o) o 6 1 ∧ CopyStarts (.bcst o) o 8 2)
  ∧ (∀ o : CopyOp, let info (_ : Tile) := ceInfo (Instr.sigw o).cause o 1 true false
    let bad (c : Ctx) (t : Tile) : List CeFault :=
      let d : Nat := t.desc o
      (if bitsAt d 128 128 = 0 then [] else [(75, none)]) ++ windowFaults c (dDst d) 8 [spadRange]
        ++ (if dDst d % 8 = 0 then [] else [(46, some (dDst d))])
    let free (c : Ctx) (t : Tile) : Prop := ceHold o (fun c t => [winExt c (dDst (t.desc o)) 8]) c t = none
      ∧ ∀ m ∈ t.ce.cmds, m.issue < c.k → m.completed c.k = true
    (∀ (s : State) (f : Folio) (t : Tile) (c : Ctx), Issues s f t c (info t) → free c t → lowestFault (bad c t) = none →
      let d : Nat := t.desc o
      let x : Nat × Nat := winTarget c (dDst d)
      let first : Nat := max (c.k + 1) t.ce.sigFree
      ∃ (t' : Tile) (m : CeCmd), exec (.sigw o) s = .next (s.putTile f (t'.issued c ((info t).cost c)))
        ∧ t'.ce.cmds = t.ce.cmds ++ [m] ∧ t'.ce.sigFree = first + 1 ∧ t'.ce.lines = t.ce.lines ∧ t'.ce.lastReq = t.ce.lastReq
        ∧ m.sig = some ⟨x.1, x.2, winOff (dDst d), bitsAt d 0 64⟩ ∧ m.e = some (first + hops c.place c.fx c.fy x.1 x.2)
        ∧ t'.stores = t.stores ∧ t'.slices = t.slices ∧ t'.net = t.net)
    ∧ ∀ (s : State) (f : Folio) (t : Tile) (c : Ctx) (x : CeFault), Issues s f t c (info t) → free c t → lowestFault (bad c t) = some x →
      exec (.sigw o) s = .next (s.putTile f { t.addRaise (c.inHand (c.ceRaise x)) with ctl := { t.ctl with pfx := none } }))
  ∧ (∀ o : CopyOp, let info (_ : Tile) := ceInfo (Instr.timld o).cause o 1 true false
    (∀ (s : State) (f : Folio) (t : Tile) (c : Ctx), Issues s f t c (info t) → ceHold o (fun c t => t.timldExts c (t.desc o)) c t = none →
      lowestFault (t.timldFaults c (t.desc o)) = none →
      let d : Nat := t.desc o
      ∃ (t' : Tile) (m : CeCmd), exec (.timld o) s = .next (s.putTile f (t'.issued c ((info t).cost c)))
        ∧ t'.ce.cmds = t.ce.cmds ++ [m] ∧ m.fn = 12 ∧ m.total = (tlCount d + 1) / 2 ∧ m.q0 = max (c.k + 1) t.ce.lastReq ∧ m.e = none
        ∧ t'.ce.lastReq = m.q0 + m.total
        ∧ (∀ n < 256, vget t'.csr.ovt n = if n = tlOvl d then vget t.csr.ovt n &&& 0x7FFFFFFFFFFFFFFF#64 else vget t.csr.ovt n)
        ∧ t'.stores = t.stores ∧ t'.slices = t.slices)
    ∧ ∀ (s : State) (f : Folio) (t : Tile) (c : Ctx) (x : CeFault), Issues s f t c (info t) → ceHold o (fun c t => t.timldExts c (t.desc o)) c t = none →
      lowestFault (t.timldFaults c (t.desc o)) = some x →
      exec (.timld o) s = .next (s.putTile f { t.addRaise (c.inHand (c.ceRaise x)) with ctl := { t.ctl with pfx := none } }))
  ∧ (∀ o : CopyOp, let info (_ : Tile) := ceInfo (Instr.coll o).cause o 2 true true
    (∀ (s : State) (f : Folio) (t : Tile) (c : Ctx), Issues s f t c (info t) → ceHold o (fun c t => collExts c (t.desc o)) c t = none →
      lowestFault (collFaults c (t.desc o)) = none →
      let d : Nat := t.desc o
      ∃ (t' : Tile) (m : CeCmd) (sh : Share), exec (.coll o) s = .next (s.putTile f (t'.issued c ((info t).cost c)))
        ∧ t'.ce.cmds = t.ce.cmds ++ [m] ∧ m.kind = .coll t.ce.collSeq ∧ m.e = some (c.k + dLat d)
        ∧ t'.ce.lastReq = m.q0 + (clBytes d + 63) / 64 ∧ t'.ce.collSeq = t.ce.collSeq + 1
        ∧ t'.ce.shares = t.ce.shares ++ [sh] ∧ sh.num = t.ce.collSeq ∧ sh.key = clKey d ∧ sh.land = c.k + dLat d ∧ sh.q0 = m.q0
        ∧ sh.dst = dDst d ∧ sh.issue = c.k ∧ sh.rnd = c.rnd t ∧ sh.isat = c.sat ∧ sh.seed = t.csr.rseed
        ∧ t'.stores = t.stores ∧ t'.slices = t.slices)
    ∧ ∀ (s : State) (f : Folio) (t : Tile) (c : Ctx) (x : CeFault), Issues s f t c (info t) → ceHold o (fun c t => collExts c (t.desc o)) c t = none →
      lowestFault (collFaults c (t.desc o)) = some x →
      exec (.coll o) s = .next (s.putTile f { t.addRaise (c.inHand (c.ceRaise x)) with ctl := { t.ctl with pfx := none } }))
  ∧ (∀ o : CopyOp, let info (_ : Tile) := ceInfo (Instr.inkc o).cause o 1 true false
    (∀ (s : State) (f : Folio) (t : Tile) (c : Ctx), Issues s f t c (info t) → ceHold o (fun c t => t.ikExts c (t.desc o)) c t = none →
      lowestFault (t.ikFaults c (t.desc o)) = none →
      let d : Nat := t.desc o
      ∃ (t' : Tile) (m : CeCmd), exec (.inkc o) s = .next (s.putTile f (t'.issued c ((info t).cost c)))
        ∧ t'.ce.cmds = t.ce.cmds ++ [m] ∧ m.fn = 10 ∧ m.desc = d ∧ m.total = ikItems d * ikRequests d
        ∧ m.kind = .ink { items := [], fail := none, lastRead := none, lastWrite := none, ev := [] } ∧ m.e = none
        ∧ t'.ce.lastReq = m.q0 + m.total ∧ t'.stores = t.stores ∧ t'.slices = t.slices)
    ∧ ∀ (s : State) (f : Folio) (t : Tile) (c : Ctx) (x : CeFault), Issues s f t c (info t) → ceHold o (fun c t => t.ikExts c (t.desc o)) c t = none →
      lowestFault (t.ikFaults c (t.desc o)) = some x →
      exec (.inkc o) s = .next (s.putTile f { t.addRaise (c.inHand (c.ceRaise x)) with ctl := { t.ctl with pfx := none } }))
  ∧ (∀ o : CopyOp, Completes (.inkf o) (fun _ => ceInfo (Instr.inkf o).cause o 1 false false)
      (fun c t => ceHold o (fun _ _ => []) c t = none
        ∧ ∀ m ∈ t.ce.cmds, m.fn = 10 → m.cls = c.cls o.ocl.toNat → m.issue < c.k → m.completed c.k = true) (fun _ t => t))
  ∧ ∀ (o : CopyOp) (exts : Ctx → Tile → List Extent) (c : Ctx) (t : Tile),
    t.ce.cmds = [] → t.writesPending c.k c.k o.rmask.toNat = false → t.ctl.entries .ap = [] → ceHold o exts c t = none


/-- R126, R127, R362 to R364 and R372: the request stage sends line i of a command in its q_0 + i: a CPYH's line is bound to a slot of its
channel that starts at least eight cycles later and lands after the slot's transfer; a CPY's line is read in that cycle and sent over
the mesh, to land in the cycle that its descriptor names. Outside the command's request cycles nothing is sent. -/
def Obligations.LineRequestsBindSlots : Prop :=
  ∀ (s : State) (f : Folio) (t : Tile) (c : Ctx) (m : CeCmd), s.at? = some (f, t, c) → t.ce.cmds = [m] → m.kind = .plain →
    m.stop = none →
    let i : Nat := c.k - m.q0
    let sends : Prop := m.q0 ≤ c.k ∧ c.k < m.q0 + m.total
    (¬sends → exec .ceLineRequest s = .next (s.putTile f t))
    ∧ (sends → m.fn = 1 →
      let pa : Nat := t.physOf (dSrc m.desc + 64 * i)
      let ch : Nat := chanOf c.place pa
      ∃ (t' : Tile) (l : CeLine) (m' : CeCmd), exec .ceLineRequest s = .next (s.putTile f t') ∧ t'.ce.lines = t.ce.lines ++ [l]
        ∧ l.cmd = m.id ∧ l.idx = i ∧ l.route = .read ∧ l.pa = pa ∧ l.off = winOff (dDst m.desc) + 64 * i ∧ l.len = 64
        ∧ l.start = slotStart ch (slotFor c t.ce.cursors ch c.k) ∧ c.k + 8 ≤ l.start
        ∧ l.land = l.start + (if inHostWindow pa then t.csr.hlat else 240)
        ∧ t'.ce.cmds = [m'] ∧ m'.left = m.left - 1 ∧ m'.fin = max m.fin l.land
        ∧ m'.e = (if m.left - 1 = 0 then some (max m.fin l.land) else m.e)
        ∧ (t'.ce.cursors.find? fun x => x.ch == ch).map (fun (x : SlotCursor) => x.last) = some (slotFor c t.ce.cursors ch c.k)
        ∧ t'.stores = t.stores ∧ t'.slices = t.slices ∧ t'.net = t.net)
    ∧ (sends → m.fn = 0 →
      let dst : Nat := winOff (dDst m.desc)
      let base : Nat := dst / 64 * 64 + 64 * i
      let lo : Nat := max dst base
      let n : Nat := min (dst + dLen m.desc) (base + 64) - lo
      ∃ (t' : Tile) (l : CeLine) (g : Flit), exec .ceLineRequest s = .next (s.putTile f t') ∧ t'.ce.lines = t.ce.lines ++ [l]
        ∧ l.route = .mesh ∧ l.idx = i ∧ l.land = m.issue + dLat m.desc + i ∧ l.off = lo ∧ l.len = n
        ∧ l.data = t.bytes (winOff (dSrc m.desc) + (lo - dst)) n ∧ l.targets = m.targets
        ∧ t'.net.router.inj = t.net.router.inj ++ [g] ∧ g.pay = .line m.id i ∧ g.tgts = m.targets ∧ g.born = c.k + 1
        ∧ t'.stores.mem = t.stores.mem ∧ t'.slices = t.slices ∧ t'.ce.cmds = t.ce.cmds)

/-- R121, R126, R128, R130, R321, R324, R364, R365, R370, R382, R421, R444, R446, R475 and R505: in its slot a posted line is written to HBM,
encrypted under its writer's key version with its tag (the order of a block's bytes is the model's choice, log 8), or to the host's memory, and a
line that is read takes HBM's 64 bytes decrypted, zeros where the line is pending-clear, or the host's bytes of that moment and awaits their
completion; a line lands its bytes in the cycle that it names, or raises cause 84 where it is uncorrectable there; the folio does not begin a
cycle in which a result from outside is due and missing; a posted write leaves once it has completed, a signal word lands in its cycle, and a
COLL's result, rounded as the folio's first member of the group asks (the model's choice, log 101), becomes a line of that cycle. (Port 4
for a line in a landing buffer is log 59.) -/
def Obligations.LinesPerformAndLand : Prop :=
  (∀ (s : State) (f : Folio) (t : Tile) (c : Ctx) (l : CeLine), s.at? = some (f, t, c) → t.ce.lines = [l] →
    l.startsAt c.cyc = true → (t.cmdOf l).isSome = true →
    let ch : Nat := chanNum l.pa
    let own : Chan := vget s.dram.chans ch
    let set (v : Nat) : State := s.onFolio s.cursor.folio fun g => g.onTile s.cursor.tile fun t =>
      t.onLine l fun (x : CeLine) => { x with data := v, poison := 0 }
    (inHostWindow l.pa = false → l.route = .write → (s.func own.func).ckpt = none →
      let ver : Nat := (s.func own.func).writeVersion
      ∃ s' : State, exec .hbmSlotAccess s = .next s' ∧ s'.plain l.pa = l.data % 2 ^ 512
        ∧ (vget s'.dram.chans ch).version (chanLine l.pa) = ver
        ∧ (l.poison = 0 → (s.lineKeys l.pa ver).loaded = true → s'.soundLine l.pa)
        ∧ (l.poison ≠ 0 → chanLine l.pa ∈ (vget s'.dram.chans ch).poison)
        ∧ (∀ x, x / 64 ≠ l.pa / 64 → s'.cipher x = s.cipher x) ∧ s'.hostMem = s.hostMem ∧ s'.folios = s.folios)
    ∧ (inHostWindow l.pa = false → l.route ≠ .write → own.pendingClear (chanLine l.pa) = true →
      exec .hbmSlotAccess s = .next (set 0))
    ∧ (inHostWindow l.pa = false → l.route ≠ .write → s.soundLine l.pa → exec .hbmSlotAccess s = .next (set (s.plain l.pa)))
    ∧ (inHostWindow l.pa = true → exec .hbmSlotAccess s = .next s)
    ∧ (inHostWindow l.pa = false → exec .hostSlotAccess s = .next s)
    ∧ (let a : Nat := s.hostAddr f.place.func l.pa
      inHostWindow l.pa = true →
      ((∀ r ∈ s.hostReads, r.got.isSome = true) →
        (l.route = .write → l.poison = 0 → exec .hostSlotAccess s = .next
          { s with hostMem := s.hostMem.writeN a 64 l.data, readCtr := s.readCtr + 1
                   dev := { s.dev with ep := dropMark s.dev.ep (a / 64 * 64) } })
        ∧ (l.route = .write → l.poison ≠ 0 → ∃ s' : State, exec .hostSlotAccess s = .next s'
          ∧ a / 64 * 64 ∈ s'.dev.ep ∧ s'.dram = s.dram ∧ s'.folios = s.folios
          ∧ ∀ x, x < a ∨ a + 64 ≤ x → s'.hostMem.read x = s.hostMem.read x)
        ∧ (l.route ≠ .write → ∃ s' : State, exec .hostSlotAccess s = .next s'
          ∧ s'.hostReads = s.hostReads ++ [⟨s.readCtr, f.place.idx, f.place.func, a, some (s.hostMem.readN a 64), none, none⟩]
          ∧ s'.readCtr = s.readCtr + 1 ∧ s'.hostMem = s.hostMem))
      ∧ (∀ r : HostRead, s.hostReads = [r] → r.got = none → r.data.isSome = true → r.write = none → r.world ≠ f.place.func →
        ∃ s' : State, exec .hostSlotAccess s = .next s' ∧ s'.readCtr = s.readCtr + 1 ∧ s'.hostMem = s.hostMem
          ∧ s'.hostReads = [r, ⟨s.readCtr, f.place.idx, f.place.func, a, none, none,
            if l.route = .write then some (l.data, l.poison != 0) else none⟩])))
  ∧ (∀ (s : State) (f : Folio) (t : Tile) (c : Ctx) (l : CeLine) (m : CeCmd), s.at? = some (f, t, c) → t.ce.lines = [l] →
    t.cmdOf l = some m → m.fn ≠ 6 →
    (l.land ≠ c.cyc → exec .lineLanding s = .next (s.setFolio f))
    ∧ (l.land = c.cyc → l.route = .read → (c.fx, c.fy) ∈ l.bad → exec .lineLanding s = .next (s.setFolio (f.onTile s.cursor.tile fun r =>
        r.addRaise (raiseEnd 84 4 0))))
    ∧ (l.land = c.cyc → l.route = .read → l.bad = [] → l.outside = none → exec .lineLanding s = .next (s.setFolio (f.onTile s.cursor.tile fun r =>
        (r.landLine l.off l.len (l.data % 2 ^ (8 * l.len)) l.poison m.form).wroteBy l.off l.len c.fx c.fy 4)))
    ∧ (∀ x, l.land = c.cyc → l.route = .mesh → l.bad = [] → l.outside = none → l.targets = [x] →
      exec .lineLanding s = .next (s.setFolio (f.onTile (f.tileAt x.1 x.2) fun r =>
        (r.landLine l.off l.len l.data l.poison m.form).wroteBy l.off l.len c.fx c.fy 4))))
  ∧ (∀ (t : Tile) (off len v form : Nat), (t.landLine off len v 0 form).stores.mem = t.stores.mem.writeN off len v)
  ∧ (∀ (s : State) (f : Folio), s.folio? s.cursor.folio = some f →
    ((∀ (i : Nat) (t : Tile), f.tiles[i]? = some t → s.lateTile f i t = false) → ∃ s' : State, exec .lateLandingFreeze s = .next s' ∧ s'.agenda = s.agenda
      ∧ s' = s.setFolio { f with freeze := { f.freeze with late := false } })
    ∧ (∀ (i : Nat) (t : Tile), f.tiles[i]? = some t → s.lateTile f i t = true → ∃ (s' : State) (g : Folio), exec .lateLandingFreeze s = .next s'
      ∧ s'.agenda = s.agenda.filter (fun x => !x.ofFolio f.place.idx) ∧ s'.folios = (s.setFolio g).folios
      ∧ g.freeze.late = true ∧ g.running = false ∧ g.cycle = f.cycle))
  ∧ (∀ (s : State) (f : Folio) (t : Tile) (c : Ctx), s.at? = some (f, t, c) → exec .postedWriteCompletion s = .next (s.putTile f
      { t with ce := { t.ce with lines := t.ce.lines.filter fun l =>
        !((l.route == .write || l.route == .inkWrite) && decide (l.land ≤ c.cyc)) } }))
  ∧ (∀ (s : State) (f : Folio) (g : SignalFlight), s.folio? s.cursor.folio = some f → f.signals = [g] →
    (g.land ≠ f.cycle → exec .completionSignalWrite s = .next (s.setFolio f))
    ∧ (g.land = f.cycle → exec .completionSignalWrite s = .next (s.setFolio
        (Folio.onTile { f with signals := [] } (f.tileAt g.sig.fx g.sig.fy) fun t =>
          (t.store g.sig.off 8 g.sig.value).wroteBy g.sig.off 8 g.srcX g.srcY g.unit))))
  ∧ ∀ (s : State) (f : Folio) (t : Tile) (c : Ctx) (m : CeCmd) (n : Nat) (sh : Share), s.at? = some (f, t, c) → t.ce.cmds = [m] →
    m.kind = .coll n → m.e = some c.cyc → m.stop = none → t.ce.shares.find? (fun x => x.num == n) = some sh →
    let w : Nat := f.place.w
    (∀ x, f.collResult s.far (s.cursor.tile % w) (s.cursor.tile / w) m sh c.cyc = .error x →
      exec .collResultLanding s = .next (s.setFolio (f.onTile s.cursor.tile fun t => t.stopCmd m.id 0 (raiseEnd x.1 x.2 0))))
    ∧ ∀ r, f.collResult s.far (s.cursor.tile % w) (s.cursor.tile / w) m sh c.cyc = .ok r →
      ∃ l : CeLine, l.cmd = m.id ∧ l.land = c.cyc ∧ l.off = sh.dst ∧ l.len = clBytes m.desc ∧ l.data = r.1 ∧ l.route = .mesh
        ∧ l.targets = [(s.cursor.tile % w, s.cursor.tile / w)]
        ∧ exec .collResultLanding s = .next (s.putTile f { t with
          ce := { t.ce with lines := t.ce.lines ++ [l], parts := t.ce.parts.filter fun x => x.1 != n }
          evNow := t.evNow ++ if r.2.2.isEmpty then [] else [(4, sh.issue, r.2.2)] })


/-- R383 to R387: in its slot a line that an Inkwell reads gives its 64 bytes to its item, or fails the command when it is poisoned, and a
line that it writes takes the item's value: FILL alpha, COPY the source line, AXPBY alpha times b plus beta times a, SGDWF a less
alpha times (b plus beta times a), MOMWF mu times the momentum plus the gradient and then the step of SGDWF with it, RQNT a Ductus
block, DIGEST the SHAKE256 digest, each element exact and rounded once; a step with no line in its slot does nothing. A command's
status word lands in its completion cycle with bit 63 set. -/
def Obligations.InkwellLanesPerform : Prop :=
  let rows : List (Nat × Instr) := [(1, .inkwellFill), (2, .inkwellCopy), (3, .inkwellAxpby), (4, .inkwellSgdwf), (5, .inkwellMomwf),
    (6, .inkwellRqnt), (7, .inkwellDigest)]
  (∀ p ∈ rows, ∀ (s : State) (f : Folio) (t : Tile) (c : Ctx), s.at? = some (f, t, c) →
    (t.ce.lines.filter (t.inkStarts p.1 c.cyc) = [] → exec p.2 s = .next s)
    ∧ ∀ (l : CeLine) (m : CeCmd) (i : Ink), t.ce.lines.filter (t.inkStarts p.1 c.cyc) = [l] → t.cmdOf l = some m → m.kind = .ink i →
      let own : Chan := vget s.dram.chans (chanNum l.pa)
      let n : Nat := chanLine l.pa
      let gives (poison : Bool) : State := s.onFolio s.cursor.folio fun g => g.onTile s.cursor.tile fun t =>
        t.inkGot l (s.plain l.pa) poison
      (l.route = .inkRead → l.idx < ikLimit m.desc i → own.pendingClear n = false → s.lineFails l.pa = false → n ∉ own.soft →
        exec p.2 s = .next (gives (own.poison.contains n)))
      ∧ (l.route ≠ .inkRead → m.inkStore l = none → exec p.2 s = .next s)
      ∧ ∀ x, l.route ≠ .inkRead → m.inkStore l = some x → (s.func own.func).ckpt = none →
        ∃ s' : State, exec p.2 s = .next s' ∧ s'.plain l.pa = x.1 % 2 ^ 512 ∧ (∀ y, y / 64 ≠ l.pa / 64 → s'.cipher y = s.cipher y)
          ∧ s'.hostMem = s.hostMem)
  ∧ (∀ (m : CeCmd) (i : Ink) (l : CeLine) (x : InkItem), m.kind = .ink i → l.idx < ikLimit m.desc i →
    i.items.find? (fun x => x.item == l.idx) = some x →
    (m.inkStore l).map (fun p => p.1) = some ((ikOut m.desc x.data).1.getD l.off 0))
  ∧ (∀ (t : Tile) (l : CeLine) (m : CeCmd) (i : Ink) (v : Nat), t.ce.cmds = [m] → m.id = l.cmd → m.kind = .ink i →
    l.idx < ikLimit m.desc i → i.fail = none → ikOp m.desc ≠ 7 →
    ∃ m' i', (t.inkGot l v true).ce.cmds = [m'] ∧ m'.kind = .ink i' ∧ i'.fail = some (l.idx, 1))
  ∧ (∀ (d : Nat) (x a b g : Nat),
    let f : Nat := ikFmt d
    let w : Nat := elemBits f
    let r : Rnd := ⟨ikMode d % 8, decide (8 ≤ ikMode d)⟩
    let al : Machine.Num := decodeElem 2 (ikAlpha d)
    let be : Machine.Num := decodeElem 2 (ikBeta d)
    let mu : Machine.Num := decodeElem 3 (ikMu d)
    let each (h : Nat → List (Option Machine.Num)) : Nat × List (Nat × Nat) :=
      packRounded w ((List.range (512 / w)).map fun i => accumulate f r 0 false false (h i))
    let step (p q : Machine.Num) : List (Option Machine.Num) :=
      [some p, (numMul (some al) (numAdd r.rm (some q) (numMul (some be) (some p)))).map Machine.Num.neg]
    (ikOp d = 1 → (ikOut d []).1 = [(each fun _ => [some al]).1])
    ∧ (ikOp d = 2 → ikOut d [x] = ([x], []))
    ∧ (ikOp d = 3 → (ikOut d [a, b]).1
      = [(each fun i => [numMul (some al) (some (numLane f b i)), numMul (some be) (some (numLane f a i))]).1])
    ∧ (ikOp d = 4 → (ikOut d [a, b]).1 = [(each fun i => step (numLane f a i) (numLane f b i)).1])
    ∧ (ikOp d = 5 →
      let m : Nat := (each fun i => [numMul (some mu) (some (numLane f b i)), some (numLane f g i)]).1
      (ikOut d [a, b, g]).1 = [m, (each fun i => step (numLane f a i) (numLane f m i)).1])
    ∧ (ikOp d = 7 → (ikOut d [x]).1 = [shake256 (packLanes 512 [x]) 64]))
  ∧ (∀ (d : Nat) (data : List Nat), ikOp d = 6 →
    let sf : Nat := ikAux d / 16
    let q := quantise (ikFmt d) (ikAux d % 16) (ikMode d % 8) (fun _ => 0) fun i j => numLane sf (packLanes 512 data) (32 * i + j)
    let blk : Nat := q.1 + q.2.1 * 2 ^ 512 + ikAux d % 16 * 2 ^ (512 * (ikBlock d - 1))
    (ikOut d data).1 = (writerOrder (ikBlock d)).map fun j => blk / 2 ^ (512 * j) % 2 ^ 512)
  ∧ ∀ (s : State) (f : Folio) (t : Tile) (c : Ctx) (m : CeCmd) (i : Ink), s.at? = some (f, t, c) → t.ce.cmds = [m] →
    m.kind = .ink i →
    (m.e ≠ some c.cyc → exec .inkwellStatusLanding s = .next (s.putTile f t))
    ∧ (m.e = some c.cyc → exec .inkwellStatusLanding s
      = .next (s.putTile f ((t.store (ikSt m.desc) 8 (ikStatus m.desc i)).wroteBy (ikSt m.desc) 8 255 255 8)))
    ∧ (i.fail = none → i.ev = [] → ikStatus m.desc i = 2 ^ 63 + ikN m.desc * 2 ^ 32)
    ∧ ∀ x, i.fail = some x → i.ev = [] → ikStatus m.desc i = 2 ^ 63 + x.1 * 2 ^ 32 + x.2


/-- R390, R391, R392 and R418: SEND and SENDI put one flit into the tile's injection queue, which may move from the next cycle on, or raise
cause 66 for a target outside the folio; RECV takes the next place in its channel and RECVW does so once an arrival is untaken, and
the message lands in the cycle k + lat; BAR and BARA arrive at their barrier, or raise cause 65 while an earlier arrival is
incomplete, and BAR holds the queue; BARW issues once its barrier has completed. -/
def Obligations.NetInstructionsComplete : Prop :=
  let sends (i : Instr) (n : Tile → Info) (dx dy : BitVec 8) (ch : BitVec 4) (w : Nat) (v : Tile → Nat) (ocl : BitVec 4) : Prop :=
    let goal (c : Ctx) : Option (Nat × Nat) := c.place.target c.fx c.fy dx.toNat dy.toNat
    (∀ x : Nat × Nat, Completes i n (fun c _ => goal c = some x) fun c t =>
      let g : Flit := { srcX := c.fx, srcY := c.fy, tgts := [x], born := c.k + 1, bad := false
                        pay := .message ch.toNat w (v t) c.k (c.cls ocl.toNat) }
      { t with net := { t.net with router := { t.net.router with inj := t.net.router.inj ++ [g] } } })
    ∧ Traps i n (fun c _ => goal c = none) (fun c _ => c.raiseInfo 66 (fenceInfo c.fx c.fy dx.toNat dy.toNat) 0)
  let takes (i : Instr) (o : NetRecv) (ok : Tile → Prop) : Prop :=
    Completes i (fun _ => recvInfo i.cause o) (fun _ t => ok t) fun c t =>
      let h : Channel := t.chan o.ch
      let r : Recv := { ch := o.ch.toNat, ord := h.taken, vs := o.vs.toNat, w := widthBits o.wv, cls := c.cls o.ocl.toNat
                        issue := c.k, land := c.k + o.lat.toNat }
      { t with net := { t.net with
          chans := vset t.net.chans o.ch.toNat { h with taken := h.taken + 1 }, recvs := t.net.recvs ++ [r] } }
  (∀ o : NetSend, sends (.send o)
    (fun _ => netInfo (Instr.send o).cause [spanOf o.vs.toNat (widthBits o.wv)] [] o.ecl.toNat o.ocl.toNat)
    o.dx o.dy o.ch (widthBits o.wv) (fun t => t.spanBits o.vs.toNat (widthBits o.wv)) o.ocl)
  ∧ (∀ o : NetSendi, sends (.sendi o) (fun _ => netInfo (Instr.sendi o).cause [] [] o.ecl.toNat o.ocl.toNat)
    o.dx o.dy o.ch 16 (fun _ => o.imm.toNat) o.ocl)
  ∧ (∀ o : NetRecv, takes (.recv o) o (fun _ => True)
    ∧ takes (.recvw o) o (fun t => (t.chan o.ch).taken < (t.chan o.ch).arrived)
    ∧ ∀ s f t c, Issues s f t c (recvInfo (Instr.recvw o).cause o) → (t.chan o.ch).arrived ≤ (t.chan o.ch).taken →
      exec (.recvw o) s = .next (s.putTile f (t.held .wait)))
  ∧ ∀ n : BitVec 5,
    let here (t : Tile) : Option Nat := vget t.net.bars n.toNat
    (Completes (.bara n) (fun _ => barInfo) (fun _ t => here t = none) fun c t =>
      { t with net := { t.net with bars := vset t.net.bars n.toNat (some c.k) } })
    ∧ (Completes (.bar n) (fun _ => barInfo) (fun _ t => here t = none) fun c t =>
      { t with net := { t.net with bars := vset t.net.bars n.toNat (some c.k), hold := some n.toNat } })
    ∧ Traps (.bara n) (fun _ => barInfo) (fun _ t => (here t).isSome = true) (fun c _ => c.raiseInfo 65 n.toNat 0)
    ∧ Traps (.bar n) (fun _ => barInfo) (fun _ t => (here t).isSome = true) (fun c _ => c.raiseInfo 65 n.toNat 0)
    ∧ Completes (.barw n) (fun _ => barInfo) (fun _ t => here t = none) (fun _ t => t)
    ∧ ∀ s f t c, Issues s f t c barInfo → (here t).isSome = true → exec (.barw n) s = .next (s.putTile f (t.held .wait))


/-- R131, R132, R318, R319, R350, R352, R391, R392, R475: a flit alone on the mesh moves to the next router of its route, along X first, or into the
ejection output of its target; an arrived message waits in its channel and a receive takes it in its landing cycle, or raises cause
64; a remote atomic performs at its home and answers the old word, its sender knows that it has performed, and its reply lands in its
cycle, or raises cause 63 when it has not come and cause 80 when the word was poisoned; a message or a reply that is uncorrectable in
its landing buffer raises cause 84 (port 4: the model's choice, log 59); a barrier completes in the first cycle in which barDone holds of it. -/
def Obligations.MeshStepsPerform : Prop :=
  (∀ (s : State) (f : Folio) (i : Nat) (t : Tile) (g : Flit) (d : Nat × Nat), s.folio? s.cursor.folio = some f → f.tiles[i]? = some t →
    f.seams = [] → f.place.seam = 0 → f.tiles.length = f.place.w * f.place.h → d.1 < f.place.w → d.2 < f.place.h →
    t.net.router = ⟨[], [], [], [], [g], []⟩ → (∀ (j : Nat) (u : Tile), j ≠ i → f.tiles[j]? = some u → u.net.router = ⟨[], [], [], [], [], []⟩) →
    g.tgts = [d] → g.bad = false → g.born ≤ f.cycle → (∀ (ch w v k z : Nat), g.pay ≠ .message ch w v k z) →
    let x : Nat := i % f.place.w
    let y : Nat := i / f.place.w
    let o : Nat := routeOut x y d
    ∃ f' : Folio, exec .flitHop s = .next (s.setFolio f') ∧ f'.cycle = f.cycle
      ∧ (o = 4 → ∃ u : Tile, f'.tiles[i]? = some u ∧ u.net.router = ⟨[], [], [], [], [], [{ g with born := f.cycle + 1 }]⟩)
      ∧ (o ≠ 4 → ∃ (u v : Tile), f'.tiles[i]? = some u ∧ u.net.router.inj = []
        ∧ f'.tiles[f.tileAt (nextTile x y o).1 (nextTile x y o).2]? = some v
        ∧ v.net.router.port o = [{ g with born := f.cycle + 1 }])
      ∧ ∀ (j : Nat) (u : Tile), f.tiles[j]? = some u → ∃ u' : Tile, f'.tiles[j]? = some u' ∧ u'.slices = u.slices ∧ u'.stores = u.stores ∧ u'.ctl = u.ctl)
  ∧ (∀ (s : State) (f : Folio) (t : Tile) (c : Ctx) (r : Recv), s.at? = some (f, t, c) → t.net.recvs = [r] → r.land = c.cyc →
    r.ch < 16 →
    let h : Channel := vget t.net.chans r.ch
    (∀ (g : Flit) (w v k z : Nat), t.net.router.out = [g] → g.pay = .message r.ch w v k z → h.msgs = [] → r.ord = h.arrived →
      (g.bad = true → ∃ t' : Tile, exec .messageArrival s = .next (s.putTile f t') ∧ t'.raises = t.raises ++ [raiseEnd 84 4 0]
        ∧ t'.pend = t.pend ∧ (vget t'.net.chans r.ch).msgs = [])
      ∧ (g.bad = false → ∃ t' : Tile, exec .messageArrival s = .next (s.putTile f t')
        ∧ t'.pend = t.pend ++ [{ land := c.cyc, issue := r.issue, writer := 8, hand := false
                                 dest := .slices r.vs (r.w / 4) (v % 2 ^ r.w) 0, events := [] }]
        ∧ (vget t'.net.chans r.ch).msgs = [] ∧ (vget t'.net.chans r.ch).arrived = h.arrived + 1 ∧ t'.raises = t.raises
        ∧ t'.slices = t.slices ∧ t'.stores = t.stores))
    ∧ (t.net.router.out = [] → (∀ m ∈ h.msgs, m.ord ≠ r.ord) →
      ∃ t' : Tile, exec .messageArrival s = .next (s.putTile f t') ∧ t'.raises = t.raises ++ [raiseEnd 64 c.cyc 0] ∧ t'.pend = t.pend))
  ∧ (∀ (s : State) (f : Folio) (t : Tile) (c : Ctx) (g : Flit) (id addr w a b u : Nat) (op : AtomOp) (rnd : Rnd),
    s.at? = some (f, t, c) → t.net.router.out = [g] → g.pay = .request id op addr w a b u rnd → t.badWord addr (w / 8) = none →
    let old : Nat := t.bytes addr (w / 8)
    let z : Option Nat × Option Nat := atomApply op w old a b u rnd
    ∃ (f' : Folio) (t' : Tile), exec .ratomHomePerform s = .next (s.setFolio f') ∧ f'.tiles[s.cursor.tile]? = some t'
      ∧ (∃ e : Flit, t'.net.router.inj = t.net.router.inj ++ [e] ∧ e.pay = .reply id old false (evOf z.2)
        ∧ e.tgts = [(g.srcX, g.srcY)] ∧ e.srcX = c.fx ∧ e.srcY = c.fy ∧ e.born = c.cyc + 1) ∧ t'.net.router.out = []
      ∧ t'.stores.mem = (match z.1 with
        | some y => t.stores.mem.writeN addr (w / 8) y
        | none => t.stores.mem)
      ∧ ∀ (u : Tile) (r : Ratom), f'.tiles[f.tileAt g.srcX g.srcY]? = some u → r ∈ u.ap.ratoms → r.id = id → r.homed = some c.cyc)
  ∧ (∀ (s : State) (f : Folio) (t : Tile) (c : Ctx) (r : Ratom), s.at? = some (f, t, c) → t.ap.ratoms = [r] →
    (r.land ≠ c.cyc → exec .ratomReplyLanding s = .next (s.putTile f t))
    ∧ (r.land = c.cyc → r.reply = none → exec .ratomReplyLanding s = .next (s.putTile f (t.addRaise (raiseEnd 63 c.cyc 0))))
    ∧ ∀ x, r.land = c.cyc → r.reply = some x →
      exec .ratomReplyLanding s = .next (s.putTile f (if x.bad then t.addRaise (raiseEnd 84 4 0) else if x.poison then t.addRaise (raiseEnd 80 r.addr 0)
        else t.post { land := c.cyc, issue := r.issue, writer := 2, hand := false, dest := .slices r.vs (r.w / 4) x.value 0
                      events := x.events })))
  ∧ ∀ (s : State) (f : Folio) (n : Nat), s.folio? s.cursor.folio = some f → n < 32 →
    ((∀ m < 32, f.barDone m f.cycle = false) → exec .barrierCompletion s = .next (s.setFolio f))
    ∧ ((∀ m < 32, f.barDone m f.cycle = decide (m = n)) → ∃ f' : Folio, exec .barrierCompletion s = .next (s.setFolio f')
      ∧ f'.barFlips = n :: f.barFlips
      ∧ ∀ (i : Nat) (t : Tile), f.tiles[i]? = some t → ∃ t' : Tile, f'.tiles[i]? = some t' ∧ vget t'.net.bars n = none
        ∧ (∀ m < 32, m ≠ n → vget t'.net.bars m = vget t.net.bars m)
        ∧ t'.net.hold = (if t.net.hold = some n then none else t.net.hold)
        ∧ t'.csr.barph = t.csr.barph ^^^ BitVec.ofNat 32 (2 ^ n) ∧ t'.slices = t.slices ∧ t'.stores = t.stores)

/-- R28, R39 to R44, R48, R50, R51, R137, R138 and R199: a line of short words whose header is sound dispatches them in lane order, each to the queue
that its nibble names; what a line dispatches joins its queues where all of them have room, and nothing of it does otherwise; a
crossing word reads the next line and is completed by its lane 1, or ends as a split word (cause 6) where that line has another nibble
there or a fault of its own; a target buffer is full in the fourth cycle after its fetch began; an event
window starts at each multiple of its length. -/
def Obligations.FetchStepsPerform : Prop :=
  (∀ (l : Line) (m seq disp : Nat), (lane l 0).toNat < 2 ^ 28 → (∀ n, 1 ≤ n → n ≤ 7 → nibble (lane l 0) n < 7) →
    (∀ n, 1 ≤ n → n ≤ 7 → nibble (lane l 0) n ≠ 0 → isLong (lane l n) = false) →
    (∀ n, 1 ≤ n → n ≤ 7 → nibble (lane l 0) n = 1 → major (lane l n) ≠ 0x2C) →
    parseLine l m seq disp none false =
      (([1, 2, 3, 4, 5, 6, 7].filterMap fun n => (queueOf (nibble (lane l 0) n)).map fun q =>
        (q, ({ line := m, lane := n, seq := seq + n, w0 := lane l n, w1 := 0, disp := disp, marker := none, arms := [] } : Entry))),
       none))
  ∧ (∀ (s : State) (f : Folio) (t : Tile) (c : Ctx) (p : PreLine), s.at? = some (f, t, c) → t.nextLine c.k = some p → p.line < 4096 →
    t.ctl.loopWaits p.line = false → (∀ l < 4, (vget t.ctl.loops l).act = false) → t.ctl.fetch.owe = none →
    let r : List (Queue × Entry) × Option Owe := parseLine p.bits p.line t.ctl.fetch.seqCtr c.k none p.bad
    r.2 = none →
    ∃ t' : Tile, exec .lineDispatch s = .next (s.putTile f t') ∧ t'.slices = t.slices ∧ t'.stores = t.stores ∧ t'.pend = t.pend
      ∧ (∀ q : Queue, ((t'.ctl.entries q).map fun (e : Entry) => (e.line, e.lane, e.w0, e.w1)) =
        ((t.ctl.entries q).map fun (e : Entry) => (e.line, e.lane, e.w0, e.w1))
          ++ if roomFor t.ctl r.1 then (r.1.filter fun x => x.1 == q).map (fun x => (x.2.line, x.2.lane, x.2.w0, x.2.w1)) else [])
      ∧ (roomFor t.ctl r.1 = false → t'.ctl.queues = t.ctl.queues ∧ t'.ctl.fetch.direct = t.ctl.fetch.direct))
  ∧ (∀ (t : Tile) (k : Nat) (x : Cross), t.ctl.fetch.cross = [x] → x.got = none →
    ((t.fetchReads k).ctl.fetch.cross = if x.from_ ≤ k then
      [{ x with got := some ⟨x.owe.line + 1, t.timLine (x.owe.line + 1), k, t.stores.badTim.contains (x.owe.line + 1)⟩ }] else [x]))
  ∧ (∀ (s : State) (f : Folio) (t : Tile) (c : Ctx) (x : Cross), s.at? = some (f, t, c) → t.ctl.fetch.cross = [x] →
    let o : Owe := x.owe
    (x.got = none → exec .crossingWordCompletion s = .next (s.putTile f t))
    ∧ ∀ p : PreLine, x.got = some p → p.bad = false → (t.ctl.entries o.q).length < 16 → (∀ q : Queue, (t.ctl.entries q).length ≤ 16) →
      let h : Word := lane p.bits 0
      ∃ (t' : Tile) (e : Entry),
      exec .crossingWordCompletion s = .next (s.putTile f t') ∧ t'.ctl.entries o.q = t.ctl.entries o.q ++ [e]
        ∧ t'.ctl.fetch.cross = [] ∧ e.line = o.line ∧ e.lane = o.lane ∧ e.seq = o.seq ∧ e.w0 = o.w0
        ∧ (p.line ≤ 4095 → nibble h 1 = queueNum o.q → h.toNat < 2 ^ 28 → (∀ n, 1 ≤ n → n ≤ 7 → nibble h n < 7) →
          (∀ n, 2 ≤ n → n ≤ 7 → nibble h n = 1 → major (lane p.bits n) ≠ 0x2C) → e.w1 = lane p.bits 1 ∧ e.marker = none)
        ∧ (4095 < p.line ∨ nibble h 1 ≠ queueNum o.q ∨ 2 ^ 29 ≤ h.toNat ∨ (∃ n, 1 ≤ n ∧ n ≤ 7 ∧ 7 ≤ nibble h n) →
          e.marker.map (fun (m : Marker) => m.cause) = some 6))
  ∧ (∀ (s : State) (f : Folio) (t : Tile) (c : Ctx), s.at? = some (f, t, c) →
    ∃ t' : Tile, exec .targetBufferFill s = .next (s.putTile f t') ∧ ∀ b < 8,
      vget t'.ctl.btgt b = (let x : Target := vget t.ctl.btgt b
        if x.filled + 4 ≤ (c.k : Int) then { x with full := true } else x))
  ∧ ∀ (s : State) (f : Folio) (t : Tile) (c : Ctx), s.at? = some (f, t, c) → t.pend = [] →
    ∃ t' : Tile, exec .nevWindowStart s = .next (s.putTile f t') ∧ ∀ n < 6,
      let w : Nat := (vget t.csr.nevcfg n).toNat / 2 ^ 32 % 2 ^ 24
      vget t'.csr.nevcnt n = if w ≠ 0 ∧ c.cyc % w = 0 then 0 else vget t.csr.nevcnt n


/-- R142, R152, R162, R170, R171, R173 to R176, R463, R470, R471, R474, R486: a tile that has issued HALT halts once nothing of it is still
to issue or to land; a folio commits, is evicted or ends with its trap; its footprint then awaits its release, which writes the
completion record. An eviction writes the save region at the record's address: its header's fields and digest, and records that give
back the folio's tiles, with the bytes that the live maps name (the layout of the bytes is the model's choice, log 9). An overdue pen-lift, a launch limit that passes and a parity error raise 62, 94 and 85 (62 and 94 at tile
(0, 0): the model's choice, log 34). (That posted writes and signal words keep a tile from halting is log 31; that bytes which no live map
names come back as zero is log 28.) -/
def Obligations.FolioEndsComplete : Prop :=
  (∀ (s : State) (f : Folio) (t : Tile) (c : Ctx), s.at? = some (f, t, c) →
    (t.halting = true → (∀ q : Queue, t.ctl.entries q = []) → t.ctl.fetch.cross = [] → t.pend = [] → t.ap.accs = [] →
      t.ap.ratoms = [] → t.ap.sleep = none → t.mx.mma = none → t.mx.pend = [] → t.net.recvs = [] → t.ceBusy c.cyc = false →
      exec .tileHalted s = .next (s.putTile f { t with halted := true }))
    ∧ (t.halted = false →
      t.halting = false ∨ t.pend ≠ [] ∨ t.ap.accs ≠ [] ∨ t.mx.mma ≠ none ∨ t.ceBusy c.cyc = true ∨ (∃ q : Queue, t.ctl.entries q ≠ []) →
      exec .tileHalted s = .next (s.putTile f t)))
  ∧ (∀ (s : State) (f : Folio), s.folio? s.cursor.folio = some f →
    Ends .folioCommit s (fun s' => s.Gone s' f (some (f.completion 0 0)) ∧ s'.hostMem = s.hostMem ∧ s'.dram = s.dram
      ∧ s'.queues = s.queues ∧ s'.saved = s.saved)
    ∧ Ends .folioEviction s (fun s' => (s.stopsActed f.stops).Gone s' { f with stops := f.stops.map Stop.hit } none ∧ ⟨f.place.func, f.launch.job, f.launch.save⟩ ∈ s'.saved
      ∧ s'.hostMem = (s.saveFolio f f.launch.save.toNat).hostMem ∧ s'.dram = (s.saveFolio f f.launch.save.toNat).dram)
    ∧ (f.allHalted = false ∧ f.lastPen + 2 ^ 22 ≤ f.cycle →
      exec .penliftOverdue s = .next (s.setFolio (f.onTile 0 fun t => t.addRaise (raiseEnd 62 f.lastPen 0))))
    ∧ (f.allHalted = true ∨ f.cycle < f.lastPen + 2 ^ 22 → exec .penliftOverdue s = .next s)
    ∧ (0 < f.launch.timeout → 65536 * f.launch.timeout ≤ f.cycle + 1 →
      exec .launchTimeout s = .next (s.setFolio (f.onTile 0 fun t => t.addRaise (raiseEnd 94 (65536 * f.launch.timeout) 0))))
    ∧ (f.launch.timeout = 0 ∨ f.cycle + 1 < 65536 * f.launch.timeout → exec .launchTimeout s = .next s))
  ∧ (∀ (s : State) (f : Folio) (va v : Nat) (g : Page), s.walk f.place.func va = (.mapped g v, s) → g.host = true →
    va % pageBytes g.size + f.region.2 ≤ pageBytes g.size →
    (s.saveFolio f va).hostMem = s.hostMem.writeN (s.hostAddr f.place.func (g.pa + va % pageBytes g.size)) f.region.2 f.region.1
    ∧ (s.saveFolio f va).dram = s.dram)
  ∧ (∀ f : Folio,
    let p : Place := f.place
    let n : Nat := f.recordBytes.length
    let h : Nat := f.region.1 % 2 ^ (8 * 4096)
    let body : Nat := f.region.1 / 2 ^ (8 * 4096)
    f.region.2 = 4096 + n
    ∧ (n < 2 ^ 64 → f.cycle < 2 ^ 64 → p.w < 256 → p.h < 256 → p.seam < 256 → p.chans.length ≤ 256 →
      p.chans.map Prod.fst = List.range p.chans.length → (∀ x ∈ p.chans, x.2 < 2 ^ 16) →
      field h 0 8 = saveMagic ∧ field h 8 8 = f.launch.image.toNat ∧ field h 32 8 = n ∧ field h 4032 64 = shake256 body n
      ∧ folioOfRegion h (toBytes n body) = .sound (f.record.folio { p with idx := 0, orient := 0, px0 := 0, py0 := 0, func := 0 } f.cycle)))
  ∧ (∀ (t : Tile) (a : Nat), t.record.tile.byte a = if within (savedBytes t.savedItems) a = true then t.byte a else 0)
  ∧ (∀ (s : State) (f : Folio) (i : Nat) (t : Tile), s.folio? s.cursor.folio = some f → f.trapping = [(i, t)] →
    (∀ u ∈ f.tiles, u.note = none) → f.place.func < 64 →
    let r : FuncRegs := s.func f.place.func
    Ends .trapPostToHost s (fun s' =>
      (ringOn r.evbase = true →
        s'.hostMem = s.hostMem.writeN (ringSlot r.evbase r.evtail.toNat 64) 64 ((f.trapEvent i t).bytes r.evtail.toNat s.nowNs)
        ∧ (s'.func f.place.func).evtail = r.evtail + 1)
      ∧ (r.evctl.getLsbD 0 = false ∨ causeFatal t.trap.cause = true →
        s.Gone s' f (some (f.completion (if t.trap.cause = 94 then 3 else 2) t.trap.cause)))
      ∧ (r.evctl.getLsbD 0 = true ∧ causeFatal t.trap.cause = false →
        s'.folios = s.folios.map (fun g => if g.place.idx == f.place.idx then { g with trapped := true, cause := t.trap.cause } else g)
        ∧ s'.releasing = s.releasing)))
  ∧ (∀ (s : State) (f : Folio) (n fx fy : Nat), s.folio? n = some f → fx < f.place.w →
    exec (.controlStateParityError n fx fy) s =
      .next (s.onFolio n fun g => if g.place.w ≤ fx then g else g.onTile (g.tileAt fx fy) fun t => t.addRaise (raiseEnd 85 0 0)))
  ∧ (∀ (s : State) (r : Release) (q n : Nat) (d : Done), s.releasing = [r] → r.done = some (q, n, d) → r.stops = [] →
    (s.queue q).epoch = d.epoch → (s.queue q).inOrder n → n < (s.queue q).head.toNat → (∀ x ∈ s.hostReads, x.write = none) →
    Ends .tileRelease s (fun s' => s'.releasing = [] ∧ s.Answers s' q n d ∧ s'.folios = s.folios ∧ s'.arb.failed = []
      ∧ s'.dram = s.dram))
  ∧ ∀ (s : State) (r : Release) (x : Stop), s.releasing = [r] → r.done = none → r.stops = [x] →
    (∀ g ∈ s.folios, ∀ y ∈ g.stops, x.same y = false) → (s.queue x.queue).epoch = x.epoch → (s.queue x.queue).inOrder x.recNo →
    x.recNo < (s.queue x.queue).head.toNat → (∀ y ∈ s.hostReads, y.write = none) →
    Ends .tileRelease s (fun s' => s'.releasing = [] ∧ s'.folios = s.folios ∧ s'.dram = s.dram
      ∧ s.Answers s' x.queue x.recNo ⟨if x.acted then 4 else 7, 0, r.job, x.phase, if x.acted then r.cycle else 0, x.irq, 0, x.epoch⟩)


/-- R160 to R167, R169, R171, R173, R175, R411 to R415, R419 to R421, R487: a malformed launch record completes with status 6; a sound one
is rejected with status 1 and the number of the check that fails, or starts its folio at cycle 0 on the place that the search finds, or stays at
its queue's head; a pre-empt record sets its stop pending on every running folio of its job, or completes with status 7; a
resume record lets held folios go on, or enters again, with status 5, the folio that an evicted job's save region or the region that the
record names gives; it completes with 2/86 where that region is unsound, with 1/13 where a held folio's leases do not stand any more, and
with status 7 where it finds nothing. The doorbell, the queue's
owner and a lease entry take what is written. (The model's choices: the cycle field of a record that ends no folio, 0, and of a resume, the
largest count, log 40; the queue, number, job, save address and domain of a restored folio, log 78; which region is unsound and which is
absent, log 9.) -/
def Obligations.RecordsComplete : Prop :=
  (∀ (s : State) (q : Nat), s.arb.granted = some q → s.eligible q = true → (s.queue q).inOrder (s.queue q).head.toNat →
    let n : Nat := (s.queue q).head.toNat
    let v : Nat := s.record q n
    let fn : Nat := (s.queue q).owner
    let completion (status detail cycle : Nat) (s' : State) : Prop :=
      (s'.queue q).head.toNat = n + 1 ∧ s'.folios = s.folios
      ∧ s.Answers s' q n ⟨status, detail, recJob v, recPhase v, cycle, v.testBit 9, 0, (s.queue q).epoch⟩
    (s.malformed q v = true → Ends .launchRecord s (completion 6 0 0))
    ∧ (∀ b : Nat, s.malformed q v = false → recType v = 1 →
      (s.countMembers fn v).readVirt fn (field v 8 8) (field v 16 4) (field v 16 4 / 65536 + 2) = (some b, s.countMembers fn v) →
      let m : Image := Image.ofBytes b (field v 16 4)
      let x : Launch := { launchOf q n v with epoch := (s.queue q).epoch }
      let k : Nat := m.check (BitVec.ofNat 32 (field v 32 4)) (field v 38 2) (field v 40 4) (field v 44 2)
      (k ≠ 0 → Ends .launchRecord s (completion 1 k 0))
      ∧ (k = 0 → s.binding fn (recJob v) m.chans = none → Ends .launchRecord s (completion 1 13 0))
      ∧ ∀ l : List (Nat × Nat), k = 0 → s.binding fn (recJob v) m.chans = some l →
        (search m.w m.h m.seam [] s.unusable = none → Ends .launchRecord s (completion 1 14 0))
        ∧ (∀ p : Place, search m.w m.h m.seam [] s.unusable ≠ none → s.fit fn [⟨m.w, m.h, m.seam, field v 38 2, l⟩] = some [p] →
          Ends .launchRecord s (fun s' => ∃ g : Folio, s'.folios = s.folios ++ [g] ∧ g.place = p ∧ g.launch = x
            ∧ g.cycle = 0 ∧ g.calendar = m.calendar ∧ g.tiles.length = m.w * m.h ∧ g.held = false ∧ g.stops = []
            ∧ (∀ i < m.w * m.h, g.tiles[i]? = some (m.tile x (field v 38 2) (field v 40 4) (field v 44 2)
              (s.idleMem (p.phys (i % m.w) (i / m.w))) (i % m.w) (i / m.w)))
            ∧ (s'.queue q).head.toNat = n + 1 ∧ s'.hostMem = s.hostMem ∧ s'.dram = s.dram))
        ∧ (search m.w m.h m.seam [] s.unusable ≠ none → s.fit fn [⟨m.w, m.h, m.seam, field v 38 2, l⟩] = none →
          Ends .launchRecord s (fun s' => s'.folios = s.folios ∧ s'.queues = s.queues ∧ q ∈ s'.arb.failed ∧ s'.hostMem = s.hostMem)))
    ∧ (s.malformed q v = false → recType v = 2 →
      (∀ g ∈ s.folios, g.place.func = fn → g.launch.job = recJob v → g.trapped = false) →
      let runs (g : Folio) : Prop := g.place.func = fn ∧ g.launch.job = recJob v ∧ g.held = false
      ((∃ g ∈ s.folios, runs g) → Ends .preemptRecord s (fun s' =>
        s'.folios.length = s.folios.length ∧ (s'.queue q).head.toNat = n + 1 ∧ s'.hostMem = s.hostMem
        ∧ ∀ (i : Nat) (g : Folio), s.folios[i]? = some g →
          (runs g → s'.folios[i]? = some { g with stops := g.stops ++ [⟨v.testBit 8, q, n, v.testBit 9, recPhase v, (s.queue q).epoch, false⟩] })
          ∧ (¬ runs g → s'.folios[i]? = some g)))
      ∧ ((∀ g ∈ s.folios, ¬ runs g) → Ends .preemptRecord s (completion 7 0 0)))
    ∧ (s.malformed q v = false → recType v = 3 →
      let u : State := s.knowJob fn (recJob v) none 0
      let ck : Bool := s.ckHolds fn (recJob v)
      let returns (g : Folio) (p : Place) (l : List Tile) (s' : State) : Prop :=
        (ck = false → s'.folios = s.folios ++ [{ g with place := p, tiles := l }]) ∧ s'.evictedOf fn (recJob v) = [] ∧ (s'.queue q).head.toNat = n + 1
        ∧ s.Answers s' q n ⟨5, 0, recJob v, recPhase v, g.cycle, v.testBit 9, 0, (s.queue q).epoch⟩
      (s.heldOf fn (recJob v) ≠ [] → s.evictedOf fn (recJob v) = [] → (s.folios.map fun g => g.place.idx).Nodup →
        (∀ g ∈ s.heldOf fn (recJob v), (s.shapeOf fn g).isSome = true) →
        Ends .resumeRecord s (fun s' => (s'.queue q).head.toNat = n + 1
          ∧ s.Answers s' q n ⟨5, 0, recJob v, recPhase v, lastCycle (s.heldOf fn (recJob v)), v.testBit 9, 0, (s.queue q).epoch⟩
          ∧ s'.heldOf fn (recJob v) = []
          ∧ ∀ g ∈ s.heldOf fn (recJob v), { g with
            held := false, freeze := { g.freeze with preempt := false }, ckStop := g.ckStop || (ck && !g.trapped) } ∈ s'.folios))
      ∧ ((∃ g ∈ s.heldOf fn (recJob v), s.shapeOf fn g = none) → s.evictedOf fn (recJob v) = [] →
        Ends .resumeRecord s (completion 1 13 0))
      ∧ (∀ (x : Saved) (g : Folio) (z : Shape) (p : Place) (l : List Tile), s.heldOf fn (recJob v) = [] → s.evictedOf fn (recJob v) = [x] →
        u.readSave fn x.save.toNat false = (.sound g, u) → s.shapeOf fn g = some z → s.fit fn [z] = some [p] →
        u.rewalkTiles p g.tiles = (some l, u) → Ends .resumeRecord s (returns g p l))
      ∧ (s.heldOf fn (recJob v) = [] → s.evictedOf fn (recJob v) = [] →
        (∀ (g : Folio) (z : Shape) (p : Place) (l : List Tile), u.readSave fn (field v 48 8) true = (.sound g, u) →
          let g' : Folio := { g with launch := { g.launch with
            queue := q, recNo := n, irq := v.testBit 9, job := recJob v, domain := 0, save := BitVec.ofNat 64 (field v 48 8)
            epoch := (s.queue q).epoch } }
          s.shapeOf fn g' = some z → s.fit fn [z] = some [p] → u.rewalkTiles p g.tiles = (some l, u) →
          Ends .resumeRecord s (returns g' p l))
        ∧ (u.readSave fn (field v 48 8) true = (.unsound, u) → Ends .resumeRecord s (completion 2 86 0))
        ∧ (u.readSave fn (field v 48 8) true = (.absent, u) → Ends .resumeRecord s (completion 7 0 0)))))
  ∧ (∀ (s : State) (q : Nat) (n : BitVec 32), s.ready = true → q < 16384 →
    Ends (.lqtailWrite q n) s (fun s' => s'.queue q = { s.queue q with tail := n } ∧ (∀ x : Nat, x ≠ q → s'.queue x = s.queue x)
      ∧ s'.folios = s.folios))
  ∧ (∀ (s : State) (q : Nat) (o : BitVec 6), s.ready = true → q < 16384 →
    ((s.queue q).en = true → exec (.lqownWrite q o) s = .next s)
    ∧ ((s.queue q).en = false → (s.queue q).owner ≠ o.toNat →
      Ends (.lqownWrite q o) s (fun s' => s'.queue q = (s.queue q).anew o.toNat ∧ ∀ x : Nat, x ≠ q → s'.queue x = s.queue x)))
  ∧ ∀ (s : State) (ch : Nat) (v : BitVec 64), s.ready = true → ch < 256 →
    let c : Chan := vget s.dram.chans ch
    (s.chanBusy ch = true ∨ (v.getLsbD 63 = true ∧ c.ret = true) → exec (.leaseWrite ch v) s = .next s)
    ∧ (s.chanBusy ch = false → v.getLsbD 63 = false ∨ c.ret = false →
      Ends (.leaseWrite ch v) s (fun s' =>
        let d : Chan := vget s'.dram.chans ch
        d.v = v.getLsbD 63 ∧ d.func = v.toNat / 2 ^ 48 % 2 ^ 6 ∧ d.index = v.toNat / 2 ^ 40 % 2 ^ 8 ∧ d.job.toNat = v.toNat % 2 ^ 32
        ∧ ((c.v = true ∧ d.v = false) ∨ c.func ≠ d.func ∨ c.job ≠ d.job →
          d.clr = true ∧ ∀ l < 0x1800000, d.pendingClear l = true)
        ∧ (¬((c.v = true ∧ d.v = false) ∨ c.func ≠ d.func ∨ c.job ≠ d.job) →
          d.clr = c.clr ∧ ∀ l < 0x1800000, d.pendingClear l = c.pendingClear l)
        ∧ (∀ x : Nat, x ≠ ch → vget s'.dram.chans x = vget s.dram.chans x) ∧ s'.dram.hbm = s.dram.hbm ∧ s'.folios = s.folios))


/-- R329, R357, R421, R434, R437 to R439, R442 to R444, R446, R447, R478, R481: a PROBE resolves by its home's TLB entry, with status 1 where
the host refuses it or no ring takes its fault, and waits while its page migrates (the model's choice, log 104); TLBINV drops what it names; a migration starts, is refused, copies line by line and aborts; the
sweep clears a line, which is then decrypted as zero; a scrub visit passes a sound line, encrypts it again under the new key in a
rotation's pass, and poisons an uncorrectable one; a rotation arms and completes; the error
counters and windows clear. (KEYCTL without armed changes nothing by log 81; a migration's refusals are in part log 83.) -/
def Obligations.MemoryUpkeepComplete : Prop :=
  (∀ (s : State) (f : Folio) (t : Tile) (c : Ctx) (slot va d k : Nat), s.at? = some (f, t, c) → t.probe = some (slot, va, d, k) →
    s.awaitsHost f.place.idx s.cursor.tile = false →
    (s.migHolds f.place.func va = true → exec .probeResolve s = .next s) ∧ (s.migHolds f.place.func va = false →
    let write (x : PendDest) : PendWrite := { land := k + 1, issue := k, writer := 2, hand := false, dest := x, events := [] }
    ∀ l : List PendWrite, t.pend = l ++ [write (.slices d 8 0 0), write .nothing] → (∀ p ∈ l, p.issue ≠ k) →
    (∀ (h : Tile) (e : Tlb), f.tiles[homeTile f.place va]? = some h → h.tlb.find? (fun e => e.vpn == bitsAt va 16 38) = some e →
      ∃ (f' : Folio) (t' : Tile), Ends .probeResolve s (fun s' => s'.folios = (s.setFolio f').folios) ∧ f'.tiles[s.cursor.tile]? = some t'
        ∧ t'.probe = none
        ∧ t'.pend = l ++ [write (.slices d 8 (e.size * 64 + (if e.w then 32 else 0) + (if e.host then 16 else 0)) 0),
          write (.slot slot true e.w e.size e.host (va / pageBytes e.size * pageBytes e.size / 2 ^ 16) e.pa)]
        ∧ f'.freeze.probe = f'.tiles.any (fun (u : Tile) => u.probe.isSome) ∧ f'.cycle = f.cycle)
    ∧ ((∀ h : Tile, f.tiles[homeTile f.place va]? = some h → h.tlb.find? (fun e => e.vpn == bitsAt va 16 38) = none) →
      s.walk f.place.func va = (.absent, s) → (∀ x ∈ s.faults, x.walksAgain f.place.idx s.cursor.tile = false) →
      ringOn (s.func f.place.func).frbase = false →
      Ends .probeResolve s (fun s' => ∃ (f' : Folio) (t' : Tile), s'.folio? f.place.idx = some f' ∧ f'.tiles[s.cursor.tile]? = some t'
        ∧ t'.probe = none ∧ t'.pend = l ++ [write (.slices d 8 1 0), write .nothing]))))
  ∧ (∀ (s : State) (x : OpenFault) (f : Folio) (t : Tile) (func slot va d k : Nat) (v : BitVec 64) (l : List PendWrite),
    s.faults.find? (fun y => y.func == func && y.seq == v.toNat % 2 ^ 32 && !y.again) = some x → s.folio? x.folio = some f →
    f.tiles[x.tile]? = some t → t.probe = some (slot, va, d, k) →
    let write (x : PendDest) : PendWrite := { land := k + 1, issue := k, writer := 2, hand := false, dest := x, events := [] }
    t.pend = l ++ [write (.slices d 8 0 0), write .nothing] → (∀ p ∈ l, p.issue ≠ k) →
    (v.getLsbD 32 = true →
      Ends (.fack func v) s (fun s' => x ∉ s'.faults ∧ (func < 64 → (s'.func func).fack.toNat = v.toNat % 2 ^ 33) ∧ ∃ (f' : Folio) (t' : Tile),
        s'.folio? x.folio = some f' ∧ f'.tiles[x.tile]? = some t' ∧ t'.probe = none
        ∧ t'.pend = l ++ [write (.slices d 8 1 0), write .nothing]))
    ∧ (v.getLsbD 32 = false → s.migHolds f.place.func va = true →
      Ends (.fack func v) s (fun s' => { x with again := true } ∈ s'.faults ∧ s'.folios = s.folios)))
  ∧ (∀ (s : State) (func : Nat) (v : BitVec 64),
    Ends (.tlbinv func v) s (fun s' => s'.folios.length = s.folios.length
      ∧ (func < 64 → (s'.func func).tlbinv.toNat = v.toNat / 2 ^ 26 % 2 ^ 38 * 2 ^ 26 + v.toNat % 8) ∧ ∀ (i : Nat) (f : Folio), s.folios[i]? = some f →
      (f.place.func ≠ func → s'.folios[i]? = some f)
      ∧ (f.place.func = func → ∃ f' : Folio, s'.folios[i]? = some f' ∧ ∀ (j : Nat) (t : Tile), f.tiles[j]? = some t →
        ∃ t' : Tile, f'.tiles[j]? = some t' ∧ t'.wins = t.wins ∧ t'.slices = t.slices ∧ t'.stores = t.stores
          ∧ ∀ e : Tlb, e ∈ t'.tlb ↔ e ∈ t.tlb ∧ v.getLsbD 2 = false
            ∧ e.vpn / (pageBytes (v.toNat % 4) / 2 ^ 16) ≠ v.toNat / 2 ^ 26 % 2 ^ 38 / (pageBytes (v.toNat % 4) / 2 ^ 16))))
  ∧ (∀ (s : State) (g : Page) (leaf : Nat), s.mig.state ≠ 1 → s.walk s.mig.func s.mig.vaddr = (.mapped g leaf, s) →
    let m : Mig := if s.migRefused g = true then { s.mig with state := 3 }
      else { s.mig with state := 1, line := 0, srcPa := g.pa, leafPa := leaf, lines := pageBytes g.size / 64 }
    exec .migratePage s = .next { s with mig := m })
  ∧ (∀ s : State, s.mig.state = 1 →
    let d : Nat := s.mig.dest + 64 * s.mig.line
    (∀ (v : Nat) (p : Bool), s.migRead (s.mig.srcPa + 64 * s.mig.line) = (some (v, p), s) → s.leased (chanNum d) s.mig.func = true →
      s.unguarded d → s.mig.line + 1 < s.mig.lines →
      Ends .migrationLineCopy s (fun s' => s'.mig = { s.mig with line := s.mig.line + 1 }
        ∧ s'.plain d = v % 2 ^ 512 ∧ (∀ x, x / 64 ≠ d / 64 → s'.cipher x = s.cipher x) ∧ s'.folios = s.folios))
    ∧ (∀ s₁ : State, s.migRead (s.mig.srcPa + 64 * s.mig.line) = (none, s₁) →
      Ends .migrationLineCopy s (fun s' => s'.mig.state = 4 ∧ s'.dram = s₁.dram)))
  ∧ (∀ (s : State) (ch : Nat), ch < 256 → (∀ x < ch, s.sweeps x = false) → s.sweeps ch = true →
    (vget s.dram.chans ch).clearFrom < 0x1800000 →
    let c : Chan := vget s.dram.chans ch
    c.cleared.Nodup → (∀ l ∈ c.cleared, l < 0x1800000) →
    Ends .channelClearSweep s (fun s' =>
      let d : Chan := vget s'.dram.chans ch
      d.pendingClear c.clearFrom = false ∧ (∀ l : Nat, l ≠ c.clearFrom → d.pendingClear l = c.pendingClear l)
      ∧ (d.clr = true ↔ ∃ l < 0x1800000, d.pendingClear l = true)
      ∧ (c.clearFrom ∉ c.cleared → s'.plain (ch * 2 ^ 31 + 64 * c.clearFrom) = 0)
      ∧ (∀ x : Nat, x ≠ ch → vget s'.dram.chans x = vget s.dram.chans x)))
  ∧ (∀ (s : State) (ch : Nat), ch < 256 → (vget s.dram.chans ch).ret = false →
    let c : Chan := vget s.dram.chans ch
    let pa : Nat := ch * 2 ^ 31 + 64 * c.scrubAt
    let next : Nat := if c.scrubAt + 1 < 0x1800000 then c.scrubAt + 1 else 0
    c.scrubAt < 0x1800000 →
    (s.soundLine pa → c.rot ≠ 2 → Ends (.scrubVisit ch false) s (fun s' => (vget s'.dram.chans ch).scrubAt = next
      ∧ s'.dram.hbm = s.dram.hbm ∧ (vget s'.dram.chans ch).poison = c.poison ∧ s'.folios = s.folios))
    ∧ (let next : Nat := (s.func c.func).keynext
      s.soundLine pa → c.rot = 2 → c.version c.scrubAt ≠ next → (vget (s.func c.func).keys next).loaded = true → s.unguarded pa →
      Ends (.scrubVisit ch false) s (fun s' => s'.plain pa = s.plain pa ∧ s'.soundLine pa
        ∧ (vget s'.dram.chans ch).version c.scrubAt = next ∧ ∀ x, x / 64 ≠ pa / 64 → s'.cipher x = s.cipher x))
    ∧ (c.pendingClear c.scrubAt = false → c.scrubAt ∈ c.bad → Ends (.scrubVisit ch false) s (fun s' =>
      let d : Chan := vget s'.dram.chans ch
      d.scrubAt = next ∧ c.scrubAt ∈ d.poison ∧ c.scrubAt ∉ d.bad ∧ d.unc = min (c.unc + 1) 0xFFFFFFFF ∧ s'.dram.hbm = s.dram.hbm)))
  ∧ (∀ (s : State) (f : Nat) (v : BitVec 64), f < 64 →
    let r : FuncRegs := s.func f
    let n : Nat := v.toNat / 16 % 4
    (v.getLsbD 6 = true → r.keybusy = false → n ≠ r.keycur → (vget r.keys n).loaded = true →
      Ends (.keyRotationArm f v) s (fun s' => (s'.func f).keynext = n ∧ (s'.func f).keyarmed = true ∧ (s'.func f).keycur = r.keycur
        ∧ (s'.func f).keys = r.keys ∧ ∀ ch < 256, let c : Chan := vget s.dram.chans ch
          vget s'.dram.chans ch = if c.v = true ∧ c.func = f then { c with rot := 1 } else c))
    ∧ (v.getLsbD 6 = false ∨ r.keybusy = true ∨ n = r.keycur ∨ (vget r.keys n).loaded = false →
      exec (.keyRotationArm f v) s = .next s))
  ∧ (∀ (s : State) (f : Nat), f < 64 → (∀ g < 64, s.rotationOver g = decide (g = f)) →
    Ends .keyRotationComplete s (fun s' => (s'.func f).keycur = (s.func f).keynext ∧ (s'.func f).keyarmed = false
      ∧ (s'.func f).keybusy = false
      ∧ (∀ i < 4, vget (s'.func f).keys i = if i = (s.func f).keynext then vget (s.func f).keys i else ⟨false, 0, 0⟩)
      ∧ ∀ g < 64, g ≠ f → s'.func g = s.func g))
  ∧ (∀ s : State, Ends .warningWindowStart s (fun s' =>
    (∀ ch < 256, vget s'.dram.chans ch = { vget s.dram.chans ch with winCor := 0, warned := false })
    ∧ ∀ l < 18, vget s'.links l = { vget s.links l with winCor := 0, warned := false }))
  ∧ (∀ (s : State) (ch : Nat), ch < 256 → Ends (.errchWrite ch) s (fun s' =>
    vget s'.dram.chans ch = { vget s.dram.chans ch with unc := 0, cor := 0 }
    ∧ ∀ x : Nat, x ≠ ch → vget s'.dram.chans x = vget s.dram.chans x))
  ∧ ∀ (s : State) (l : Nat), l < 18 → Ends (.errlnkWrite l) s (fun s' =>
    vget s'.links l = { vget s.links l with unc := 0, cor := 0 } ∧ ∀ x : Nat, x ≠ l → vget s'.links x = vget s.links x)


/-- R22, R25, R123, R324, R382, R428, R429, R434, R444, R445, R448, R451, R469, R477, R482, R497, R498, R504, R505, R508, R509: a register of the
function's block holds the fields written to it; a privileged write reaches a tile's store; the low half of a counter is answered
and its high half latched; CXL.mem reads and writes a line, decrypted and
encrypted; what comes on an insecure stream is dropped; a host read's completion lands the host's bytes of the read's moment, or waits
in its transport while the landing buffer is full; contributions wait for the folio, where a link to their package brings them; the service
commands retire, restore and retrain what they name. (The model's choices and readings: the link's stream is number 64, log 8; a full landing
buffer, log 63; what lifts a queue's failed search, log 77; a restore outside the defect map, log 85; the bytes of an idle tile, log 90.) -/
def Obligations.HostAccessComplete : Prop :=
  (∀ (s : State) (f off : Nat) (l : List (Nat × Nat)) (v : BitVec 64), f < 64 →
    (off, l) ∈ [(0x00, [(14, 34), (0, 1)]), (0x08, [(16, 48)]), (0x10, [(6, 58), (0, 4)]), (0x48, [(6, 58)]),
      (0x80, [(6, 58), (0, 4)]), (0x90, [(0, 2)]), (0xC8, [(6, 58)]), (0xD0, [(6, 58)])] →
    (s.insecure f = true → exec (.registerWrite f (0x500000 + off) (some v)) s = .next s)
    ∧ Ends (.registerWrite f (0x500000 + off) none) s (fun s' => s'.funcs = s.funcs ∧ (f, true) ∉ s'.trust.ide)
    ∧ (s.insecure f = false → Ends (.registerWrite f (0x500000 + off) (some v)) s (fun s' =>
      s'.readReg f (0x500000 + off) = (l.map fun x => v.toNat / 2 ^ x.1 % 2 ^ x.2 * 2 ^ x.1).sum
      ∧ (∀ g < 64, g ≠ f → s'.func g = s.func g) ∧ s'.folios = s.folios ∧ s'.hostMem = s.hostMem ∧ s'.dram = s.dram)))
  ∧ (∀ (s : State) (addr : BitVec 48) (px py off n : Nat) (v : BitVec 64), mapAddr addr.toNat = some (px, py, off) → n ∈ [1, 2, 4, 8] →
    px < 72 → mapStore off n = 1 → (px, py) ∉ s.dev.defects →
    (s.holder px py = none → Ends (.privilegedOnChipMapWrite addr n v) s (fun s' =>
      s'.idleMem (px, py) = (s.idleMem (px, py)).writeN off n v.toNat ∧ s'.folios = s.folios))
    ∧ ∀ (f : Folio) (i : Nat), s.holder px py = some (f, i) →
      exec (.privilegedOnChipMapWrite addr n v) s = .next (s.setFolio (f.onTile i fun t => t.store off n v.toNat)))
  ∧ (∀ (s : State) (func n m : Nat) (f : Folio), s.folio? n = some f → func = 0 ∨ func = f.place.func →
    Ends (.profcntLowRead func n m) s (fun s' => s'.dev.reply = (f.profCounter m).toNat % 2 ^ 32
      ∧ s'.dev.latched.find? (fun x => x.1 == func && x.2.1 == n && x.2.2.1 == m) = some (func, n, m, (f.profCounter m).toNat / 2 ^ 32)
      ∧ (n < 2304 → m < 8 → s'.readReg32 func (0x900000 + 128 * n + 0x44 + 8 * m) = (f.profCounter m).toNat / 2 ^ 32)
      ∧ s'.folios = s.folios))
  ∧ (∀ (s : State) (a : BitVec 64) (pa : Nat), s.hdm a = some pa →
    let p : Nat := pa / 64 * 64
    (s.cxlReaches pa = true → s.soundLine p → exec (.cxlMemRead a) s = .next { s with dev :=
      { s.dev with reply := s.plain p, replyPoison := false } })
    ∧ (s.cxlReaches pa = false → exec (.cxlMemRead a) s = .next { s with dev := { s.dev with reply := 0, replyPoison := false } }
      ∧ ∀ (e : BitVec 64) (d : BitVec 512), exec (.cxlMemWrite a e d false) s = .next s)
    ∧ (s.cxlReaches pa = true → s.unguarded p → s.insecure 64 = false → ∀ d : BitVec 512,
      Ends (.cxlMemWrite a (BitVec.allOnes 64) d false) s (fun s' => s'.plain p = d.toNat
        ∧ chanLine pa ∉ (vget s'.dram.chans (chanNum pa)).poison ∧ (∀ x, x / 64 ≠ p / 64 → s'.cipher x = s.cipher x)
        ∧ s'.folios = s.folios)
      ∧ ∀ e : BitVec 64, e ≠ 0 → e ≠ BitVec.allOnes 64 → s.soundLine p →
        Ends (.cxlMemWrite a e d false) s (fun s' => s'.plain p = mixBytes 64 e.toNat d.toNat (s.plain p) % 2 ^ 512))
    ∧ (s.insecure 64 = true → ∀ (e : BitVec 64) (d : BitVec 512), exec (.cxlMemWrite a e d false) s = .next s)
    ∧ ∀ (e : BitVec 64) (d : BitVec 512), Ends (.cxlMemWrite a e d true) s (fun s' => s'.dram = s.dram ∧ (64, true) ∉ s'.trust.ide
      ∧ s'.dev.errlog.length = s.dev.errlog.length + 1))
  ∧ (∀ (s : State) (r : HostRead) (id v : Nat) (d : BitVec 512), s.hostReads = [r] → r.id = id → r.got = none → r.data = some v →
    let fn : Nat := ((s.folio? r.folio).map fun g => g.place.func).getD 0
    (∀ g : Folio, s.folio? r.folio = some g → s.fullFor g (toRead id) = false) →
    (∀ (m : BitVec 8) (e : Bool), s.insecure fn = false → Ends (.hostCompletionArrival id m e false) s (fun s' =>
      s'.hostReads = [{ r with got := some (v, if e then 0xFF else m.toNat) }] ∧ s'.folios = s.folios
      ∧ s'.dev.errlog.length = s.dev.errlog.length + if e then 1 else 0))
    ∧ (∀ (m : BitVec 8) (e : Bool), Ends (.hostCompletionArrival id m e true) s (fun s' => s'.hostReads = s.hostReads ∧ (fn, true) ∉ s'.trust.ide))
    ∧ Ends (.externalResultArrival id d 0) s (fun s' => s'.hostReads = [{ r with got := some (v, 0) }] ∧ s'.far = s.far))
  ∧ (∀ (s : State) (r : HostRead) (id : Nat) (g : Folio) (m : BitVec 8) (e : Bool), s.hostReads = [r] → r.id = id → r.got = none → r.data.isSome = true →
    s.folio? r.folio = some g → s.insecure g.place.func = false → s.fullFor g (toRead id) = true →
    exec (.hostCompletionArrival id m e false) s = .next { s with inputs := s.inputs ++ [⟨.hostCompletionArrival id m e false, true⟩] })
  ∧ (∀ (s : State) (f : Folio) (id : Nat) (d : BitVec 512) (p : BitVec 8), s.folio? (farFolio id) = some f → (∀ x ∈ s.far, x.id ≠ id) →
    s.hostReads = [] → s.fullFor f (toMember id) = false →
    (s.linksTo f (farPkg id) ≠ [] →
      Ends (.externalResultArrival id d p) s (fun s' => s'.far = s.far ++ [⟨id, d.toNat, p.toNat⟩] ∧ s'.folios = s.folios))
    ∧ (s.linksTo f (farPkg id) = [] → exec (.externalResultArrival id d p) s = .next s)
    ∧ ∀ n < 18, let k : Link := vget s.links n
      (k.state = 2 → k.v = true → k.func = f.place.func → k.job = f.launch.job → k.peer.toNat = farPkg id →
        Ends (.giferFlitReceive n .clean id d) s (fun s' => s'.far = s.far ++ [⟨id, d.toNat, 0⟩] ∧ s'.links = s.links)
        ∧ Ends (.giferFlitReceive n .lost id d) s (fun s' => s'.far = s.far ++ [⟨id, d.toNat, 0xFF⟩]
          ∧ (vget s'.links n).unc = min (k.unc + 1) 0xFFFFFFFF))
      ∧ (k.peer.toNat ≠ farPkg id → exec (.giferFlitReceive n .clean id d) s = .next s)
      ∧ ∀ o : FlitOutcome, k.state ≠ 2 → exec (.giferFlitReceive n o id d) s = .next s)
  ∧ (∀ (s : State) (n : Nat), (n ≤ 64 → Ends (.ideKmKeyProgram n true) s (fun s' => (n, true) ∈ s'.trust.ide ∧ (n, false) ∉ s'.trust.ide
      ∧ ∀ x ∈ s.trust.ide, x.1 ≠ n → x ∈ s'.trust.ide))
    ∧ exec (.ideKmKeyProgram n false) s = .next s)
  ∧ (∀ s : State, s.dev.svcstat = 1 →
    let t : Nat × Nat := (s.dev.svccmd.toNat / 2 ^ 8 % 2 ^ 7, s.dev.svccmd.toNat % 2 ^ 5)
    let ch : Nat := s.dev.svccmd.toNat % 2 ^ 8
    let l : Nat := s.dev.svccmd.toNat % 2 ^ 5
    (t.1 < 72 → (∀ r ∈ s.footprints, r.has t = false) →
      Ends .retireTile s (fun s' => t ∈ s'.dev.retired ∧ s'.dev.svcstat = 2 ∧ s'.folios = s.folios))
    ∧ (t.1 < 72 → (∃ r ∈ s.footprints, r.has t = true) → exec .retireTile s = .next s)
    ∧ (t ∈ s.dev.defects → Ends .restoreTile s (fun s' => s'.dev.svcstat = 3 ∧ s'.dev.retired = s.dev.retired))
    ∧ (t ∉ s.dev.defects → Ends .restoreTile s (fun s' => s'.dev.svcstat = 2 ∧ t ∉ s'.dev.retired ∧ s'.arb.failed = []))
    ∧ Ends .retireChannel s (fun s' => s'.dev.svcstat = (if (vget s.dram.chans ch).v then 3 else 2)
      ∧ (vget s'.dram.chans ch).ret = ((vget s.dram.chans ch).ret || !(vget s.dram.chans ch).v))
    ∧ (l < 18 → s.linkHeld l = false →
      ((vget s.links l).state ≠ 3 → Ends .retrainGiferLink s (fun s' =>
        ((s'.dev.svcstat = 2 ∧ (vget s'.links l).state = 2) ∨ (s'.dev.svcstat = 4 ∧ (vget s'.links l).state = 3))
        ∧ (vget s'.links l).pad = (vget s.links l).pad))
      ∧ Ends .retireGiferLink s (fun s' => s'.dev.svcstat = 2 ∧ (vget s'.links l).state = 3)))
  ∧ ∀ (s : State) (l : Nat), l < 18 → Ends (.giferLinkDown l) s (fun s' =>
    (vget s'.links l).state = (if (vget s.links l).state = 3 then 3 else 0) ∧ ∀ x : Nat, x ≠ l → vget s'.links x = vget s.links x)


/-- R482 to R486, R488 to R490, R492, R493, R496: a debug stop freezes the folio at its cycle and changes no store but the drain area, and the
resume clears that and lets the folio run; break points arm and disarm; a stop at a cycle is set or refused; capture triggers and ends (that a
stopped folio keeps reading as stopped is the model's choice, log 100); a snapshot latches every tile; a checkpoint starts or is refused, arms,
disarms, aborts, saves its folios at its snapshot point, copies a line and ends a shard (the layout of the saved bytes is the model's choice, log
9). -/
def Obligations.DebugAndCheckpointComplete : Prop :=
  (∀ (s : State) (f : Folio), s.folio? s.cursor.folio = some f →
    let i : Nat := s.cursor.folio
    let stopped (src : Nat) (s' : State) : Prop := ∃ f' : Folio, s'.folio? i = some f' ∧ f'.freeze.debug = true ∧ f'.dbg.state = 2
      ∧ f'.dbg.source = src ∧ f'.cycle = f.cycle ∧ f'.tiles.length = f.tiles.length
      ∧ ∀ (j : Nat) (t : Tile), f.tiles[j]? = some t → ∃ t' : Tile, f'.tiles[j]? = some t' ∧ t'.slices = t.slices ∧ t'.ctl = t.ctl
        ∧ t'.pend = t.pend ∧ t'.csr = t.csr ∧ ∀ a : Nat, a < 0xF8000 ∨ 0x100000 ≤ a → t'.byte a = t.byte a
    (f.freeze.debug = false → Ends .debugStop s (stopped (f.dbg.stopReq.getD 1)))
    ∧ Ends .debugCycleReached s (stopped 2)
    ∧ (f.freeze.debug = true → Ends .debugResume s (fun s' => ∃ f' : Folio, s'.folio? i = some f' ∧ f'.freeze.debug = false
      ∧ f'.dbg.state = (if f.dbg.stopAt.isSome then 1 else 0) ∧ f'.cycle = f.cycle ∧ s'.hostMem = s.hostMem
      ∧ ∀ (j : Nat) (t : Tile), f.tiles[j]? = some t → ∃ t' : Tile, f'.tiles[j]? = some t' ∧ t'.slices = t.slices ∧ t'.ctl = t.ctl
        ∧ (∀ a : Nat, 0xF8000 ≤ a → a < 0x100000 → t'.byte a = 0) ∧ ∀ a : Nat, a < 0xF8000 ∨ 0x100000 ≤ a → t'.byte a = t.byte a))
    ∧ Ends .armBrk s (fun s' => s'.folio? i = some { f with dbg := { f.dbg with brkArmed := true } })
    ∧ Ends .disarmBrk s (fun s' => s'.folio? i = some { f with dbg := { f.dbg with brkArmed := false } })
    ∧ Ends .debugStopAtCycle s (fun s' => s'.folio? i = some { f with dbg :=
      { f.dbg with
        stopAt := if s.dev.dbgcyc.toNat < f.cycle then f.dbg.stopAt else some s.dev.dbgcyc.toNat
        state := if f.freeze.debug then f.dbg.state else if s.dev.dbgcyc.toNat < f.cycle then 3 else 1 } })
    ∧ Ends .snapshotFolio s (fun s' => (∀ (j : Nat) (t : Tile), f.tiles[j]? = some t → (i, j, t.prof) ∈ s'.dev.snaps)
      ∧ (∀ x ∈ s.dev.snaps, x.1 ≠ i → x ∈ s'.dev.snaps) ∧ s'.folios = s.folios)
    ∧ Ends .traceCaptureEnd s (fun s' => s'.folio? i = some { f with cap := { f.cap with done := true } })
    ∧ (f.cap.tracing = true → f.cap.left = none → Ends (.traceTriggerNow i) s (fun s' =>
      s'.folio? i = some { f with cap := { f.cap with left := some (f.cap.trtrig.toNat / 2 ^ 32), trigAt := f.cycle } })))
  ∧ (∀ s : State, (s.folios.map fun f => f.place.idx).Nodup → Ends .snapshotPackage s (fun s' =>
    ∀ f ∈ s.folios, ∀ (j : Nat) (t : Tile), f.tiles[j]? = some t → (f.place.idx, j, t.prof) ∈ s'.dev.snaps))
  ∧ ∀ s : State, s.cursor.func < 64 →
    let fn : Nat := s.cursor.func
    let r : FuncRegs := s.func fn
    let job : BitVec 32 := r.ckcmd.extractLsb' 0 32
    Ends .ckptArm s (fun s' => job ∈ (s'.func fn).ckarmed ∧ ∀ j : BitVec 32, j ∈ r.ckarmed → j ∈ (s'.func fn).ckarmed)
    ∧ Ends .ckptDisarm s (fun s' => job ∉ (s'.func fn).ckarmed ∧ ∀ j : BitVec 32, j ∈ r.ckarmed → j ≠ job → j ∈ (s'.func fn).ckarmed)
    ∧ (r.ckstate = 1 ∨ r.ckstate = 2 → Ends .ckptAbort s (fun s' => (s'.func fn).ckstate = 5 ∧ (s'.func fn).ckpt = none ∧ s'.dram = s.dram))
    ∧ (∀ j : BitVec 32, r.ckgo = some j → s.shardList fn = none →
      Ends .ckptStart s (fun s' => (s'.func fn).ckstate = 6 ∧ s'.folios = s.folios ∧ s'.hostMem = s.hostMem ∧ s'.dram = s.dram))
    ∧ (∀ (j : BitVec 32) (l : Nat × Nat × List (Nat × Nat × Nat)) (g : List Seg), r.ckgo = some j → s.shardList fn = some l →
      let s₁ : State := s.onFunc fn fun r => { r with ckgo := none }
      s₁.allRuns fn l.2.2 0 = (some g, s₁) →
      (∀ x ∈ g, ∀ h ∈ s.folios, h.place.func = fn → h.launch.job = j → ∀ p ∈ h.place.chans, p.2 ≠ chanNum x.dst) →
      Ends .ckptStart s (fun s' => (s'.func fn).ckstate = 1
        ∧ (s'.func fn).ckpt.map (fun (k : Ckpt) => (k.job, k.shards, k.segs, k.shard, k.line)) = some (j, l.2.2, g, 0, 0)
        ∧ s'.folios.length = s.folios.length ∧ ∀ (n : Nat) (h : Folio), s.folios[n]? = some h →
          s'.folios[n]? = some (if h.place.func = fn ∧ h.launch.job = j ∧ h.trapped = false ∧ h.held = false then
            { h with ckStop := true } else h)))
    ∧ (∀ (k : Ckpt) (g : Folio), r.ckpt = some k → r.ckstate = 1 → s.ckFolios fn k.job = [g] → g.atPoint = true → g.stops = [] →
      g.held = false → (∀ h ∈ s.folios, h.place.idx = g.place.idx → h = g) →
      let u : State := s.saveFolio g (r.cksave.toNat / 64 * 64)
      u.funcs = s.funcs → u.folios = s.folios →
      Ends .ckptSnapshot s (fun s' => (s'.func fn).ckstate = 2 ∧ s'.hostMem = u.hostMem ∧ s'.dram = u.dram
        ∧ (s'.func fn).ckpt.map (fun (k : Ckpt) => (k.folios, k.saveDigest)) = some (1, toBytes 64 (shake256 g.region.1 g.region.2))
        ∧ s'.folio? g.place.idx = some { g with ckStop := false, freeze := { g.freeze with preempt := false } }))
    ∧ ∀ k : Ckpt, r.ckpt = some k → r.ckstate = 2 →
      let here (g : Seg) : Bool := g.shard == k.shard && decide (g.base ≤ k.line) && decide (k.line < g.base + g.len / 64)
      (k.segs.find? here = none → k.shard + 1 < k.shards.length → Ends .ckptCopyLine s (fun s' =>
        (s'.func fn).ckdone = k.shard + 1 ∧ (s'.func fn).ckpt = some { k with
          digests := k.digests ++ [toBytes 64 (shake256 k.acc (64 * k.line))], shard := k.shard + 1, line := 0, acc := 0 }))
      ∧ ∀ g : Seg, k.segs.find? here = some g →
        let src : Nat := g.src + 64 * (k.line - g.base)
        let dst : Nat := g.dst + 64 * (k.line - g.base)
        let v : Nat := s.plain src
        k.kept.find? (fun x => x.1 == src) = none → s.soundLine src →
        Ends .ckptCopyLine s (fun s' =>
          s'.plain dst = v % 2 ^ 512 ∧ (∀ x, x / 64 ≠ dst / 64 → s'.cipher x = s.cipher x)
          ∧ (s'.func fn).ckpt = some { k with line := k.line + 1, acc := k.acc + v * 2 ^ (512 * k.line) } ∧ s'.folios = s.folios)


/-- R426, R429, R449, R451 to R453, R507, R511, R513, R515: Signet answers evidence, imports and makes keys and gives its chain, or
refuses; firmware is staged and activated; bring-up enters its next state or fails; droop and heat lower the clock, which rises step by
step; loss of power empties the machine; a function's reset ends its folios, its leases and its queues and makes it new keys. (The bytes of the
what a loss of power keeps log 89.) -/
def Obligations.TrustAndDeviceComplete : Prop :=
  (∀ s : State, s.cursor.func < 64 →
    let f : Nat := s.cursor.func
    let r : FuncRegs := s.func f
    let a : Nat := r.sgnbuf.toNat / 64 * 64
    (s.jobOf f r.sgnJob = none → Ends .signetEvidence s (fun s' => (s'.func f).sgnstat = 4 ∧ s'.hostMem = s.hostMem)
      ∧ Ends .signetImportKey s (fun s' => (s'.func f).sgnstat = 4 ∧ (s'.func f).keys = r.keys))
    ∧ (∀ j : Job, s.jobOf f r.sgnJob = some j →
      let v : Nat := s.evidence f j (s.hostMem.readN a 32)
      Ends .signetEvidence s (fun s' => (s'.func f).sgnstat = 2 ∧ 3 ∈ (s'.func f).pending ∧ s'.hostMem = s.hostMem.writeN a 1536
        (v + ofBytes ((Config.falconSign s.trust.aliasId (toBytes 256 v)).take 1280) * 2 ^ 2048))
      ∧ (field (s.hostMem.readN a 128) 0 4 = j.job.toNat → field (s.hostMem.readN a 128) 8 8 = j.gen → r.slotFree = true →
        (∀ key, Config.importedKey (toBytes 112 (field (s.hostMem.readN a 128) 16 112)) = some key →
          Ends .signetImportKey s (fun s' => (s'.func f).sgnstat = 2 ∧ vget (s'.func f).keys r.sgnSlot = KeySlot.of key
            ∧ (∀ i : Nat, i ≠ r.sgnSlot → vget (s'.func f).keys i = vget r.keys i) ∧ (s'.func f).keycur = r.keycur))
        ∧ (Config.importedKey (toBytes 112 (field (s.hostMem.readN a 128) 16 112)) = none →
          Ends .signetImportKey s (fun s' => (s'.func f).sgnstat = 3 ∧ (s'.func f).keys = r.keys)))
      ∧ (r.slotFree = false ∨ field (s.hostMem.readN a 128) 8 8 ≠ j.gen →
        Ends .signetImportKey s (fun s' => (s'.func f).sgnstat = 3 ∧ (s'.func f).keys = r.keys)))
    ∧ (r.slotFree = true → Ends .signetGenerateKey s (fun s' => (s'.func f).sgnstat = 2
      ∧ (vget (s'.func f).keys r.sgnSlot).loaded = true ∧ ∀ i : Nat, i ≠ r.sgnSlot → vget (s'.func f).keys i = vget r.keys i))
    ∧ (r.slotFree = false → Ends .signetGenerateKey s (fun s' => (s'.func f).sgnstat = 3 ∧ (s'.func f).keys = r.keys))
    ∧ Ends .signetReadCertChain s (fun s' => (s'.func f).sgnstat = 2 ∧ s'.hostMem =
      s.hostMem.writeN a (Config.certChain s.trust.aliasId).length (ofBytes (Config.certChain s.trust.aliasId))))
  ∧ (∀ s : State,
    let img : List Byte := s.hostMem.bytes (s.trust.fwcmd.toNat / 2 ^ 6 % 2 ^ 54 * 64) Config.firmwareBytes
    let v : BitVec 32 := Config.firmwareVersion img
    Ends .fwStage s (fun s' => s'.trust.firmware = s.trust.firmware ∧ s'.folios = s.folios
      ∧ (Config.firmwareSigned img = false ∨ v.toNat < s.trust.rollback.toNat → s'.trust.fwstate = 3 ∧ s'.trust.staged = s.trust.staged)
      ∧ (Config.firmwareSigned img = true → s.trust.rollback.toNat ≤ v.toNat →
        s'.trust.fwstate = 2 ∧ s'.trust.staged = some img ∧ s'.trust.fwverStaged = v))
    ∧ Ends .fwActivate s (fun s' => s'.folios = s.folios
      ∧ (s.trust.staged = none → s'.trust = { s.trust with fwstate := 3, activating := none })
      ∧ (s.trust.staged.isSome = true → s.fwWaits = true → s' = s)
      ∧ ∀ x : List Byte, s.trust.staged = some x → s.fwWaits = false → s'.trust.firmware = x ∧ s'.trust.fwver = s.trust.fwverStaged
        ∧ s'.trust.rollback = s.trust.fwverStaged ∧ s'.trust.staged = none ∧ s'.trust.fwstate = 4))
  ∧ (∀ s : State, s.dev.devstate < 5 →
    (s.dev.devstate = 0 → Config.firmwareSigned Config.bootFirmware = false →
      Ends (.bringUp true) s (fun s' => s'.dev.devstate = 7 ∧ s'.dev.code = 1))
    ∧ (s.dev.devstate ≠ 0 ∨ Config.firmwareSigned Config.bootFirmware = true →
      Ends (.bringUp true) s (fun s' => s'.dev.devstate = s.dev.devstate + 1
      ∧ (s.dev.devstate = 1 → ∀ ch < 256, ∀ l < 0x1800000, (vget s'.dram.chans ch).pendingClear l = true)
      ∧ (s.dev.devstate = 4 → ∀ f < 64, (s'.func f).keycur = 0 ∧ (s'.func f).keyarmed = false ∧ (s'.func f).keybusy = false
        ∧ (vget (s'.func f).keys 0).loaded = true ∧ ∀ i < 3, (vget (s'.func f).keys (i + 1)).loaded = false)
      ∧ (s.dev.devstate = 4 → ∀ l < 18, (vget s'.links l).state = if (vget s.links l).lm ≤ 2048 then 2 else 3)))
    ∧ Ends (.bringUp false) s (fun s' => s'.dev.devstate = 7 ∧ s'.dev.code = s.dev.devstate + 1))
  ∧ (∀ (s : State) (n : Nat), s.dev.steps ≤ 8 →
    Ends (.supplyDroop (n + 1)) s (fun s' => s'.dev.steps = min 8 (s.dev.steps + (n + 1)) ∧ s'.dev.droop = true
      ∧ s'.dev.slows = s.dev.slows + 1 ∧ 900 ≤ s'.dev.mhz ∧ s'.folios = s.folios)
    ∧ Ends (.supplyDroop 0) s (fun s' => s'.dev.steps = s.dev.steps ∧ s'.dev.droop = false)
    ∧ (∀ k < 8, Ends (.stackTemperatureRefreshDemand k true) s (fun s' => s'.dev.steps = min 8 (s.dev.steps + 1) ∧ k ∈ s'.dev.hot
        ∧ 900 ≤ s'.dev.mhz)
      ∧ Ends (.stackTemperatureRefreshDemand k false) s (fun s' => s'.dev.steps = s.dev.steps ∧ k ∉ s'.dev.hot))
    ∧ (0 < s.dev.steps → s.dev.droop = false → s.dev.hot = [] →
      Ends .clockStepUp s (fun s' => s'.dev.steps = s.dev.steps - 1 ∧ s'.folios = s.folios)))
  ∧ (∀ s : State, Ends .perstAssertion s (fun s' => s'.folios = [] ∧ s'.saved = [] ∧ s'.dram = State.reset.dram ∧ s'.queues = []
    ∧ s'.dev = State.reset.dev ∧ s'.funcs = State.reset.funcs ∧ s'.hostMem = s.hostMem ∧ s'.trust.rollback = s.trust.rollback))
  ∧ ∀ (s : State) (f : Nat), 0 < f → f < 64 → Ends (.vfReset f) s (fun s' =>
    (∀ g ∈ s'.folios, g.place.func ≠ f) ∧ (∀ ch < 256, (vget s'.dram.chans ch).v = true → (vget s'.dram.chans ch).func ≠ f)
    ∧ (∀ x ∈ s'.queues, x.owner = f → x = { LaunchQueue.zero x.q f with epoch := x.epoch }) ∧ s'.saved = s.saved ∧ s'.releasing = []
    ∧ (s'.func f).keycur = 0 ∧ (s'.func f).keyarmed = false ∧ (vget (s'.func f).keys 0).loaded = true
    ∧ (∀ i < 3, (vget (s'.func f).keys (i + 1)).loaded = false)
    ∧ ∀ g ∈ s.folios, g.place.func ≠ f → (∀ h ∈ s.folios, h.place.func = f → h.place.idx ≠ g.place.idx) → g ∈ s'.folios)
end

