-- ==== Sys2Proof/Laws/Decode.lean ====
section
/-! SUPPORT. The long formats read back what their words were made of (R58-R65), and every word of a long format begins a 64-bit
instruction (R47). -/

namespace Sys2Proof

set_option linter.unusedSimpArgs false

/-- A field above the low part of two joined words is a field of the high part. -/
theorem hi_append {n m k : Nat} (x : BitVec n) (y : BitVec m) (lo : Nat) (h : m ≤ lo) :
    (x ++ y).extractLsb' lo k = x.extractLsb' (lo - m) k := by
  ext i hi
  simp only [BitVec.getElem_extractLsb', BitVec.getLsbD_append]
  rw [if_neg (by omega)]
  congr 1; omega

/-- A field inside the low part of two joined words is a field of the low part. -/
theorem lo_append {n m k : Nat} (x : BitVec n) (y : BitVec m) (lo : Nat) (h : lo + k ≤ m) :
    (x ++ y).extractLsb' lo k = y.extractLsb' lo k := by
  ext i hi
  simp only [BitVec.getElem_extractLsb', BitVec.getLsbD_append]
  rw [if_pos (by omega)]

/-- All of a word. -/
theorem whole {k : Nat} (x : BitVec k) : x.extractLsb' 0 k = x := by
  ext i hi
  simp only [BitVec.getElem_extractLsb', Nat.zero_add, BitVec.getLsbD_eq_getElem hi]

/-- A bit of two joined words. -/
theorem bit_append_hi {n m : Nat} (x : BitVec n) (y : BitVec m) (i : Nat) (h : m ≤ i) : (x ++ y).getLsbD i = x.getLsbD (i - m) := by
  rw [BitVec.getLsbD_append, if_neg (by omega)]

theorem bit_append_lo {n m : Nat} (x : BitVec n) (y : BitVec m) (i : Nat) (h : i < m) : (x ++ y).getLsbD i = y.getLsbD i := by
  rw [BitVec.getLsbD_append, if_pos h]

/-- The two parts of a word joined again. -/
theorem join {a b : Nat} (x : BitVec (a + b)) : x.extractLsb' b a ++ x.extractLsb' 0 b = x := by
  ext i hi
  simp only [BitVec.getElem_append]
  split
  · simp [BitVec.getLsbD_eq_getElem hi, BitVec.getElem_extractLsb']
  · simp only [BitVec.getElem_extractLsb']
    rw [show b + (i - b) = i by omega, BitVec.getLsbD_eq_getElem hi]

/-- The one bit of a flag. -/
theorem bit_ofBool (b : Bool) : (BitVec.ofBool b).getLsbD 0 = b := by cases b <;> rfl
theorem long3_enc3 (maj : BitVec 7) (fn : BitVec 5) (o : Long3) : long3 (enc3 maj fn o).1 (enc3 maj fn o).2 = o := by
  cases o
  simp only [long3, fld, enc3, Long3.mk.injEq]
  refine ⟨?_, ?_, ?_, ?_, ?_, ?_, ?_, ?_, ?_⟩
  all_goals simp (disch := omega) only [lo_append, hi_append, bit_append_lo, bit_append_hi, Nat.sub_self, whole, bit_ofBool, Nat.reduceSub]
  exact @join 4 8 _

theorem longImm_encI (fn : BitVec 5) (o : LongImm) : longImm (encI fn o).1 (encI fn o).2 = o := by
  cases o
  simp only [longImm, fld, encI, LongImm.mk.injEq]
  refine ⟨?_, ?_, ?_, ?_, ?_⟩
  all_goals simp (disch := omega) only [lo_append, hi_append, bit_append_lo, bit_append_hi, Nat.sub_self, whole, bit_ofBool, Nat.reduceSub]

theorem longCmp_encC (fn : BitVec 5) (c : BitVec 4) (o : LongCmp) : longCmp (encC fn c o).1 (encC fn c o).2 = o := by
  cases o
  simp only [longCmp, fld, encC, LongCmp.mk.injEq]
  refine ⟨?_, ?_, ?_, ?_, ?_, ?_, ?_, ?_⟩
  all_goals simp (disch := omega) only [lo_append, hi_append, bit_append_lo, bit_append_hi, Nat.sub_self, whole, bit_ofBool, Nat.reduceSub]
  exact @join 4 8 _

theorem longSel_encS (o : LongSel) : longSel (encS o).1 (encS o).2 = o := by
  cases o
  simp only [longSel, fld, encS, LongSel.mk.injEq]
  refine ⟨?_, ?_, ?_, ?_, ?_, ?_, ?_, ?_, ?_, ?_⟩
  all_goals simp (disch := omega) only [lo_append, hi_append, bit_append_lo, bit_append_hi, Nat.sub_self, whole, bit_ofBool, Nat.reduceSub]
  exact @join 4 8 _

theorem longVec_encV (maj : BitVec 7) (fn : BitVec 5) (o : LongVec) : longVec (encV maj fn o).1 (encV maj fn o).2 = o := by
  cases o
  simp only [longVec, fld, encV, LongVec.mk.injEq]
  refine ⟨?_, ?_, ?_, ?_, ?_, ?_, ?_, ?_, ?_⟩
  all_goals simp (disch := omega) only [lo_append, hi_append, bit_append_lo, bit_append_hi, Nat.sub_self, whole, bit_ofBool, Nat.reduceSub]
  exact @join 2 2 _

theorem longMem_encM (maj : BitVec 7) (fn : BitVec 5) (o : LongMem) : longMem (encM maj fn o).1 (encM maj fn o).2 = o := by
  cases o
  simp only [longMem, fld, encM, LongMem.mk.injEq]
  refine ⟨?_, ?_, ?_, ?_, ?_, ?_, ?_, ?_⟩
  all_goals simp (disch := omega) only [lo_append, hi_append, bit_append_lo, bit_append_hi, Nat.sub_self, whole, bit_ofBool, Nat.reduceSub]

theorem mat_encA (fn : BitVec 5) (o : Mat) : mat (encA fn o).1 (encA fn o).2 = o := by
  cases o
  simp only [mat, fld, encA, Mat.mk.injEq]
  refine ⟨?_, ?_, ?_, ?_, ?_, ?_, ?_, ?_⟩
  all_goals simp (disch := omega) only [lo_append, hi_append, bit_append_lo, bit_append_hi, Nat.sub_self, whole, bit_ofBool, Nat.reduceSub]

theorem copyOp_encX (fn : BitVec 5) (o : CopyOp) : copyOp (encX fn o).1 (encX fn o).2 = o := by
  cases o
  simp only [copyOp, fld, encX, CopyOp.mk.injEq]
  refine ⟨?_, ?_, ?_, ?_, ?_, ?_⟩
  all_goals simp (disch := omega) only [lo_append, hi_append, bit_append_lo, bit_append_hi, Nat.sub_self, whole, bit_ofBool, Nat.reduceSub]

theorem netSend_encN (o : NetSend) : netSend (encN o).1 (encN o).2 = o := by
  cases o
  simp only [netSend, fld, encN, NetSend.mk.injEq]
  refine ⟨?_, ?_, ?_, ?_, ?_, ?_, ?_⟩
  all_goals simp (disch := omega) only [lo_append, hi_append, bit_append_lo, bit_append_hi, Nat.sub_self, whole, bit_ofBool, Nat.reduceSub]

theorem netSendi_encNi (o : NetSendi) : netSendi (encNi o).1 (encNi o).2 = o := by
  cases o
  simp only [netSendi, fld, encNi, NetSendi.mk.injEq]
  refine ⟨?_, ?_, ?_, ?_, ?_, ?_, ?_⟩
  all_goals simp (disch := omega) only [lo_append, hi_append, bit_append_lo, bit_append_hi, Nat.sub_self, whole, bit_ofBool, Nat.reduceSub]

theorem netRecv_encNr (fn : BitVec 5) (o : NetRecv) : netRecv (encNr fn o).1 (encNr fn o).2 = o := by
  cases o
  simp only [netRecv, fld, encNr, NetRecv.mk.injEq]
  refine ⟨?_, ?_, ?_, ?_, ?_, ?_⟩
  all_goals simp (disch := omega) only [lo_append, hi_append, bit_append_lo, bit_append_hi, Nat.sub_self, whole, bit_ofBool, Nat.reduceSub]

theorem isLong_enc3 (maj : BitVec 7) (fn : BitVec 5) (o : Long3) (h : maj.extractLsb' 5 2 = 3#2) : isLong (enc3 maj fn o).1 = true := by
  simp only [isLong, fld, enc3]
  repeat rw [hi_append _ _ _ (by omega)]
  simp [h]

theorem isLong_encI (fn : BitVec 5) (o : LongImm) : isLong (encI fn o).1 = true := by
  simp only [isLong, fld, encI]
  repeat rw [hi_append _ _ _ (by omega)]
  rfl

theorem isLong_encC (fn : BitVec 5) (c : BitVec 4) (o : LongCmp) : isLong (encC fn c o).1 = true := by
  simp only [isLong, fld, encC]
  repeat rw [hi_append _ _ _ (by omega)]
  rfl

theorem isLong_encS (o : LongSel) : isLong (encS o).1 = true := by
  simp only [isLong, fld, encS]
  repeat rw [hi_append _ _ _ (by omega)]
  rfl

theorem isLong_encV (maj : BitVec 7) (fn : BitVec 5) (o : LongVec) (h : maj.extractLsb' 5 2 = 3#2) : isLong (encV maj fn o).1 = true := by
  simp only [isLong, fld, encV]
  repeat rw [hi_append _ _ _ (by omega)]
  simp [h]

theorem isLong_encM (maj : BitVec 7) (fn : BitVec 5) (o : LongMem) (h : maj.extractLsb' 5 2 = 3#2) : isLong (encM maj fn o).1 = true := by
  simp only [isLong, fld, encM]
  repeat rw [hi_append _ _ _ (by omega)]
  simp [h]

theorem isLong_encA (fn : BitVec 5) (o : Mat) : isLong (encA fn o).1 = true := by
  simp only [isLong, fld, encA]
  repeat rw [hi_append _ _ _ (by omega)]
  rfl

theorem isLong_encX (fn : BitVec 5) (o : CopyOp) : isLong (encX fn o).1 = true := by
  simp only [isLong, fld, encX]
  repeat rw [hi_append _ _ _ (by omega)]
  rfl

theorem isLong_encN (o : NetSend) : isLong (encN o).1 = true := by
  simp only [isLong, fld, encN]
  repeat rw [hi_append _ _ _ (by omega)]
  rfl

theorem isLong_encNi (o : NetSendi) : isLong (encNi o).1 = true := by
  simp only [isLong, fld, encNi]
  repeat rw [hi_append _ _ _ (by omega)]
  rfl

theorem isLong_encNr (fn : BitVec 5) (o : NetRecv) : isLong (encNr fn o).1 = true := by
  simp only [isLong, fld, encNr]
  repeat rw [hi_append _ _ _ (by omega)]
  rfl

end Sys2Proof
end

