-- ==== Sys2Proof/Laws/Memory.lean ====
section
/-! SUPPORT. What a memory operation does: it keeps the canonical form, a read of a stored byte gives that byte, and
every other byte reads as before. -/

namespace Sys2Proof.Machine

theorem bytesOf_bounds (a n v : Nat) : ∀ c ∈ bytesOf a n v, a ≤ c.1 ∧ c.1 < a + n ∧ c.2 ≠ 0 := by
  induction n generalizing a v with
  | zero => simp [bytesOf]
  | succ n ih =>
    intro c hc
    rw [bytesOf] at hc
    split at hc
    · obtain ⟨h1, h2, h3⟩ := ih (a + 1) (v / 256) c hc
      exact ⟨by omega, by omega, h3⟩
    · rename_i hv
      rcases List.mem_cons.1 hc with rfl | hc
      · refine ⟨Nat.le_refl _, by simp, fun h => hv ?_⟩
        have := congrArg BitVec.toNat h
        simpa using this
      · obtain ⟨h1, h2, h3⟩ := ih (a + 1) (v / 256) c hc
        exact ⟨by omega, by omega, h3⟩

theorem bytesOf_sorted (a n v : Nat) : (bytesOf a n v).Pairwise (fun x y => x.1 < y.1) := by
  induction n generalizing a v with
  | zero => simp [bytesOf]
  | succ n ih =>
    rw [bytesOf]
    split
    · exact ih _ _
    · refine List.pairwise_cons.2 ⟨fun c hc => ?_, ih _ _⟩
      have := bytesOf_bounds _ _ _ c hc
      simp; omega

theorem Memory.writeN_wf {m : Memory} (h : m.wf) (a n v : Nat) : (m.writeN a n v).wf := by
  obtain ⟨hs, hz⟩ := h
  refine ⟨?_, fun c hc => ?_⟩
  · rw [Memory.writeN, List.pairwise_append, List.pairwise_append]
    refine ⟨⟨hs.filter _, bytesOf_sorted a n v, fun x hx y hy => ?_⟩, hs.filter _, fun x hx y hy => ?_⟩
    · have h1 := (List.mem_filter.1 hx).2
      have h2 := bytesOf_bounds a n v y hy
      simp at h1; omega
    · have h2 := (List.mem_filter.1 hy).2
      simp at h2
      rcases List.mem_append.1 hx with hx | hx
      · have h1 := (List.mem_filter.1 hx).2
        simp at h1; omega
      · have h1 := bytesOf_bounds a n v x hx
        omega
  · rcases List.mem_append.1 hc with hc | hc
    · rcases List.mem_append.1 hc with hc | hc
      · exact hz c (List.mem_filter.1 hc).1
      · exact (bytesOf_bounds a n v c hc).2.2
    · exact hz c (List.mem_filter.1 hc).1

theorem Memory.write_wf {m : Memory} (h : m.wf) (a : Nat) (b : Byte) : (m.write a b).wf := Memory.writeN_wf h _ _ _

theorem Memory.writeMask_wf {m : Memory} (h : m.wf) (a n k v : Nat) : (m.writeMask a n k v).wf :=
  Memory.writeN_wf h _ _ _

theorem Memory.clear_wf {m : Memory} (h : m.wf) (a n : Nat) : (m.clear a n).wf :=
  have h' := Memory.writeN_wf h a 0 0
  ⟨h'.1.filter _, fun c hc => h'.2 c (List.mem_filter.1 hc).1⟩

theorem Memory.nil_wf : Memory.wf [] := by simp [Memory.wf]

theorem Memory.read_append (l r : Memory) (a : Nat) (h : ∀ c ∈ l, c.1 ≠ a) :
    Memory.read (l ++ r) a = Memory.read r a := by
  induction l with
  | nil => rfl
  | cons c l ih =>
    rw [List.cons_append, Memory.read, if_neg (h c (by simp)), ih fun d hd => h d (by simp [hd])]

theorem Memory.read_absent (l : Memory) (a : Nat) (h : ∀ c ∈ l, c.1 ≠ a) : Memory.read l a = 0 := by
  simpa [Memory.read] using Memory.read_append l [] a h

theorem Memory.read_filter (m : Memory) (a : Nat) (p : Host.Cell → Bool)
    (h : ∀ b, p (a, b) = true) : Memory.read (m.filter p) a = Memory.read m a := by
  induction m with
  | nil => rfl
  | cons c m ih =>
    obtain ⟨k, b⟩ := c
    by_cases hk : k = a
    · subst hk; simp [List.filter, h, Memory.read]
    · by_cases hp : p (k, b) = true
      · simp [List.filter, hp, Memory.read, hk, ih]
      · simp [List.filter, hp, Memory.read, hk, ih]

/-- A byte outside the stored ones reads as before. -/
theorem Memory.read_writeN_of_outside (m : Memory) (a n v x : Nat) (h : x < a ∨ a + n ≤ x) :
    (m.writeN a n v).read x = m.read x := by
  rw [Memory.writeN, List.append_assoc]
  rcases h with h | h
  · induction m with
    | nil =>
      apply Memory.read_absent
      intro c hc
      simp [Memory.below, Memory.above] at hc
      have := bytesOf_bounds a n v c hc
      omega
    | cons c m ih =>
      obtain ⟨k, b⟩ := c
      by_cases hk : k < a
      · have : ¬ (a + n ≤ k) := by omega
        simp only [Memory.below, Memory.above, List.filter, hk, this, decide_true, decide_false,
          List.cons_append, Memory.read] at ih ⊢
        rw [ih]
      · have hx : k ≠ x := by omega
        by_cases h2 : a + n ≤ k
        · simp only [Memory.below, Memory.above, List.filter, hk, h2, decide_true, decide_false] at ih ⊢
          rw [show Memory.read ((k, b) :: m) x = Memory.read m x by simp [Memory.read, hx], ← ih,
            ← List.append_assoc, ← List.append_assoc]
          have e : ∀ l r : Memory, Memory.read (l ++ (k, b) :: r) x = Memory.read (l ++ r) x := by
            intro l r
            induction l with
            | nil => simp [Memory.read, hx]
            | cons d l ih => simp only [List.cons_append, Memory.read, ih]
          exact e _ _
        · simp only [Memory.below, Memory.above, List.filter, hk, h2, decide_false] at ih ⊢
          rw [ih]; simp [Memory.read, hx]
  · rw [Memory.read_append, Memory.read_append, Memory.above, Memory.read_filter]
    · intro b; simp [h]
    · intro c hc
      have := bytesOf_bounds a n v c hc
      omega
    · intro c hc
      have := (List.mem_filter.1 hc).2
      simp at this; omega

theorem bytesOf_read (a n v x : Nat) (h1 : a ≤ x) (h2 : x < a + n) :
    (bytesOf a n v).read x = BitVec.ofNat 8 (v / 256 ^ (x - a)) := by
  induction n generalizing a v with
  | zero => omega
  | succ n ih =>
    rw [bytesOf]
    by_cases hx : x = a
    · subst hx
      have hr : Memory.read (bytesOf (x + 1) n (v / 256)) x = 0 := by
        apply Memory.read_absent
        intro c hc
        have := bytesOf_bounds _ _ _ c hc
        omega
      split
      · rename_i hv
        rw [hr]
        apply BitVec.eq_of_toNat_eq
        simp [hv]
      · simp [Memory.read]
    · have e : v / 256 ^ (x - a) = (v / 256) / 256 ^ (x - (a + 1)) := by
        rw [Nat.div_div_eq_div_mul, show x - a = x - (a + 1) + 1 by omega, Nat.pow_succ']
      split
      · rw [ih (a + 1) _ (by omega) (by omega), e]
      · rw [Memory.read, if_neg (by simp; omega), ih (a + 1) _ (by omega) (by omega), e]

/-- A stored byte reads as the byte of the stored value. -/
theorem Memory.read_writeN_inside (m : Memory) (a n v x : Nat) (h1 : a ≤ x) (h2 : x < a + n) :
    (m.writeN a n v).read x = BitVec.ofNat 8 (v / 256 ^ (x - a)) := by
  have hb : ∀ c ∈ m.below a, c.1 ≠ x := by
    intro c hc
    have := (List.mem_filter.1 hc).2
    simp at this; omega
  rw [Memory.writeN, List.append_assoc, Memory.read_append _ _ _ hb, ← bytesOf_read a n v x h1 h2]
  have hr : ∀ c ∈ m.above (a + n), c.1 ≠ x := by
    intro c hc
    have := (List.mem_filter.1 hc).2
    simp at this; omega
  generalize bytesOf a n v = l
  induction l with
  | nil => simpa [Memory.read] using Memory.read_absent _ _ hr
  | cons c l ih => simp only [List.cons_append, Memory.read, ih]

/-- Fewer cells of a memory in canonical form are in canonical form. -/
theorem Memory.filter_wf {m : Memory} (h : m.wf) (p : Host.Cell → Bool) : Memory.wf (m.filter p) :=
  ⟨h.1.filter p, fun c hc => h.2 c (List.mem_filter.mp hc).1⟩

theorem bytesOf_sum (b k a n v w : Nat) (h : b ≤ a) (h' : a + n ≤ b + k) :
    (bytesOf a n v).foldl (fun x c => if b ≤ c.1 ∧ c.1 < b + k then x + c.2.toNat <<< (8 * (c.1 - b)) else x) w
      = w + v % 256 ^ n * 256 ^ (a - b) := by
  induction n generalizing a v w with
  | zero => simp [bytesOf, Nat.mod_one]
  | succ n ih =>
    rw [bytesOf]
    have e : v % 256 ^ (n + 1) = v % 256 + 256 * (v / 256 % 256 ^ n) := by rw [pow_succ', Nat.mod_mul]
    have p : (256 : Nat) ^ (a + 1 - b) = 256 * 256 ^ (a - b) := by rw [show a + 1 - b = a - b + 1 by omega, pow_succ']
    split
    · rw [ih _ _ _ (by omega) (by omega), e, p]
      rename_i z
      rw [z]; ring
    · rw [List.foldl_cons, ih _ _ _ (by omega) (by omega), e, p, if_pos (by dsimp; omega)]
      have s : (2 : Nat) ^ (8 * (a - b)) = 256 ^ (a - b) := by rw [pow_mul]; rfl
      simp only [BitVec.toNat_ofNat, Nat.shiftLeft_eq, s]
      ring

theorem foldl_outside (l : Memory) (a n w : Nat) (h : ∀ c ∈ l, ¬(a ≤ c.1 ∧ c.1 < a + n)) :
    l.foldl (fun x c => if a ≤ c.1 ∧ c.1 < a + n then x + c.2.toNat <<< (8 * (c.1 - a)) else x) w = w := by
  induction l generalizing w with
  | nil => rfl
  | cons c l ih => rw [List.foldl_cons, if_neg (h c (by simp)), ih _ fun x hx => h x (by simp [hx])]

/-- A write is read back (R21). -/
theorem Memory.readN_writeN (m : Memory) (a n v : Nat) : (m.writeN a n v).readN a n = v % 256 ^ n := by
  unfold Memory.readN Memory.writeN
  rw [List.foldl_append, List.foldl_append,
    foldl_outside (m.below a) a n 0 (fun c hc => by have := (List.mem_filter.1 hc).2; simp at this; omega),
    bytesOf_sum a n a n v 0 (by omega) (by omega),
    foldl_outside (m.above (a + n)) a n _ (fun c hc => by have := (List.mem_filter.1 hc).2; simp at this; omega)]
  simp

end Sys2Proof.Machine
end

