-- ==== Sys2Proof/Laws/State.lean ====
section
/-! SUPPORT. What each update of the state, of a tile, of a folio and of a tile's control part leaves as it was, field by field; and the
reads of a fixed row of values after a change. -/

namespace Sys2Proof.Machine

@[simp] theorem State.setFolio_saved (x : State) (f : Folio) : (x.setFolio f).saved = x.saved := rfl
@[simp] theorem State.setFolio_idle (x : State) (f : Folio) : (x.setFolio f).idle = x.idle := rfl
@[simp] theorem State.setFolio_dram (x : State) (f : Folio) : (x.setFolio f).dram = x.dram := rfl
@[simp] theorem State.setFolio_hostMem (x : State) (f : Folio) : (x.setFolio f).hostMem = x.hostMem := rfl
@[simp] theorem State.setFolio_queues (x : State) (f : Folio) : (x.setFolio f).queues = x.queues := rfl
@[simp] theorem State.setFolio_arb (x : State) (f : Folio) : (x.setFolio f).arb = x.arb := rfl
@[simp] theorem State.setFolio_domains (x : State) (f : Folio) : (x.setFolio f).domains = x.domains := rfl
@[simp] theorem State.setFolio_funcs (x : State) (f : Folio) : (x.setFolio f).funcs = x.funcs := rfl
@[simp] theorem State.setFolio_faults (x : State) (f : Folio) : (x.setFolio f).faults = x.faults := rfl
@[simp] theorem State.setFolio_hostReads (x : State) (f : Folio) : (x.setFolio f).hostReads = x.hostReads := rfl
@[simp] theorem State.setFolio_readCtr (x : State) (f : Folio) : (x.setFolio f).readCtr = x.readCtr := rfl
@[simp] theorem State.setFolio_far (x : State) (f : Folio) : (x.setFolio f).far = x.far := rfl
@[simp] theorem State.setFolio_links (x : State) (f : Folio) : (x.setFolio f).links = x.links := rfl
@[simp] theorem State.setFolio_mig (x : State) (f : Folio) : (x.setFolio f).mig = x.mig := rfl
@[simp] theorem State.setFolio_trust (x : State) (f : Folio) : (x.setFolio f).trust = x.trust := rfl
@[simp] theorem State.setFolio_dev (x : State) (f : Folio) : (x.setFolio f).dev = x.dev := rfl
@[simp] theorem State.setFolio_wall (x : State) (f : Folio) : (x.setFolio f).wall = x.wall := rfl
@[simp] theorem State.setFolio_releasing (x : State) (f : Folio) : (x.setFolio f).releasing = x.releasing := rfl
@[simp] theorem State.setFolio_agenda (x : State) (f : Folio) : (x.setFolio f).agenda = x.agenda := rfl
@[simp] theorem State.setFolio_inputs (x : State) (f : Folio) : (x.setFolio f).inputs = x.inputs := rfl
@[simp] theorem State.setFolio_cursor (x : State) (f : Folio) : (x.setFolio f).cursor = x.cursor := rfl
@[simp] theorem State.setFolio_freeCtr (x : State) (f : Folio) : (x.setFolio f).freeCtr = x.freeCtr := rfl
@[simp] theorem State.onFolio_saved (x : State) (n : Nat) (h : Folio → Folio) : (x.onFolio n h).saved = x.saved := rfl
@[simp] theorem State.onFolio_idle (x : State) (n : Nat) (h : Folio → Folio) : (x.onFolio n h).idle = x.idle := rfl
@[simp] theorem State.onFolio_dram (x : State) (n : Nat) (h : Folio → Folio) : (x.onFolio n h).dram = x.dram := rfl
@[simp] theorem State.onFolio_hostMem (x : State) (n : Nat) (h : Folio → Folio) : (x.onFolio n h).hostMem = x.hostMem := rfl
@[simp] theorem State.onFolio_queues (x : State) (n : Nat) (h : Folio → Folio) : (x.onFolio n h).queues = x.queues := rfl
@[simp] theorem State.onFolio_arb (x : State) (n : Nat) (h : Folio → Folio) : (x.onFolio n h).arb = x.arb := rfl
@[simp] theorem State.onFolio_domains (x : State) (n : Nat) (h : Folio → Folio) : (x.onFolio n h).domains = x.domains := rfl
@[simp] theorem State.onFolio_funcs (x : State) (n : Nat) (h : Folio → Folio) : (x.onFolio n h).funcs = x.funcs := rfl
@[simp] theorem State.onFolio_faults (x : State) (n : Nat) (h : Folio → Folio) : (x.onFolio n h).faults = x.faults := rfl
@[simp] theorem State.onFolio_hostReads (x : State) (n : Nat) (h : Folio → Folio) : (x.onFolio n h).hostReads = x.hostReads := rfl
@[simp] theorem State.onFolio_readCtr (x : State) (n : Nat) (h : Folio → Folio) : (x.onFolio n h).readCtr = x.readCtr := rfl
@[simp] theorem State.onFolio_far (x : State) (n : Nat) (h : Folio → Folio) : (x.onFolio n h).far = x.far := rfl
@[simp] theorem State.onFolio_links (x : State) (n : Nat) (h : Folio → Folio) : (x.onFolio n h).links = x.links := rfl
@[simp] theorem State.onFolio_mig (x : State) (n : Nat) (h : Folio → Folio) : (x.onFolio n h).mig = x.mig := rfl
@[simp] theorem State.onFolio_trust (x : State) (n : Nat) (h : Folio → Folio) : (x.onFolio n h).trust = x.trust := rfl
@[simp] theorem State.onFolio_dev (x : State) (n : Nat) (h : Folio → Folio) : (x.onFolio n h).dev = x.dev := rfl
@[simp] theorem State.onFolio_wall (x : State) (n : Nat) (h : Folio → Folio) : (x.onFolio n h).wall = x.wall := rfl
@[simp] theorem State.onFolio_releasing (x : State) (n : Nat) (h : Folio → Folio) : (x.onFolio n h).releasing = x.releasing := rfl
@[simp] theorem State.onFolio_agenda (x : State) (n : Nat) (h : Folio → Folio) : (x.onFolio n h).agenda = x.agenda := rfl
@[simp] theorem State.onFolio_inputs (x : State) (n : Nat) (h : Folio → Folio) : (x.onFolio n h).inputs = x.inputs := rfl
@[simp] theorem State.onFolio_cursor (x : State) (n : Nat) (h : Folio → Folio) : (x.onFolio n h).cursor = x.cursor := rfl
@[simp] theorem State.onFolio_freeCtr (x : State) (n : Nat) (h : Folio → Folio) : (x.onFolio n h).freeCtr = x.freeCtr := rfl
@[simp] theorem State.putTile_saved (x : State) (f : Folio) (t : Tile) : (x.putTile f t).saved = x.saved := rfl
@[simp] theorem State.putTile_idle (x : State) (f : Folio) (t : Tile) : (x.putTile f t).idle = x.idle := rfl
@[simp] theorem State.putTile_dram (x : State) (f : Folio) (t : Tile) : (x.putTile f t).dram = x.dram := rfl
@[simp] theorem State.putTile_hostMem (x : State) (f : Folio) (t : Tile) : (x.putTile f t).hostMem = x.hostMem := rfl
@[simp] theorem State.putTile_queues (x : State) (f : Folio) (t : Tile) : (x.putTile f t).queues = x.queues := rfl
@[simp] theorem State.putTile_arb (x : State) (f : Folio) (t : Tile) : (x.putTile f t).arb = x.arb := rfl
@[simp] theorem State.putTile_domains (x : State) (f : Folio) (t : Tile) : (x.putTile f t).domains = x.domains := rfl
@[simp] theorem State.putTile_funcs (x : State) (f : Folio) (t : Tile) : (x.putTile f t).funcs = x.funcs := rfl
@[simp] theorem State.putTile_faults (x : State) (f : Folio) (t : Tile) : (x.putTile f t).faults = x.faults := rfl
@[simp] theorem State.putTile_hostReads (x : State) (f : Folio) (t : Tile) : (x.putTile f t).hostReads = x.hostReads := rfl
@[simp] theorem State.putTile_readCtr (x : State) (f : Folio) (t : Tile) : (x.putTile f t).readCtr = x.readCtr := rfl
@[simp] theorem State.putTile_far (x : State) (f : Folio) (t : Tile) : (x.putTile f t).far = x.far := rfl
@[simp] theorem State.putTile_links (x : State) (f : Folio) (t : Tile) : (x.putTile f t).links = x.links := rfl
@[simp] theorem State.putTile_mig (x : State) (f : Folio) (t : Tile) : (x.putTile f t).mig = x.mig := rfl
@[simp] theorem State.putTile_trust (x : State) (f : Folio) (t : Tile) : (x.putTile f t).trust = x.trust := rfl
@[simp] theorem State.putTile_dev (x : State) (f : Folio) (t : Tile) : (x.putTile f t).dev = x.dev := rfl
@[simp] theorem State.putTile_wall (x : State) (f : Folio) (t : Tile) : (x.putTile f t).wall = x.wall := rfl
@[simp] theorem State.putTile_releasing (x : State) (f : Folio) (t : Tile) : (x.putTile f t).releasing = x.releasing := rfl
@[simp] theorem State.putTile_agenda (x : State) (f : Folio) (t : Tile) : (x.putTile f t).agenda = x.agenda := rfl
@[simp] theorem State.putTile_inputs (x : State) (f : Folio) (t : Tile) : (x.putTile f t).inputs = x.inputs := rfl
@[simp] theorem State.putTile_cursor (x : State) (f : Folio) (t : Tile) : (x.putTile f t).cursor = x.cursor := rfl
@[simp] theorem State.putTile_freeCtr (x : State) (f : Folio) (t : Tile) : (x.putTile f t).freeCtr = x.freeCtr := rfl
@[simp] theorem State.onFunc_folios (x : State) (f : Nat) (h : FuncRegs → FuncRegs) : (x.onFunc f h).folios = x.folios := rfl
@[simp] theorem State.onFunc_saved (x : State) (f : Nat) (h : FuncRegs → FuncRegs) : (x.onFunc f h).saved = x.saved := rfl
@[simp] theorem State.onFunc_idle (x : State) (f : Nat) (h : FuncRegs → FuncRegs) : (x.onFunc f h).idle = x.idle := rfl
@[simp] theorem State.onFunc_dram (x : State) (f : Nat) (h : FuncRegs → FuncRegs) : (x.onFunc f h).dram = x.dram := rfl
@[simp] theorem State.onFunc_hostMem (x : State) (f : Nat) (h : FuncRegs → FuncRegs) : (x.onFunc f h).hostMem = x.hostMem := rfl
@[simp] theorem State.onFunc_queues (x : State) (f : Nat) (h : FuncRegs → FuncRegs) : (x.onFunc f h).queues = x.queues := rfl
@[simp] theorem State.onFunc_arb (x : State) (f : Nat) (h : FuncRegs → FuncRegs) : (x.onFunc f h).arb = x.arb := rfl
@[simp] theorem State.onFunc_domains (x : State) (f : Nat) (h : FuncRegs → FuncRegs) : (x.onFunc f h).domains = x.domains := rfl
@[simp] theorem State.onFunc_faults (x : State) (f : Nat) (h : FuncRegs → FuncRegs) : (x.onFunc f h).faults = x.faults := rfl
@[simp] theorem State.onFunc_hostReads (x : State) (f : Nat) (h : FuncRegs → FuncRegs) : (x.onFunc f h).hostReads = x.hostReads := rfl
@[simp] theorem State.onFunc_readCtr (x : State) (f : Nat) (h : FuncRegs → FuncRegs) : (x.onFunc f h).readCtr = x.readCtr := rfl
@[simp] theorem State.onFunc_far (x : State) (f : Nat) (h : FuncRegs → FuncRegs) : (x.onFunc f h).far = x.far := rfl
@[simp] theorem State.onFunc_links (x : State) (f : Nat) (h : FuncRegs → FuncRegs) : (x.onFunc f h).links = x.links := rfl
@[simp] theorem State.onFunc_mig (x : State) (f : Nat) (h : FuncRegs → FuncRegs) : (x.onFunc f h).mig = x.mig := rfl
@[simp] theorem State.onFunc_trust (x : State) (f : Nat) (h : FuncRegs → FuncRegs) : (x.onFunc f h).trust = x.trust := rfl
@[simp] theorem State.onFunc_dev (x : State) (f : Nat) (h : FuncRegs → FuncRegs) : (x.onFunc f h).dev = x.dev := rfl
@[simp] theorem State.onFunc_wall (x : State) (f : Nat) (h : FuncRegs → FuncRegs) : (x.onFunc f h).wall = x.wall := rfl
@[simp] theorem State.onFunc_releasing (x : State) (f : Nat) (h : FuncRegs → FuncRegs) : (x.onFunc f h).releasing = x.releasing := rfl
@[simp] theorem State.onFunc_agenda (x : State) (f : Nat) (h : FuncRegs → FuncRegs) : (x.onFunc f h).agenda = x.agenda := rfl
@[simp] theorem State.onFunc_inputs (x : State) (f : Nat) (h : FuncRegs → FuncRegs) : (x.onFunc f h).inputs = x.inputs := rfl
@[simp] theorem State.onFunc_cursor (x : State) (f : Nat) (h : FuncRegs → FuncRegs) : (x.onFunc f h).cursor = x.cursor := rfl
@[simp] theorem State.onFunc_freeCtr (x : State) (f : Nat) (h : FuncRegs → FuncRegs) : (x.onFunc f h).freeCtr = x.freeCtr := rfl
@[simp] theorem State.onChan_folios (x : State) (ch : Nat) (h : Chan → Chan) : (x.onChan ch h).folios = x.folios := rfl
@[simp] theorem State.onChan_saved (x : State) (ch : Nat) (h : Chan → Chan) : (x.onChan ch h).saved = x.saved := rfl
@[simp] theorem State.onChan_idle (x : State) (ch : Nat) (h : Chan → Chan) : (x.onChan ch h).idle = x.idle := rfl
@[simp] theorem State.onChan_hostMem (x : State) (ch : Nat) (h : Chan → Chan) : (x.onChan ch h).hostMem = x.hostMem := rfl
@[simp] theorem State.onChan_queues (x : State) (ch : Nat) (h : Chan → Chan) : (x.onChan ch h).queues = x.queues := rfl
@[simp] theorem State.onChan_arb (x : State) (ch : Nat) (h : Chan → Chan) : (x.onChan ch h).arb = x.arb := rfl
@[simp] theorem State.onChan_domains (x : State) (ch : Nat) (h : Chan → Chan) : (x.onChan ch h).domains = x.domains := rfl
@[simp] theorem State.onChan_funcs (x : State) (ch : Nat) (h : Chan → Chan) : (x.onChan ch h).funcs = x.funcs := rfl
@[simp] theorem State.onChan_faults (x : State) (ch : Nat) (h : Chan → Chan) : (x.onChan ch h).faults = x.faults := rfl
@[simp] theorem State.onChan_hostReads (x : State) (ch : Nat) (h : Chan → Chan) : (x.onChan ch h).hostReads = x.hostReads := rfl
@[simp] theorem State.onChan_readCtr (x : State) (ch : Nat) (h : Chan → Chan) : (x.onChan ch h).readCtr = x.readCtr := rfl
@[simp] theorem State.onChan_far (x : State) (ch : Nat) (h : Chan → Chan) : (x.onChan ch h).far = x.far := rfl
@[simp] theorem State.onChan_links (x : State) (ch : Nat) (h : Chan → Chan) : (x.onChan ch h).links = x.links := rfl
@[simp] theorem State.onChan_mig (x : State) (ch : Nat) (h : Chan → Chan) : (x.onChan ch h).mig = x.mig := rfl
@[simp] theorem State.onChan_trust (x : State) (ch : Nat) (h : Chan → Chan) : (x.onChan ch h).trust = x.trust := rfl
@[simp] theorem State.onChan_dev (x : State) (ch : Nat) (h : Chan → Chan) : (x.onChan ch h).dev = x.dev := rfl
@[simp] theorem State.onChan_wall (x : State) (ch : Nat) (h : Chan → Chan) : (x.onChan ch h).wall = x.wall := rfl
@[simp] theorem State.onChan_releasing (x : State) (ch : Nat) (h : Chan → Chan) : (x.onChan ch h).releasing = x.releasing := rfl
@[simp] theorem State.onChan_agenda (x : State) (ch : Nat) (h : Chan → Chan) : (x.onChan ch h).agenda = x.agenda := rfl
@[simp] theorem State.onChan_inputs (x : State) (ch : Nat) (h : Chan → Chan) : (x.onChan ch h).inputs = x.inputs := rfl
@[simp] theorem State.onChan_cursor (x : State) (ch : Nat) (h : Chan → Chan) : (x.onChan ch h).cursor = x.cursor := rfl
@[simp] theorem State.onChan_freeCtr (x : State) (ch : Nat) (h : Chan → Chan) : (x.onChan ch h).freeCtr = x.freeCtr := rfl
@[simp] theorem State.onLink_folios (x : State) (l : Nat) (h : Link → Link) : (x.onLink l h).folios = x.folios := rfl
@[simp] theorem State.onLink_saved (x : State) (l : Nat) (h : Link → Link) : (x.onLink l h).saved = x.saved := rfl
@[simp] theorem State.onLink_idle (x : State) (l : Nat) (h : Link → Link) : (x.onLink l h).idle = x.idle := rfl
@[simp] theorem State.onLink_dram (x : State) (l : Nat) (h : Link → Link) : (x.onLink l h).dram = x.dram := rfl
@[simp] theorem State.onLink_hostMem (x : State) (l : Nat) (h : Link → Link) : (x.onLink l h).hostMem = x.hostMem := rfl
@[simp] theorem State.onLink_queues (x : State) (l : Nat) (h : Link → Link) : (x.onLink l h).queues = x.queues := rfl
@[simp] theorem State.onLink_arb (x : State) (l : Nat) (h : Link → Link) : (x.onLink l h).arb = x.arb := rfl
@[simp] theorem State.onLink_domains (x : State) (l : Nat) (h : Link → Link) : (x.onLink l h).domains = x.domains := rfl
@[simp] theorem State.onLink_funcs (x : State) (l : Nat) (h : Link → Link) : (x.onLink l h).funcs = x.funcs := rfl
@[simp] theorem State.onLink_faults (x : State) (l : Nat) (h : Link → Link) : (x.onLink l h).faults = x.faults := rfl
@[simp] theorem State.onLink_hostReads (x : State) (l : Nat) (h : Link → Link) : (x.onLink l h).hostReads = x.hostReads := rfl
@[simp] theorem State.onLink_readCtr (x : State) (l : Nat) (h : Link → Link) : (x.onLink l h).readCtr = x.readCtr := rfl
@[simp] theorem State.onLink_far (x : State) (l : Nat) (h : Link → Link) : (x.onLink l h).far = x.far := rfl
@[simp] theorem State.onLink_mig (x : State) (l : Nat) (h : Link → Link) : (x.onLink l h).mig = x.mig := rfl
@[simp] theorem State.onLink_trust (x : State) (l : Nat) (h : Link → Link) : (x.onLink l h).trust = x.trust := rfl
@[simp] theorem State.onLink_dev (x : State) (l : Nat) (h : Link → Link) : (x.onLink l h).dev = x.dev := rfl
@[simp] theorem State.onLink_wall (x : State) (l : Nat) (h : Link → Link) : (x.onLink l h).wall = x.wall := rfl
@[simp] theorem State.onLink_releasing (x : State) (l : Nat) (h : Link → Link) : (x.onLink l h).releasing = x.releasing := rfl
@[simp] theorem State.onLink_agenda (x : State) (l : Nat) (h : Link → Link) : (x.onLink l h).agenda = x.agenda := rfl
@[simp] theorem State.onLink_inputs (x : State) (l : Nat) (h : Link → Link) : (x.onLink l h).inputs = x.inputs := rfl
@[simp] theorem State.onLink_cursor (x : State) (l : Nat) (h : Link → Link) : (x.onLink l h).cursor = x.cursor := rfl
@[simp] theorem State.onLink_freeCtr (x : State) (l : Nat) (h : Link → Link) : (x.onLink l h).freeCtr = x.freeCtr := rfl
@[simp] theorem State.interrupt_folios (x : State) (f v : Nat) : (x.interrupt f v).folios = x.folios := by dsimp only [State.interrupt]; split <;> rfl
@[simp] theorem State.interrupt_saved (x : State) (f v : Nat) : (x.interrupt f v).saved = x.saved := by dsimp only [State.interrupt]; split <;> rfl
@[simp] theorem State.interrupt_idle (x : State) (f v : Nat) : (x.interrupt f v).idle = x.idle := by dsimp only [State.interrupt]; split <;> rfl
@[simp] theorem State.interrupt_dram (x : State) (f v : Nat) : (x.interrupt f v).dram = x.dram := by dsimp only [State.interrupt]; split <;> rfl
@[simp] theorem State.interrupt_queues (x : State) (f v : Nat) : (x.interrupt f v).queues = x.queues := by dsimp only [State.interrupt]; split <;> rfl
@[simp] theorem State.interrupt_arb (x : State) (f v : Nat) : (x.interrupt f v).arb = x.arb := by dsimp only [State.interrupt]; split <;> rfl
@[simp] theorem State.interrupt_domains (x : State) (f v : Nat) : (x.interrupt f v).domains = x.domains := by dsimp only [State.interrupt]; split <;> rfl
@[simp] theorem State.interrupt_faults (x : State) (f v : Nat) : (x.interrupt f v).faults = x.faults := by dsimp only [State.interrupt]; split <;> rfl
@[simp] theorem State.interrupt_hostReads (x : State) (f v : Nat) : (x.interrupt f v).hostReads = x.hostReads := by dsimp only [State.interrupt]; split <;> rfl
@[simp] theorem State.interrupt_readCtr (x : State) (f v : Nat) : (x.interrupt f v).readCtr = x.readCtr := by dsimp only [State.interrupt]; split <;> rfl
@[simp] theorem State.interrupt_far (x : State) (f v : Nat) : (x.interrupt f v).far = x.far := by dsimp only [State.interrupt]; split <;> rfl
@[simp] theorem State.interrupt_links (x : State) (f v : Nat) : (x.interrupt f v).links = x.links := by dsimp only [State.interrupt]; split <;> rfl
@[simp] theorem State.interrupt_mig (x : State) (f v : Nat) : (x.interrupt f v).mig = x.mig := by dsimp only [State.interrupt]; split <;> rfl
@[simp] theorem State.interrupt_trust (x : State) (f v : Nat) : (x.interrupt f v).trust = x.trust := by dsimp only [State.interrupt]; split <;> rfl
@[simp] theorem State.interrupt_dev (x : State) (f v : Nat) : (x.interrupt f v).dev = x.dev := by dsimp only [State.interrupt]; split <;> rfl
@[simp] theorem State.interrupt_wall (x : State) (f v : Nat) : (x.interrupt f v).wall = x.wall := by dsimp only [State.interrupt]; split <;> rfl
@[simp] theorem State.interrupt_releasing (x : State) (f v : Nat) : (x.interrupt f v).releasing = x.releasing := by dsimp only [State.interrupt]; split <;> rfl
@[simp] theorem State.interrupt_agenda (x : State) (f v : Nat) : (x.interrupt f v).agenda = x.agenda := by dsimp only [State.interrupt]; split <;> rfl
@[simp] theorem State.interrupt_inputs (x : State) (f v : Nat) : (x.interrupt f v).inputs = x.inputs := by dsimp only [State.interrupt]; split <;> rfl
@[simp] theorem State.interrupt_cursor (x : State) (f v : Nat) : (x.interrupt f v).cursor = x.cursor := by dsimp only [State.interrupt]; split <;> rfl
@[simp] theorem State.interrupt_freeCtr (x : State) (f v : Nat) : (x.interrupt f v).freeCtr = x.freeCtr := by dsimp only [State.interrupt]; split <;> rfl
@[simp] theorem State.logError_folios (x : State) (k f : Nat) : (x.logError k f).folios = x.folios := rfl
@[simp] theorem State.logError_saved (x : State) (k f : Nat) : (x.logError k f).saved = x.saved := rfl
@[simp] theorem State.logError_idle (x : State) (k f : Nat) : (x.logError k f).idle = x.idle := rfl
@[simp] theorem State.logError_dram (x : State) (k f : Nat) : (x.logError k f).dram = x.dram := rfl
@[simp] theorem State.logError_hostMem (x : State) (k f : Nat) : (x.logError k f).hostMem = x.hostMem := rfl
@[simp] theorem State.logError_queues (x : State) (k f : Nat) : (x.logError k f).queues = x.queues := rfl
@[simp] theorem State.logError_arb (x : State) (k f : Nat) : (x.logError k f).arb = x.arb := rfl
@[simp] theorem State.logError_domains (x : State) (k f : Nat) : (x.logError k f).domains = x.domains := rfl
@[simp] theorem State.logError_funcs (x : State) (k f : Nat) : (x.logError k f).funcs = x.funcs := rfl
@[simp] theorem State.logError_faults (x : State) (k f : Nat) : (x.logError k f).faults = x.faults := rfl
@[simp] theorem State.logError_hostReads (x : State) (k f : Nat) : (x.logError k f).hostReads = x.hostReads := rfl
@[simp] theorem State.logError_readCtr (x : State) (k f : Nat) : (x.logError k f).readCtr = x.readCtr := rfl
@[simp] theorem State.logError_far (x : State) (k f : Nat) : (x.logError k f).far = x.far := rfl
@[simp] theorem State.logError_links (x : State) (k f : Nat) : (x.logError k f).links = x.links := rfl
@[simp] theorem State.logError_mig (x : State) (k f : Nat) : (x.logError k f).mig = x.mig := rfl
@[simp] theorem State.logError_trust (x : State) (k f : Nat) : (x.logError k f).trust = x.trust := rfl
@[simp] theorem State.logError_wall (x : State) (k f : Nat) : (x.logError k f).wall = x.wall := rfl
@[simp] theorem State.logError_releasing (x : State) (k f : Nat) : (x.logError k f).releasing = x.releasing := rfl
@[simp] theorem State.logError_agenda (x : State) (k f : Nat) : (x.logError k f).agenda = x.agenda := rfl
@[simp] theorem State.logError_inputs (x : State) (k f : Nat) : (x.logError k f).inputs = x.inputs := rfl
@[simp] theorem State.logError_cursor (x : State) (k f : Nat) : (x.logError k f).cursor = x.cursor := rfl
@[simp] theorem State.logError_freeCtr (x : State) (k f : Nat) : (x.logError k f).freeCtr = x.freeCtr := rfl
@[simp] theorem State.onCap_saved (x : State) (n : Nat) (h : Capture → Capture) : (x.onCap n h).saved = x.saved := rfl
@[simp] theorem State.onCap_idle (x : State) (n : Nat) (h : Capture → Capture) : (x.onCap n h).idle = x.idle := rfl
@[simp] theorem State.onCap_dram (x : State) (n : Nat) (h : Capture → Capture) : (x.onCap n h).dram = x.dram := rfl
@[simp] theorem State.onCap_hostMem (x : State) (n : Nat) (h : Capture → Capture) : (x.onCap n h).hostMem = x.hostMem := rfl
@[simp] theorem State.onCap_queues (x : State) (n : Nat) (h : Capture → Capture) : (x.onCap n h).queues = x.queues := rfl
@[simp] theorem State.onCap_arb (x : State) (n : Nat) (h : Capture → Capture) : (x.onCap n h).arb = x.arb := rfl
@[simp] theorem State.onCap_domains (x : State) (n : Nat) (h : Capture → Capture) : (x.onCap n h).domains = x.domains := rfl
@[simp] theorem State.onCap_funcs (x : State) (n : Nat) (h : Capture → Capture) : (x.onCap n h).funcs = x.funcs := rfl
@[simp] theorem State.onCap_faults (x : State) (n : Nat) (h : Capture → Capture) : (x.onCap n h).faults = x.faults := rfl
@[simp] theorem State.onCap_hostReads (x : State) (n : Nat) (h : Capture → Capture) : (x.onCap n h).hostReads = x.hostReads := rfl
@[simp] theorem State.onCap_readCtr (x : State) (n : Nat) (h : Capture → Capture) : (x.onCap n h).readCtr = x.readCtr := rfl
@[simp] theorem State.onCap_far (x : State) (n : Nat) (h : Capture → Capture) : (x.onCap n h).far = x.far := rfl
@[simp] theorem State.onCap_links (x : State) (n : Nat) (h : Capture → Capture) : (x.onCap n h).links = x.links := rfl
@[simp] theorem State.onCap_mig (x : State) (n : Nat) (h : Capture → Capture) : (x.onCap n h).mig = x.mig := rfl
@[simp] theorem State.onCap_trust (x : State) (n : Nat) (h : Capture → Capture) : (x.onCap n h).trust = x.trust := rfl
@[simp] theorem State.onCap_dev (x : State) (n : Nat) (h : Capture → Capture) : (x.onCap n h).dev = x.dev := rfl
@[simp] theorem State.onCap_wall (x : State) (n : Nat) (h : Capture → Capture) : (x.onCap n h).wall = x.wall := rfl
@[simp] theorem State.onCap_releasing (x : State) (n : Nat) (h : Capture → Capture) : (x.onCap n h).releasing = x.releasing := rfl
@[simp] theorem State.onCap_agenda (x : State) (n : Nat) (h : Capture → Capture) : (x.onCap n h).agenda = x.agenda := rfl
@[simp] theorem State.onCap_inputs (x : State) (n : Nat) (h : Capture → Capture) : (x.onCap n h).inputs = x.inputs := rfl
@[simp] theorem State.onCap_cursor (x : State) (n : Nat) (h : Capture → Capture) : (x.onCap n h).cursor = x.cursor := rfl
@[simp] theorem State.onCap_freeCtr (x : State) (n : Nat) (h : Capture → Capture) : (x.onCap n h).freeCtr = x.freeCtr := rfl
@[simp] theorem State.next_folios (x : State) (c : Cursor) (i : Instr) : (x.next c i).folios = x.folios := rfl
@[simp] theorem State.next_saved (x : State) (c : Cursor) (i : Instr) : (x.next c i).saved = x.saved := rfl
@[simp] theorem State.next_idle (x : State) (c : Cursor) (i : Instr) : (x.next c i).idle = x.idle := rfl
@[simp] theorem State.next_dram (x : State) (c : Cursor) (i : Instr) : (x.next c i).dram = x.dram := rfl
@[simp] theorem State.next_hostMem (x : State) (c : Cursor) (i : Instr) : (x.next c i).hostMem = x.hostMem := rfl
@[simp] theorem State.next_queues (x : State) (c : Cursor) (i : Instr) : (x.next c i).queues = x.queues := rfl
@[simp] theorem State.next_arb (x : State) (c : Cursor) (i : Instr) : (x.next c i).arb = x.arb := rfl
@[simp] theorem State.next_domains (x : State) (c : Cursor) (i : Instr) : (x.next c i).domains = x.domains := rfl
@[simp] theorem State.next_funcs (x : State) (c : Cursor) (i : Instr) : (x.next c i).funcs = x.funcs := rfl
@[simp] theorem State.next_faults (x : State) (c : Cursor) (i : Instr) : (x.next c i).faults = x.faults := rfl
@[simp] theorem State.next_hostReads (x : State) (c : Cursor) (i : Instr) : (x.next c i).hostReads = x.hostReads := rfl
@[simp] theorem State.next_readCtr (x : State) (c : Cursor) (i : Instr) : (x.next c i).readCtr = x.readCtr := rfl
@[simp] theorem State.next_far (x : State) (c : Cursor) (i : Instr) : (x.next c i).far = x.far := rfl
@[simp] theorem State.next_links (x : State) (c : Cursor) (i : Instr) : (x.next c i).links = x.links := rfl
@[simp] theorem State.next_mig (x : State) (c : Cursor) (i : Instr) : (x.next c i).mig = x.mig := rfl
@[simp] theorem State.next_trust (x : State) (c : Cursor) (i : Instr) : (x.next c i).trust = x.trust := rfl
@[simp] theorem State.next_dev (x : State) (c : Cursor) (i : Instr) : (x.next c i).dev = x.dev := rfl
@[simp] theorem State.next_wall (x : State) (c : Cursor) (i : Instr) : (x.next c i).wall = x.wall := rfl
@[simp] theorem State.next_releasing (x : State) (c : Cursor) (i : Instr) : (x.next c i).releasing = x.releasing := rfl
@[simp] theorem State.next_inputs (x : State) (c : Cursor) (i : Instr) : (x.next c i).inputs = x.inputs := rfl
@[simp] theorem State.next_cursor (x : State) (c : Cursor) (i : Instr) : (x.next c i).cursor = x.cursor := rfl
@[simp] theorem State.next_freeCtr (x : State) (c : Cursor) (i : Instr) : (x.next c i).freeCtr = x.freeCtr := rfl
@[simp] theorem State.seal_folios (x : State) (pa ver v : Nat) (p : Bool) : (x.seal pa ver v p).folios = x.folios := rfl
@[simp] theorem State.putLine_folios (x : State) (pa v : Nat) (p : Bool) : (x.putLine pa v p).folios = x.folios := rfl
@[simp] theorem State.seal_saved (x : State) (pa ver v : Nat) (p : Bool) : (x.seal pa ver v p).saved = x.saved := rfl
@[simp] theorem State.putLine_saved (x : State) (pa v : Nat) (p : Bool) : (x.putLine pa v p).saved = x.saved := rfl
@[simp] theorem State.seal_idle (x : State) (pa ver v : Nat) (p : Bool) : (x.seal pa ver v p).idle = x.idle := rfl
@[simp] theorem State.putLine_idle (x : State) (pa v : Nat) (p : Bool) : (x.putLine pa v p).idle = x.idle := rfl
@[simp] theorem State.seal_hostMem (x : State) (pa ver v : Nat) (p : Bool) : (x.seal pa ver v p).hostMem = x.hostMem := rfl
@[simp] theorem State.putLine_hostMem (x : State) (pa v : Nat) (p : Bool) : (x.putLine pa v p).hostMem = x.hostMem := rfl
@[simp] theorem State.seal_queues (x : State) (pa ver v : Nat) (p : Bool) : (x.seal pa ver v p).queues = x.queues := rfl
@[simp] theorem State.putLine_queues (x : State) (pa v : Nat) (p : Bool) : (x.putLine pa v p).queues = x.queues := rfl
@[simp] theorem State.seal_arb (x : State) (pa ver v : Nat) (p : Bool) : (x.seal pa ver v p).arb = x.arb := rfl
@[simp] theorem State.putLine_arb (x : State) (pa v : Nat) (p : Bool) : (x.putLine pa v p).arb = x.arb := rfl
@[simp] theorem State.seal_domains (x : State) (pa ver v : Nat) (p : Bool) : (x.seal pa ver v p).domains = x.domains := rfl
@[simp] theorem State.putLine_domains (x : State) (pa v : Nat) (p : Bool) : (x.putLine pa v p).domains = x.domains := rfl
@[simp] theorem State.seal_funcs (x : State) (pa ver v : Nat) (p : Bool) : (x.seal pa ver v p).funcs = x.funcs := rfl
@[simp] theorem State.putLine_funcs (x : State) (pa v : Nat) (p : Bool) : (x.putLine pa v p).funcs = x.funcs := rfl
@[simp] theorem State.seal_faults (x : State) (pa ver v : Nat) (p : Bool) : (x.seal pa ver v p).faults = x.faults := rfl
@[simp] theorem State.putLine_faults (x : State) (pa v : Nat) (p : Bool) : (x.putLine pa v p).faults = x.faults := rfl
@[simp] theorem State.seal_hostReads (x : State) (pa ver v : Nat) (p : Bool) : (x.seal pa ver v p).hostReads = x.hostReads := rfl
@[simp] theorem State.putLine_hostReads (x : State) (pa v : Nat) (p : Bool) : (x.putLine pa v p).hostReads = x.hostReads := rfl
@[simp] theorem State.seal_readCtr (x : State) (pa ver v : Nat) (p : Bool) : (x.seal pa ver v p).readCtr = x.readCtr := rfl
@[simp] theorem State.putLine_readCtr (x : State) (pa v : Nat) (p : Bool) : (x.putLine pa v p).readCtr = x.readCtr := rfl
@[simp] theorem State.seal_far (x : State) (pa ver v : Nat) (p : Bool) : (x.seal pa ver v p).far = x.far := rfl
@[simp] theorem State.putLine_far (x : State) (pa v : Nat) (p : Bool) : (x.putLine pa v p).far = x.far := rfl
@[simp] theorem State.seal_links (x : State) (pa ver v : Nat) (p : Bool) : (x.seal pa ver v p).links = x.links := rfl
@[simp] theorem State.putLine_links (x : State) (pa v : Nat) (p : Bool) : (x.putLine pa v p).links = x.links := rfl
@[simp] theorem State.seal_mig (x : State) (pa ver v : Nat) (p : Bool) : (x.seal pa ver v p).mig = x.mig := rfl
@[simp] theorem State.putLine_mig (x : State) (pa v : Nat) (p : Bool) : (x.putLine pa v p).mig = x.mig := rfl
@[simp] theorem State.seal_trust (x : State) (pa ver v : Nat) (p : Bool) : (x.seal pa ver v p).trust = x.trust := rfl
@[simp] theorem State.putLine_trust (x : State) (pa v : Nat) (p : Bool) : (x.putLine pa v p).trust = x.trust := rfl
@[simp] theorem State.seal_dev (x : State) (pa ver v : Nat) (p : Bool) : (x.seal pa ver v p).dev = x.dev := rfl
@[simp] theorem State.putLine_dev (x : State) (pa v : Nat) (p : Bool) : (x.putLine pa v p).dev = x.dev := rfl
@[simp] theorem State.seal_wall (x : State) (pa ver v : Nat) (p : Bool) : (x.seal pa ver v p).wall = x.wall := rfl
@[simp] theorem State.putLine_wall (x : State) (pa v : Nat) (p : Bool) : (x.putLine pa v p).wall = x.wall := rfl
@[simp] theorem State.seal_releasing (x : State) (pa ver v : Nat) (p : Bool) : (x.seal pa ver v p).releasing = x.releasing := rfl
@[simp] theorem State.putLine_releasing (x : State) (pa v : Nat) (p : Bool) : (x.putLine pa v p).releasing = x.releasing := rfl
@[simp] theorem State.seal_agenda (x : State) (pa ver v : Nat) (p : Bool) : (x.seal pa ver v p).agenda = x.agenda := rfl
@[simp] theorem State.putLine_agenda (x : State) (pa v : Nat) (p : Bool) : (x.putLine pa v p).agenda = x.agenda := rfl
@[simp] theorem State.seal_inputs (x : State) (pa ver v : Nat) (p : Bool) : (x.seal pa ver v p).inputs = x.inputs := rfl
@[simp] theorem State.putLine_inputs (x : State) (pa v : Nat) (p : Bool) : (x.putLine pa v p).inputs = x.inputs := rfl
@[simp] theorem State.seal_cursor (x : State) (pa ver v : Nat) (p : Bool) : (x.seal pa ver v p).cursor = x.cursor := rfl
@[simp] theorem State.putLine_cursor (x : State) (pa v : Nat) (p : Bool) : (x.putLine pa v p).cursor = x.cursor := rfl
@[simp] theorem State.seal_freeCtr (x : State) (pa ver v : Nat) (p : Bool) : (x.seal pa ver v p).freeCtr = x.freeCtr := rfl
@[simp] theorem State.putLine_freeCtr (x : State) (pa v : Nat) (p : Bool) : (x.putLine pa v p).freeCtr = x.freeCtr := rfl
@[simp] theorem State.onJob_folios (x : State) (f : Nat) (j : BitVec 32) (h : Job → Job) : (x.onJob f j h).folios = x.folios := rfl
@[simp] theorem State.onJob_saved (x : State) (f : Nat) (j : BitVec 32) (h : Job → Job) : (x.onJob f j h).saved = x.saved := rfl
@[simp] theorem State.onJob_idle (x : State) (f : Nat) (j : BitVec 32) (h : Job → Job) : (x.onJob f j h).idle = x.idle := rfl
@[simp] theorem State.onJob_dram (x : State) (f : Nat) (j : BitVec 32) (h : Job → Job) : (x.onJob f j h).dram = x.dram := rfl
@[simp] theorem State.onJob_hostMem (x : State) (f : Nat) (j : BitVec 32) (h : Job → Job) : (x.onJob f j h).hostMem = x.hostMem := rfl
@[simp] theorem State.onJob_queues (x : State) (f : Nat) (j : BitVec 32) (h : Job → Job) : (x.onJob f j h).queues = x.queues := rfl
@[simp] theorem State.onJob_arb (x : State) (f : Nat) (j : BitVec 32) (h : Job → Job) : (x.onJob f j h).arb = x.arb := rfl
@[simp] theorem State.onJob_domains (x : State) (f : Nat) (j : BitVec 32) (h : Job → Job) : (x.onJob f j h).domains = x.domains := rfl
@[simp] theorem State.onJob_funcs (x : State) (f : Nat) (j : BitVec 32) (h : Job → Job) : (x.onJob f j h).funcs = x.funcs := rfl
@[simp] theorem State.onJob_faults (x : State) (f : Nat) (j : BitVec 32) (h : Job → Job) : (x.onJob f j h).faults = x.faults := rfl
@[simp] theorem State.onJob_hostReads (x : State) (f : Nat) (j : BitVec 32) (h : Job → Job) : (x.onJob f j h).hostReads = x.hostReads := rfl
@[simp] theorem State.onJob_readCtr (x : State) (f : Nat) (j : BitVec 32) (h : Job → Job) : (x.onJob f j h).readCtr = x.readCtr := rfl
@[simp] theorem State.onJob_far (x : State) (f : Nat) (j : BitVec 32) (h : Job → Job) : (x.onJob f j h).far = x.far := rfl
@[simp] theorem State.onJob_links (x : State) (f : Nat) (j : BitVec 32) (h : Job → Job) : (x.onJob f j h).links = x.links := rfl
@[simp] theorem State.onJob_mig (x : State) (f : Nat) (j : BitVec 32) (h : Job → Job) : (x.onJob f j h).mig = x.mig := rfl
@[simp] theorem State.onJob_dev (x : State) (f : Nat) (j : BitVec 32) (h : Job → Job) : (x.onJob f j h).dev = x.dev := rfl
@[simp] theorem State.onJob_wall (x : State) (f : Nat) (j : BitVec 32) (h : Job → Job) : (x.onJob f j h).wall = x.wall := rfl
@[simp] theorem State.onJob_releasing (x : State) (f : Nat) (j : BitVec 32) (h : Job → Job) : (x.onJob f j h).releasing = x.releasing := rfl
@[simp] theorem State.onJob_agenda (x : State) (f : Nat) (j : BitVec 32) (h : Job → Job) : (x.onJob f j h).agenda = x.agenda := rfl
@[simp] theorem State.onJob_inputs (x : State) (f : Nat) (j : BitVec 32) (h : Job → Job) : (x.onJob f j h).inputs = x.inputs := rfl
@[simp] theorem State.onJob_cursor (x : State) (f : Nat) (j : BitVec 32) (h : Job → Job) : (x.onJob f j h).cursor = x.cursor := rfl
@[simp] theorem State.onJob_freeCtr (x : State) (f : Nat) (j : BitVec 32) (h : Job → Job) : (x.onJob f j h).freeCtr = x.freeCtr := rfl
@[simp] theorem State.newLayout_folios (x : State) (f : Nat) (j : BitVec 32) : (x.newLayout f j).folios = x.folios := rfl
@[simp] theorem State.newLayout_saved (x : State) (f : Nat) (j : BitVec 32) : (x.newLayout f j).saved = x.saved := rfl
@[simp] theorem State.newLayout_idle (x : State) (f : Nat) (j : BitVec 32) : (x.newLayout f j).idle = x.idle := rfl
@[simp] theorem State.newLayout_dram (x : State) (f : Nat) (j : BitVec 32) : (x.newLayout f j).dram = x.dram := rfl
@[simp] theorem State.newLayout_hostMem (x : State) (f : Nat) (j : BitVec 32) : (x.newLayout f j).hostMem = x.hostMem := rfl
@[simp] theorem State.newLayout_queues (x : State) (f : Nat) (j : BitVec 32) : (x.newLayout f j).queues = x.queues := rfl
@[simp] theorem State.newLayout_arb (x : State) (f : Nat) (j : BitVec 32) : (x.newLayout f j).arb = x.arb := rfl
@[simp] theorem State.newLayout_domains (x : State) (f : Nat) (j : BitVec 32) : (x.newLayout f j).domains = x.domains := rfl
@[simp] theorem State.newLayout_funcs (x : State) (f : Nat) (j : BitVec 32) : (x.newLayout f j).funcs = x.funcs := rfl
@[simp] theorem State.newLayout_faults (x : State) (f : Nat) (j : BitVec 32) : (x.newLayout f j).faults = x.faults := rfl
@[simp] theorem State.newLayout_hostReads (x : State) (f : Nat) (j : BitVec 32) : (x.newLayout f j).hostReads = x.hostReads := rfl
@[simp] theorem State.newLayout_readCtr (x : State) (f : Nat) (j : BitVec 32) : (x.newLayout f j).readCtr = x.readCtr := rfl
@[simp] theorem State.newLayout_far (x : State) (f : Nat) (j : BitVec 32) : (x.newLayout f j).far = x.far := rfl
@[simp] theorem State.newLayout_links (x : State) (f : Nat) (j : BitVec 32) : (x.newLayout f j).links = x.links := rfl
@[simp] theorem State.newLayout_mig (x : State) (f : Nat) (j : BitVec 32) : (x.newLayout f j).mig = x.mig := rfl
@[simp] theorem State.newLayout_dev (x : State) (f : Nat) (j : BitVec 32) : (x.newLayout f j).dev = x.dev := rfl
@[simp] theorem State.newLayout_wall (x : State) (f : Nat) (j : BitVec 32) : (x.newLayout f j).wall = x.wall := rfl
@[simp] theorem State.newLayout_releasing (x : State) (f : Nat) (j : BitVec 32) : (x.newLayout f j).releasing = x.releasing := rfl
@[simp] theorem State.newLayout_agenda (x : State) (f : Nat) (j : BitVec 32) : (x.newLayout f j).agenda = x.agenda := rfl
@[simp] theorem State.newLayout_inputs (x : State) (f : Nat) (j : BitVec 32) : (x.newLayout f j).inputs = x.inputs := rfl
@[simp] theorem State.newLayout_cursor (x : State) (f : Nat) (j : BitVec 32) : (x.newLayout f j).cursor = x.cursor := rfl
@[simp] theorem State.newLayout_freeCtr (x : State) (f : Nat) (j : BitVec 32) : (x.newLayout f j).freeCtr = x.freeCtr := rfl
@[simp] theorem State.clearFolio_saved (x : State) (f : Folio) (d : Option (Nat × Nat × Done)) (l : List Stop) : (x.clearFolio f d l).saved = x.saved := rfl
@[simp] theorem State.clearFolio_idle (x : State) (f : Folio) (d : Option (Nat × Nat × Done)) (l : List Stop) : (x.clearFolio f d l).idle = x.idle := rfl
@[simp] theorem State.clearFolio_dram (x : State) (f : Folio) (d : Option (Nat × Nat × Done)) (l : List Stop) : (x.clearFolio f d l).dram = x.dram := rfl
@[simp] theorem State.clearFolio_hostMem (x : State) (f : Folio) (d : Option (Nat × Nat × Done)) (l : List Stop) : (x.clearFolio f d l).hostMem = x.hostMem := rfl
@[simp] theorem State.clearFolio_queues (x : State) (f : Folio) (d : Option (Nat × Nat × Done)) (l : List Stop) : (x.clearFolio f d l).queues = x.queues := rfl
@[simp] theorem State.clearFolio_arb (x : State) (f : Folio) (d : Option (Nat × Nat × Done)) (l : List Stop) : (x.clearFolio f d l).arb = x.arb := rfl
@[simp] theorem State.clearFolio_domains (x : State) (f : Folio) (d : Option (Nat × Nat × Done)) (l : List Stop) : (x.clearFolio f d l).domains = x.domains := rfl
@[simp] theorem State.clearFolio_funcs (x : State) (f : Folio) (d : Option (Nat × Nat × Done)) (l : List Stop) : (x.clearFolio f d l).funcs = x.funcs := rfl
@[simp] theorem State.clearFolio_readCtr (x : State) (f : Folio) (d : Option (Nat × Nat × Done)) (l : List Stop) : (x.clearFolio f d l).readCtr = x.readCtr := rfl
@[simp] theorem State.clearFolio_links (x : State) (f : Folio) (d : Option (Nat × Nat × Done)) (l : List Stop) : (x.clearFolio f d l).links = x.links := rfl
@[simp] theorem State.clearFolio_mig (x : State) (f : Folio) (d : Option (Nat × Nat × Done)) (l : List Stop) : (x.clearFolio f d l).mig = x.mig := rfl
@[simp] theorem State.clearFolio_trust (x : State) (f : Folio) (d : Option (Nat × Nat × Done)) (l : List Stop) : (x.clearFolio f d l).trust = x.trust := rfl
@[simp] theorem State.clearFolio_dev (x : State) (f : Folio) (d : Option (Nat × Nat × Done)) (l : List Stop) : (x.clearFolio f d l).dev = x.dev := rfl
@[simp] theorem State.clearFolio_wall (x : State) (f : Folio) (d : Option (Nat × Nat × Done)) (l : List Stop) : (x.clearFolio f d l).wall = x.wall := rfl
@[simp] theorem State.clearFolio_inputs (x : State) (f : Folio) (d : Option (Nat × Nat × Done)) (l : List Stop) : (x.clearFolio f d l).inputs = x.inputs := rfl
@[simp] theorem State.clearFolio_cursor (x : State) (f : Folio) (d : Option (Nat × Nat × Done)) (l : List Stop) : (x.clearFolio f d l).cursor = x.cursor := rfl
@[simp] theorem State.clearFolio_freeCtr (x : State) (f : Folio) (d : Option (Nat × Nat × Done)) (l : List Stop) : (x.clearFolio f d l).freeCtr = x.freeCtr := rfl
@[simp] theorem State.waits_folios (x : State) (q l : Nat) (b : Bool) : (x.waits q l b).folios = x.folios := rfl
@[simp] theorem State.waits_saved (x : State) (q l : Nat) (b : Bool) : (x.waits q l b).saved = x.saved := rfl
@[simp] theorem State.waits_idle (x : State) (q l : Nat) (b : Bool) : (x.waits q l b).idle = x.idle := rfl
@[simp] theorem State.waits_dram (x : State) (q l : Nat) (b : Bool) : (x.waits q l b).dram = x.dram := rfl
@[simp] theorem State.waits_hostMem (x : State) (q l : Nat) (b : Bool) : (x.waits q l b).hostMem = x.hostMem := rfl
@[simp] theorem State.waits_queues (x : State) (q l : Nat) (b : Bool) : (x.waits q l b).queues = x.queues := rfl
@[simp] theorem State.waits_domains (x : State) (q l : Nat) (b : Bool) : (x.waits q l b).domains = x.domains := rfl
@[simp] theorem State.waits_funcs (x : State) (q l : Nat) (b : Bool) : (x.waits q l b).funcs = x.funcs := rfl
@[simp] theorem State.waits_faults (x : State) (q l : Nat) (b : Bool) : (x.waits q l b).faults = x.faults := rfl
@[simp] theorem State.waits_hostReads (x : State) (q l : Nat) (b : Bool) : (x.waits q l b).hostReads = x.hostReads := rfl
@[simp] theorem State.waits_readCtr (x : State) (q l : Nat) (b : Bool) : (x.waits q l b).readCtr = x.readCtr := rfl
@[simp] theorem State.waits_far (x : State) (q l : Nat) (b : Bool) : (x.waits q l b).far = x.far := rfl
@[simp] theorem State.waits_links (x : State) (q l : Nat) (b : Bool) : (x.waits q l b).links = x.links := rfl
@[simp] theorem State.waits_mig (x : State) (q l : Nat) (b : Bool) : (x.waits q l b).mig = x.mig := rfl
@[simp] theorem State.waits_trust (x : State) (q l : Nat) (b : Bool) : (x.waits q l b).trust = x.trust := rfl
@[simp] theorem State.waits_dev (x : State) (q l : Nat) (b : Bool) : (x.waits q l b).dev = x.dev := rfl
@[simp] theorem State.waits_wall (x : State) (q l : Nat) (b : Bool) : (x.waits q l b).wall = x.wall := rfl
@[simp] theorem State.waits_releasing (x : State) (q l : Nat) (b : Bool) : (x.waits q l b).releasing = x.releasing := rfl
@[simp] theorem State.waits_agenda (x : State) (q l : Nat) (b : Bool) : (x.waits q l b).agenda = x.agenda := rfl
@[simp] theorem State.waits_inputs (x : State) (q l : Nat) (b : Bool) : (x.waits q l b).inputs = x.inputs := rfl
@[simp] theorem State.waits_cursor (x : State) (q l : Nat) (b : Bool) : (x.waits q l b).cursor = x.cursor := rfl
@[simp] theorem State.waits_freeCtr (x : State) (q l : Nat) (b : Bool) : (x.waits q l b).freeCtr = x.freeCtr := rfl
@[simp] theorem State.enter_saved (x : State) (f : Folio) : (x.enter f).saved = x.saved := rfl
@[simp] theorem State.enter_dram (x : State) (f : Folio) : (x.enter f).dram = x.dram := rfl
@[simp] theorem State.enter_hostMem (x : State) (f : Folio) : (x.enter f).hostMem = x.hostMem := rfl
@[simp] theorem State.enter_queues (x : State) (f : Folio) : (x.enter f).queues = x.queues := rfl
@[simp] theorem State.enter_arb (x : State) (f : Folio) : (x.enter f).arb = x.arb := rfl
@[simp] theorem State.enter_domains (x : State) (f : Folio) : (x.enter f).domains = x.domains := rfl
@[simp] theorem State.enter_funcs (x : State) (f : Folio) : (x.enter f).funcs = x.funcs := rfl
@[simp] theorem State.enter_faults (x : State) (f : Folio) : (x.enter f).faults = x.faults := rfl
@[simp] theorem State.enter_hostReads (x : State) (f : Folio) : (x.enter f).hostReads = x.hostReads := rfl
@[simp] theorem State.enter_readCtr (x : State) (f : Folio) : (x.enter f).readCtr = x.readCtr := rfl
@[simp] theorem State.enter_far (x : State) (f : Folio) : (x.enter f).far = x.far := rfl
@[simp] theorem State.enter_links (x : State) (f : Folio) : (x.enter f).links = x.links := rfl
@[simp] theorem State.enter_mig (x : State) (f : Folio) : (x.enter f).mig = x.mig := rfl
@[simp] theorem State.enter_dev (x : State) (f : Folio) : (x.enter f).dev = x.dev := rfl
@[simp] theorem State.enter_wall (x : State) (f : Folio) : (x.enter f).wall = x.wall := rfl
@[simp] theorem State.enter_releasing (x : State) (f : Folio) : (x.enter f).releasing = x.releasing := rfl
@[simp] theorem State.enter_agenda (x : State) (f : Folio) : (x.enter f).agenda = x.agenda := rfl
@[simp] theorem State.enter_inputs (x : State) (f : Folio) : (x.enter f).inputs = x.inputs := rfl
@[simp] theorem State.enter_cursor (x : State) (f : Folio) : (x.enter f).cursor = x.cursor := rfl
@[simp] theorem State.enter_freeCtr (x : State) (f : Folio) : (x.enter f).freeCtr = x.freeCtr := rfl
@[simp] theorem Tile.addRaise_ctl (x : Tile) (r : Raise) : (x.addRaise r).ctl = x.ctl := rfl
@[simp] theorem Tile.addRaise_slices (x : Tile) (r : Raise) : (x.addRaise r).slices = x.slices := rfl
@[simp] theorem Tile.addRaise_stores (x : Tile) (r : Raise) : (x.addRaise r).stores = x.stores := rfl
@[simp] theorem Tile.addRaise_tok (x : Tile) (r : Raise) : (x.addRaise r).tok = x.tok := rfl
@[simp] theorem Tile.addRaise_csr (x : Tile) (r : Raise) : (x.addRaise r).csr = x.csr := rfl
@[simp] theorem Tile.addRaise_trap (x : Tile) (r : Raise) : (x.addRaise r).trap = x.trap := rfl
@[simp] theorem Tile.addRaise_wins (x : Tile) (r : Raise) : (x.addRaise r).wins = x.wins := rfl
@[simp] theorem Tile.addRaise_tlb (x : Tile) (r : Raise) : (x.addRaise r).tlb = x.tlb := rfl
@[simp] theorem Tile.addRaise_pend (x : Tile) (r : Raise) : (x.addRaise r).pend = x.pend := rfl
@[simp] theorem Tile.addRaise_ap (x : Tile) (r : Raise) : (x.addRaise r).ap = x.ap := rfl
@[simp] theorem Tile.addRaise_ce (x : Tile) (r : Raise) : (x.addRaise r).ce = x.ce := rfl
@[simp] theorem Tile.addRaise_mx (x : Tile) (r : Raise) : (x.addRaise r).mx = x.mx := rfl
@[simp] theorem Tile.addRaise_net (x : Tile) (r : Raise) : (x.addRaise r).net = x.net := rfl
@[simp] theorem Tile.addRaise_tables (x : Tile) (r : Raise) : (x.addRaise r).tables = x.tables := rfl
@[simp] theorem Tile.addRaise_shadow (x : Tile) (r : Raise) : (x.addRaise r).shadow = x.shadow := rfl
@[simp] theorem Tile.addRaise_halting (x : Tile) (r : Raise) : (x.addRaise r).halting = x.halting := rfl
@[simp] theorem Tile.addRaise_halted (x : Tile) (r : Raise) : (x.addRaise r).halted = x.halted := rfl
@[simp] theorem Tile.addRaise_penNow (x : Tile) (r : Raise) : (x.addRaise r).penNow = x.penNow := rfl
@[simp] theorem Tile.addRaise_brkNow (x : Tile) (r : Raise) : (x.addRaise r).brkNow = x.brkNow := rfl
@[simp] theorem Tile.addRaise_avail (x : Tile) (r : Raise) : (x.addRaise r).avail = x.avail := rfl
@[simp] theorem Tile.addRaise_blocked (x : Tile) (r : Raise) : (x.addRaise r).blocked = x.blocked := rfl
@[simp] theorem Tile.addRaise_granted (x : Tile) (r : Raise) : (x.addRaise r).granted = x.granted := rfl
@[simp] theorem Tile.addRaise_apGo (x : Tile) (r : Raise) : (x.addRaise r).apGo = x.apGo := rfl
@[simp] theorem Tile.addRaise_sigs (x : Tile) (r : Raise) : (x.addRaise r).sigs = x.sigs := rfl
@[simp] theorem Tile.addRaise_evNow (x : Tile) (r : Raise) : (x.addRaise r).evNow = x.evNow := rfl
@[simp] theorem Tile.addRaise_note (x : Tile) (r : Raise) : (x.addRaise r).note = x.note := rfl
@[simp] theorem Tile.addRaise_prof (x : Tile) (r : Raise) : (x.addRaise r).prof = x.prof := rfl
@[simp] theorem Tile.addRaise_probe (x : Tile) (r : Raise) : (x.addRaise r).probe = x.probe := rfl
@[simp] theorem Tile.addRaise_wrote (x : Tile) (r : Raise) : (x.addRaise r).wrote = x.wrote := rfl
@[simp] theorem Tile.addRaise_setters (x : Tile) (r : Raise) : (x.addRaise r).setters = x.setters := rfl
@[simp] theorem Tile.addRaise_sigBy (x : Tile) (r : Raise) : (x.addRaise r).sigBy = x.sigBy := rfl
@[simp] theorem Tile.addRaise_fenced (x : Tile) (r : Raise) : (x.addRaise r).fenced = x.fenced := rfl
@[simp] theorem Tile.post_ctl (x : Tile) (p : PendWrite) : (x.post p).ctl = x.ctl := rfl
@[simp] theorem Tile.post_slices (x : Tile) (p : PendWrite) : (x.post p).slices = x.slices := rfl
@[simp] theorem Tile.post_stores (x : Tile) (p : PendWrite) : (x.post p).stores = x.stores := rfl
@[simp] theorem Tile.post_tok (x : Tile) (p : PendWrite) : (x.post p).tok = x.tok := rfl
@[simp] theorem Tile.post_csr (x : Tile) (p : PendWrite) : (x.post p).csr = x.csr := rfl
@[simp] theorem Tile.post_trap (x : Tile) (p : PendWrite) : (x.post p).trap = x.trap := rfl
@[simp] theorem Tile.post_wins (x : Tile) (p : PendWrite) : (x.post p).wins = x.wins := rfl
@[simp] theorem Tile.post_tlb (x : Tile) (p : PendWrite) : (x.post p).tlb = x.tlb := rfl
@[simp] theorem Tile.post_ap (x : Tile) (p : PendWrite) : (x.post p).ap = x.ap := rfl
@[simp] theorem Tile.post_ce (x : Tile) (p : PendWrite) : (x.post p).ce = x.ce := rfl
@[simp] theorem Tile.post_mx (x : Tile) (p : PendWrite) : (x.post p).mx = x.mx := rfl
@[simp] theorem Tile.post_net (x : Tile) (p : PendWrite) : (x.post p).net = x.net := rfl
@[simp] theorem Tile.post_tables (x : Tile) (p : PendWrite) : (x.post p).tables = x.tables := rfl
@[simp] theorem Tile.post_shadow (x : Tile) (p : PendWrite) : (x.post p).shadow = x.shadow := rfl
@[simp] theorem Tile.post_halting (x : Tile) (p : PendWrite) : (x.post p).halting = x.halting := rfl
@[simp] theorem Tile.post_halted (x : Tile) (p : PendWrite) : (x.post p).halted = x.halted := rfl
@[simp] theorem Tile.post_penNow (x : Tile) (p : PendWrite) : (x.post p).penNow = x.penNow := rfl
@[simp] theorem Tile.post_brkNow (x : Tile) (p : PendWrite) : (x.post p).brkNow = x.brkNow := rfl
@[simp] theorem Tile.post_raises (x : Tile) (p : PendWrite) : (x.post p).raises = x.raises := rfl
@[simp] theorem Tile.post_avail (x : Tile) (p : PendWrite) : (x.post p).avail = x.avail := rfl
@[simp] theorem Tile.post_blocked (x : Tile) (p : PendWrite) : (x.post p).blocked = x.blocked := rfl
@[simp] theorem Tile.post_granted (x : Tile) (p : PendWrite) : (x.post p).granted = x.granted := rfl
@[simp] theorem Tile.post_apGo (x : Tile) (p : PendWrite) : (x.post p).apGo = x.apGo := rfl
@[simp] theorem Tile.post_sigs (x : Tile) (p : PendWrite) : (x.post p).sigs = x.sigs := rfl
@[simp] theorem Tile.post_evNow (x : Tile) (p : PendWrite) : (x.post p).evNow = x.evNow := rfl
@[simp] theorem Tile.post_note (x : Tile) (p : PendWrite) : (x.post p).note = x.note := rfl
@[simp] theorem Tile.post_prof (x : Tile) (p : PendWrite) : (x.post p).prof = x.prof := rfl
@[simp] theorem Tile.post_probe (x : Tile) (p : PendWrite) : (x.post p).probe = x.probe := rfl
@[simp] theorem Tile.post_wrote (x : Tile) (p : PendWrite) : (x.post p).wrote = x.wrote := rfl
@[simp] theorem Tile.post_setters (x : Tile) (p : PendWrite) : (x.post p).setters = x.setters := rfl
@[simp] theorem Tile.post_sigBy (x : Tile) (p : PendWrite) : (x.post p).sigBy = x.sigBy := rfl
@[simp] theorem Tile.post_fenced (x : Tile) (p : PendWrite) : (x.post p).fenced = x.fenced := rfl
@[simp] theorem Tile.later_ctl (x : Tile) (c : Ctx) (lat : Nat) (d : PendDest) (ev : List (Nat × Nat)) : (x.later c lat d ev).ctl = x.ctl := rfl
@[simp] theorem Tile.later_slices (x : Tile) (c : Ctx) (lat : Nat) (d : PendDest) (ev : List (Nat × Nat)) : (x.later c lat d ev).slices = x.slices := rfl
@[simp] theorem Tile.later_stores (x : Tile) (c : Ctx) (lat : Nat) (d : PendDest) (ev : List (Nat × Nat)) : (x.later c lat d ev).stores = x.stores := rfl
@[simp] theorem Tile.later_tok (x : Tile) (c : Ctx) (lat : Nat) (d : PendDest) (ev : List (Nat × Nat)) : (x.later c lat d ev).tok = x.tok := rfl
@[simp] theorem Tile.later_csr (x : Tile) (c : Ctx) (lat : Nat) (d : PendDest) (ev : List (Nat × Nat)) : (x.later c lat d ev).csr = x.csr := rfl
@[simp] theorem Tile.later_trap (x : Tile) (c : Ctx) (lat : Nat) (d : PendDest) (ev : List (Nat × Nat)) : (x.later c lat d ev).trap = x.trap := rfl
@[simp] theorem Tile.later_wins (x : Tile) (c : Ctx) (lat : Nat) (d : PendDest) (ev : List (Nat × Nat)) : (x.later c lat d ev).wins = x.wins := rfl
@[simp] theorem Tile.later_tlb (x : Tile) (c : Ctx) (lat : Nat) (d : PendDest) (ev : List (Nat × Nat)) : (x.later c lat d ev).tlb = x.tlb := rfl
@[simp] theorem Tile.later_ap (x : Tile) (c : Ctx) (lat : Nat) (d : PendDest) (ev : List (Nat × Nat)) : (x.later c lat d ev).ap = x.ap := rfl
@[simp] theorem Tile.later_ce (x : Tile) (c : Ctx) (lat : Nat) (d : PendDest) (ev : List (Nat × Nat)) : (x.later c lat d ev).ce = x.ce := rfl
@[simp] theorem Tile.later_mx (x : Tile) (c : Ctx) (lat : Nat) (d : PendDest) (ev : List (Nat × Nat)) : (x.later c lat d ev).mx = x.mx := rfl
@[simp] theorem Tile.later_net (x : Tile) (c : Ctx) (lat : Nat) (d : PendDest) (ev : List (Nat × Nat)) : (x.later c lat d ev).net = x.net := rfl
@[simp] theorem Tile.later_tables (x : Tile) (c : Ctx) (lat : Nat) (d : PendDest) (ev : List (Nat × Nat)) : (x.later c lat d ev).tables = x.tables := rfl
@[simp] theorem Tile.later_shadow (x : Tile) (c : Ctx) (lat : Nat) (d : PendDest) (ev : List (Nat × Nat)) : (x.later c lat d ev).shadow = x.shadow := rfl
@[simp] theorem Tile.later_halting (x : Tile) (c : Ctx) (lat : Nat) (d : PendDest) (ev : List (Nat × Nat)) : (x.later c lat d ev).halting = x.halting := rfl
@[simp] theorem Tile.later_halted (x : Tile) (c : Ctx) (lat : Nat) (d : PendDest) (ev : List (Nat × Nat)) : (x.later c lat d ev).halted = x.halted := rfl
@[simp] theorem Tile.later_penNow (x : Tile) (c : Ctx) (lat : Nat) (d : PendDest) (ev : List (Nat × Nat)) : (x.later c lat d ev).penNow = x.penNow := rfl
@[simp] theorem Tile.later_brkNow (x : Tile) (c : Ctx) (lat : Nat) (d : PendDest) (ev : List (Nat × Nat)) : (x.later c lat d ev).brkNow = x.brkNow := rfl
@[simp] theorem Tile.later_raises (x : Tile) (c : Ctx) (lat : Nat) (d : PendDest) (ev : List (Nat × Nat)) : (x.later c lat d ev).raises = x.raises := rfl
@[simp] theorem Tile.later_avail (x : Tile) (c : Ctx) (lat : Nat) (d : PendDest) (ev : List (Nat × Nat)) : (x.later c lat d ev).avail = x.avail := rfl
@[simp] theorem Tile.later_blocked (x : Tile) (c : Ctx) (lat : Nat) (d : PendDest) (ev : List (Nat × Nat)) : (x.later c lat d ev).blocked = x.blocked := rfl
@[simp] theorem Tile.later_granted (x : Tile) (c : Ctx) (lat : Nat) (d : PendDest) (ev : List (Nat × Nat)) : (x.later c lat d ev).granted = x.granted := rfl
@[simp] theorem Tile.later_apGo (x : Tile) (c : Ctx) (lat : Nat) (d : PendDest) (ev : List (Nat × Nat)) : (x.later c lat d ev).apGo = x.apGo := rfl
@[simp] theorem Tile.later_sigs (x : Tile) (c : Ctx) (lat : Nat) (d : PendDest) (ev : List (Nat × Nat)) : (x.later c lat d ev).sigs = x.sigs := rfl
@[simp] theorem Tile.later_evNow (x : Tile) (c : Ctx) (lat : Nat) (d : PendDest) (ev : List (Nat × Nat)) : (x.later c lat d ev).evNow = x.evNow := rfl
@[simp] theorem Tile.later_note (x : Tile) (c : Ctx) (lat : Nat) (d : PendDest) (ev : List (Nat × Nat)) : (x.later c lat d ev).note = x.note := rfl
@[simp] theorem Tile.later_prof (x : Tile) (c : Ctx) (lat : Nat) (d : PendDest) (ev : List (Nat × Nat)) : (x.later c lat d ev).prof = x.prof := rfl
@[simp] theorem Tile.later_probe (x : Tile) (c : Ctx) (lat : Nat) (d : PendDest) (ev : List (Nat × Nat)) : (x.later c lat d ev).probe = x.probe := rfl
@[simp] theorem Tile.later_wrote (x : Tile) (c : Ctx) (lat : Nat) (d : PendDest) (ev : List (Nat × Nat)) : (x.later c lat d ev).wrote = x.wrote := rfl
@[simp] theorem Tile.later_setters (x : Tile) (c : Ctx) (lat : Nat) (d : PendDest) (ev : List (Nat × Nat)) : (x.later c lat d ev).setters = x.setters := rfl
@[simp] theorem Tile.later_sigBy (x : Tile) (c : Ctx) (lat : Nat) (d : PendDest) (ev : List (Nat × Nat)) : (x.later c lat d ev).sigBy = x.sigBy := rfl
@[simp] theorem Tile.later_fenced (x : Tile) (c : Ctx) (lat : Nat) (d : PendDest) (ev : List (Nat × Nat)) : (x.later c lat d ev).fenced = x.fenced := rfl
@[simp] theorem Tile.issued_slices (x : Tile) (c : Ctx) (debit : Nat) : (x.issued c debit).slices = x.slices := rfl
@[simp] theorem Tile.issued_stores (x : Tile) (c : Ctx) (debit : Nat) : (x.issued c debit).stores = x.stores := rfl
@[simp] theorem Tile.issued_tok (x : Tile) (c : Ctx) (debit : Nat) : (x.issued c debit).tok = x.tok := rfl
@[simp] theorem Tile.issued_csr (x : Tile) (c : Ctx) (debit : Nat) : (x.issued c debit).csr = x.csr := rfl
@[simp] theorem Tile.issued_trap (x : Tile) (c : Ctx) (debit : Nat) : (x.issued c debit).trap = x.trap := rfl
@[simp] theorem Tile.issued_wins (x : Tile) (c : Ctx) (debit : Nat) : (x.issued c debit).wins = x.wins := rfl
@[simp] theorem Tile.issued_tlb (x : Tile) (c : Ctx) (debit : Nat) : (x.issued c debit).tlb = x.tlb := rfl
@[simp] theorem Tile.issued_pend (x : Tile) (c : Ctx) (debit : Nat) : (x.issued c debit).pend = x.pend := rfl
@[simp] theorem Tile.issued_ap (x : Tile) (c : Ctx) (debit : Nat) : (x.issued c debit).ap = x.ap := rfl
@[simp] theorem Tile.issued_ce (x : Tile) (c : Ctx) (debit : Nat) : (x.issued c debit).ce = x.ce := rfl
@[simp] theorem Tile.issued_mx (x : Tile) (c : Ctx) (debit : Nat) : (x.issued c debit).mx = x.mx := rfl
@[simp] theorem Tile.issued_net (x : Tile) (c : Ctx) (debit : Nat) : (x.issued c debit).net = x.net := rfl
@[simp] theorem Tile.issued_tables (x : Tile) (c : Ctx) (debit : Nat) : (x.issued c debit).tables = x.tables := rfl
@[simp] theorem Tile.issued_shadow (x : Tile) (c : Ctx) (debit : Nat) : (x.issued c debit).shadow = x.shadow := rfl
@[simp] theorem Tile.issued_halting (x : Tile) (c : Ctx) (debit : Nat) : (x.issued c debit).halting = x.halting := rfl
@[simp] theorem Tile.issued_halted (x : Tile) (c : Ctx) (debit : Nat) : (x.issued c debit).halted = x.halted := rfl
@[simp] theorem Tile.issued_penNow (x : Tile) (c : Ctx) (debit : Nat) : (x.issued c debit).penNow = x.penNow := rfl
@[simp] theorem Tile.issued_brkNow (x : Tile) (c : Ctx) (debit : Nat) : (x.issued c debit).brkNow = x.brkNow := rfl
@[simp] theorem Tile.issued_raises (x : Tile) (c : Ctx) (debit : Nat) : (x.issued c debit).raises = x.raises := rfl
@[simp] theorem Tile.issued_blocked (x : Tile) (c : Ctx) (debit : Nat) : (x.issued c debit).blocked = x.blocked := rfl
@[simp] theorem Tile.issued_granted (x : Tile) (c : Ctx) (debit : Nat) : (x.issued c debit).granted = x.granted := rfl
@[simp] theorem Tile.issued_apGo (x : Tile) (c : Ctx) (debit : Nat) : (x.issued c debit).apGo = x.apGo := rfl
@[simp] theorem Tile.issued_sigs (x : Tile) (c : Ctx) (debit : Nat) : (x.issued c debit).sigs = x.sigs := rfl
@[simp] theorem Tile.issued_evNow (x : Tile) (c : Ctx) (debit : Nat) : (x.issued c debit).evNow = x.evNow := rfl
@[simp] theorem Tile.issued_note (x : Tile) (c : Ctx) (debit : Nat) : (x.issued c debit).note = x.note := rfl
@[simp] theorem Tile.issued_probe (x : Tile) (c : Ctx) (debit : Nat) : (x.issued c debit).probe = x.probe := rfl
@[simp] theorem Tile.issued_wrote (x : Tile) (c : Ctx) (debit : Nat) : (x.issued c debit).wrote = x.wrote := rfl
@[simp] theorem Tile.issued_setters (x : Tile) (c : Ctx) (debit : Nat) : (x.issued c debit).setters = x.setters := rfl
@[simp] theorem Tile.issued_sigBy (x : Tile) (c : Ctx) (debit : Nat) : (x.issued c debit).sigBy = x.sigBy := rfl
@[simp] theorem Tile.issued_fenced (x : Tile) (c : Ctx) (debit : Nat) : (x.issued c debit).fenced = x.fenced := rfl
@[simp] theorem Tile.access_ctl (x : Tile) (c : Ctx) (cls : Nat) (k : ApKind) : (x.access c cls k).ctl = x.ctl := rfl
@[simp] theorem Tile.access_slices (x : Tile) (c : Ctx) (cls : Nat) (k : ApKind) : (x.access c cls k).slices = x.slices := rfl
@[simp] theorem Tile.access_stores (x : Tile) (c : Ctx) (cls : Nat) (k : ApKind) : (x.access c cls k).stores = x.stores := rfl
@[simp] theorem Tile.access_tok (x : Tile) (c : Ctx) (cls : Nat) (k : ApKind) : (x.access c cls k).tok = x.tok := rfl
@[simp] theorem Tile.access_csr (x : Tile) (c : Ctx) (cls : Nat) (k : ApKind) : (x.access c cls k).csr = x.csr := rfl
@[simp] theorem Tile.access_trap (x : Tile) (c : Ctx) (cls : Nat) (k : ApKind) : (x.access c cls k).trap = x.trap := rfl
@[simp] theorem Tile.access_wins (x : Tile) (c : Ctx) (cls : Nat) (k : ApKind) : (x.access c cls k).wins = x.wins := rfl
@[simp] theorem Tile.access_tlb (x : Tile) (c : Ctx) (cls : Nat) (k : ApKind) : (x.access c cls k).tlb = x.tlb := rfl
@[simp] theorem Tile.access_pend (x : Tile) (c : Ctx) (cls : Nat) (k : ApKind) : (x.access c cls k).pend = x.pend := rfl
@[simp] theorem Tile.access_ce (x : Tile) (c : Ctx) (cls : Nat) (k : ApKind) : (x.access c cls k).ce = x.ce := rfl
@[simp] theorem Tile.access_mx (x : Tile) (c : Ctx) (cls : Nat) (k : ApKind) : (x.access c cls k).mx = x.mx := rfl
@[simp] theorem Tile.access_net (x : Tile) (c : Ctx) (cls : Nat) (k : ApKind) : (x.access c cls k).net = x.net := rfl
@[simp] theorem Tile.access_tables (x : Tile) (c : Ctx) (cls : Nat) (k : ApKind) : (x.access c cls k).tables = x.tables := rfl
@[simp] theorem Tile.access_shadow (x : Tile) (c : Ctx) (cls : Nat) (k : ApKind) : (x.access c cls k).shadow = x.shadow := rfl
@[simp] theorem Tile.access_halting (x : Tile) (c : Ctx) (cls : Nat) (k : ApKind) : (x.access c cls k).halting = x.halting := rfl
@[simp] theorem Tile.access_halted (x : Tile) (c : Ctx) (cls : Nat) (k : ApKind) : (x.access c cls k).halted = x.halted := rfl
@[simp] theorem Tile.access_penNow (x : Tile) (c : Ctx) (cls : Nat) (k : ApKind) : (x.access c cls k).penNow = x.penNow := rfl
@[simp] theorem Tile.access_brkNow (x : Tile) (c : Ctx) (cls : Nat) (k : ApKind) : (x.access c cls k).brkNow = x.brkNow := rfl
@[simp] theorem Tile.access_raises (x : Tile) (c : Ctx) (cls : Nat) (k : ApKind) : (x.access c cls k).raises = x.raises := rfl
@[simp] theorem Tile.access_avail (x : Tile) (c : Ctx) (cls : Nat) (k : ApKind) : (x.access c cls k).avail = x.avail := rfl
@[simp] theorem Tile.access_blocked (x : Tile) (c : Ctx) (cls : Nat) (k : ApKind) : (x.access c cls k).blocked = x.blocked := rfl
@[simp] theorem Tile.access_granted (x : Tile) (c : Ctx) (cls : Nat) (k : ApKind) : (x.access c cls k).granted = x.granted := rfl
@[simp] theorem Tile.access_apGo (x : Tile) (c : Ctx) (cls : Nat) (k : ApKind) : (x.access c cls k).apGo = x.apGo := rfl
@[simp] theorem Tile.access_sigs (x : Tile) (c : Ctx) (cls : Nat) (k : ApKind) : (x.access c cls k).sigs = x.sigs := rfl
@[simp] theorem Tile.access_evNow (x : Tile) (c : Ctx) (cls : Nat) (k : ApKind) : (x.access c cls k).evNow = x.evNow := rfl
@[simp] theorem Tile.access_note (x : Tile) (c : Ctx) (cls : Nat) (k : ApKind) : (x.access c cls k).note = x.note := rfl
@[simp] theorem Tile.access_prof (x : Tile) (c : Ctx) (cls : Nat) (k : ApKind) : (x.access c cls k).prof = x.prof := rfl
@[simp] theorem Tile.access_probe (x : Tile) (c : Ctx) (cls : Nat) (k : ApKind) : (x.access c cls k).probe = x.probe := rfl
@[simp] theorem Tile.access_wrote (x : Tile) (c : Ctx) (cls : Nat) (k : ApKind) : (x.access c cls k).wrote = x.wrote := rfl
@[simp] theorem Tile.access_setters (x : Tile) (c : Ctx) (cls : Nat) (k : ApKind) : (x.access c cls k).setters = x.setters := rfl
@[simp] theorem Tile.access_sigBy (x : Tile) (c : Ctx) (cls : Nat) (k : ApKind) : (x.access c cls k).sigBy = x.sigBy := rfl
@[simp] theorem Tile.access_fenced (x : Tile) (c : Ctx) (cls : Nat) (k : ApKind) : (x.access c cls k).fenced = x.fenced := rfl
@[simp] theorem Tile.onRouter_ctl (x : Tile) (h : Router → Router) : (x.onRouter h).ctl = x.ctl := rfl
@[simp] theorem Tile.onRouter_slices (x : Tile) (h : Router → Router) : (x.onRouter h).slices = x.slices := rfl
@[simp] theorem Tile.onRouter_stores (x : Tile) (h : Router → Router) : (x.onRouter h).stores = x.stores := rfl
@[simp] theorem Tile.onRouter_tok (x : Tile) (h : Router → Router) : (x.onRouter h).tok = x.tok := rfl
@[simp] theorem Tile.onRouter_csr (x : Tile) (h : Router → Router) : (x.onRouter h).csr = x.csr := rfl
@[simp] theorem Tile.onRouter_trap (x : Tile) (h : Router → Router) : (x.onRouter h).trap = x.trap := rfl
@[simp] theorem Tile.onRouter_wins (x : Tile) (h : Router → Router) : (x.onRouter h).wins = x.wins := rfl
@[simp] theorem Tile.onRouter_tlb (x : Tile) (h : Router → Router) : (x.onRouter h).tlb = x.tlb := rfl
@[simp] theorem Tile.onRouter_pend (x : Tile) (h : Router → Router) : (x.onRouter h).pend = x.pend := rfl
@[simp] theorem Tile.onRouter_ap (x : Tile) (h : Router → Router) : (x.onRouter h).ap = x.ap := rfl
@[simp] theorem Tile.onRouter_ce (x : Tile) (h : Router → Router) : (x.onRouter h).ce = x.ce := rfl
@[simp] theorem Tile.onRouter_mx (x : Tile) (h : Router → Router) : (x.onRouter h).mx = x.mx := rfl
@[simp] theorem Tile.onRouter_tables (x : Tile) (h : Router → Router) : (x.onRouter h).tables = x.tables := rfl
@[simp] theorem Tile.onRouter_shadow (x : Tile) (h : Router → Router) : (x.onRouter h).shadow = x.shadow := rfl
@[simp] theorem Tile.onRouter_halting (x : Tile) (h : Router → Router) : (x.onRouter h).halting = x.halting := rfl
@[simp] theorem Tile.onRouter_halted (x : Tile) (h : Router → Router) : (x.onRouter h).halted = x.halted := rfl
@[simp] theorem Tile.onRouter_penNow (x : Tile) (h : Router → Router) : (x.onRouter h).penNow = x.penNow := rfl
@[simp] theorem Tile.onRouter_brkNow (x : Tile) (h : Router → Router) : (x.onRouter h).brkNow = x.brkNow := rfl
@[simp] theorem Tile.onRouter_raises (x : Tile) (h : Router → Router) : (x.onRouter h).raises = x.raises := rfl
@[simp] theorem Tile.onRouter_avail (x : Tile) (h : Router → Router) : (x.onRouter h).avail = x.avail := rfl
@[simp] theorem Tile.onRouter_blocked (x : Tile) (h : Router → Router) : (x.onRouter h).blocked = x.blocked := rfl
@[simp] theorem Tile.onRouter_granted (x : Tile) (h : Router → Router) : (x.onRouter h).granted = x.granted := rfl
@[simp] theorem Tile.onRouter_apGo (x : Tile) (h : Router → Router) : (x.onRouter h).apGo = x.apGo := rfl
@[simp] theorem Tile.onRouter_sigs (x : Tile) (h : Router → Router) : (x.onRouter h).sigs = x.sigs := rfl
@[simp] theorem Tile.onRouter_evNow (x : Tile) (h : Router → Router) : (x.onRouter h).evNow = x.evNow := rfl
@[simp] theorem Tile.onRouter_note (x : Tile) (h : Router → Router) : (x.onRouter h).note = x.note := rfl
@[simp] theorem Tile.onRouter_prof (x : Tile) (h : Router → Router) : (x.onRouter h).prof = x.prof := rfl
@[simp] theorem Tile.onRouter_probe (x : Tile) (h : Router → Router) : (x.onRouter h).probe = x.probe := rfl
@[simp] theorem Tile.onRouter_wrote (x : Tile) (h : Router → Router) : (x.onRouter h).wrote = x.wrote := rfl
@[simp] theorem Tile.onRouter_setters (x : Tile) (h : Router → Router) : (x.onRouter h).setters = x.setters := rfl
@[simp] theorem Tile.onRouter_sigBy (x : Tile) (h : Router → Router) : (x.onRouter h).sigBy = x.sigBy := rfl
@[simp] theorem Tile.onRouter_fenced (x : Tile) (h : Router → Router) : (x.onRouter h).fenced = x.fenced := rfl
@[simp] theorem Tile.addLine_ctl (x : Tile) (l : CeLine) : (x.addLine l).ctl = x.ctl := rfl
@[simp] theorem Tile.addLine_slices (x : Tile) (l : CeLine) : (x.addLine l).slices = x.slices := rfl
@[simp] theorem Tile.addLine_stores (x : Tile) (l : CeLine) : (x.addLine l).stores = x.stores := rfl
@[simp] theorem Tile.addLine_tok (x : Tile) (l : CeLine) : (x.addLine l).tok = x.tok := rfl
@[simp] theorem Tile.addLine_csr (x : Tile) (l : CeLine) : (x.addLine l).csr = x.csr := rfl
@[simp] theorem Tile.addLine_trap (x : Tile) (l : CeLine) : (x.addLine l).trap = x.trap := rfl
@[simp] theorem Tile.addLine_wins (x : Tile) (l : CeLine) : (x.addLine l).wins = x.wins := rfl
@[simp] theorem Tile.addLine_tlb (x : Tile) (l : CeLine) : (x.addLine l).tlb = x.tlb := rfl
@[simp] theorem Tile.addLine_pend (x : Tile) (l : CeLine) : (x.addLine l).pend = x.pend := rfl
@[simp] theorem Tile.addLine_ap (x : Tile) (l : CeLine) : (x.addLine l).ap = x.ap := rfl
@[simp] theorem Tile.addLine_mx (x : Tile) (l : CeLine) : (x.addLine l).mx = x.mx := rfl
@[simp] theorem Tile.addLine_net (x : Tile) (l : CeLine) : (x.addLine l).net = x.net := rfl
@[simp] theorem Tile.addLine_tables (x : Tile) (l : CeLine) : (x.addLine l).tables = x.tables := rfl
@[simp] theorem Tile.addLine_shadow (x : Tile) (l : CeLine) : (x.addLine l).shadow = x.shadow := rfl
@[simp] theorem Tile.addLine_halting (x : Tile) (l : CeLine) : (x.addLine l).halting = x.halting := rfl
@[simp] theorem Tile.addLine_halted (x : Tile) (l : CeLine) : (x.addLine l).halted = x.halted := rfl
@[simp] theorem Tile.addLine_penNow (x : Tile) (l : CeLine) : (x.addLine l).penNow = x.penNow := rfl
@[simp] theorem Tile.addLine_brkNow (x : Tile) (l : CeLine) : (x.addLine l).brkNow = x.brkNow := rfl
@[simp] theorem Tile.addLine_raises (x : Tile) (l : CeLine) : (x.addLine l).raises = x.raises := rfl
@[simp] theorem Tile.addLine_avail (x : Tile) (l : CeLine) : (x.addLine l).avail = x.avail := rfl
@[simp] theorem Tile.addLine_blocked (x : Tile) (l : CeLine) : (x.addLine l).blocked = x.blocked := rfl
@[simp] theorem Tile.addLine_granted (x : Tile) (l : CeLine) : (x.addLine l).granted = x.granted := rfl
@[simp] theorem Tile.addLine_apGo (x : Tile) (l : CeLine) : (x.addLine l).apGo = x.apGo := rfl
@[simp] theorem Tile.addLine_sigs (x : Tile) (l : CeLine) : (x.addLine l).sigs = x.sigs := rfl
@[simp] theorem Tile.addLine_evNow (x : Tile) (l : CeLine) : (x.addLine l).evNow = x.evNow := rfl
@[simp] theorem Tile.addLine_note (x : Tile) (l : CeLine) : (x.addLine l).note = x.note := rfl
@[simp] theorem Tile.addLine_prof (x : Tile) (l : CeLine) : (x.addLine l).prof = x.prof := rfl
@[simp] theorem Tile.addLine_probe (x : Tile) (l : CeLine) : (x.addLine l).probe = x.probe := rfl
@[simp] theorem Tile.addLine_wrote (x : Tile) (l : CeLine) : (x.addLine l).wrote = x.wrote := rfl
@[simp] theorem Tile.addLine_setters (x : Tile) (l : CeLine) : (x.addLine l).setters = x.setters := rfl
@[simp] theorem Tile.addLine_sigBy (x : Tile) (l : CeLine) : (x.addLine l).sigBy = x.sigBy := rfl
@[simp] theorem Tile.addLine_fenced (x : Tile) (l : CeLine) : (x.addLine l).fenced = x.fenced := rfl
@[simp] theorem Tile.onCmd_ctl (x : Tile) (id : Nat) (h : CeCmd → CeCmd) : (x.onCmd id h).ctl = x.ctl := rfl
@[simp] theorem Tile.onCmd_slices (x : Tile) (id : Nat) (h : CeCmd → CeCmd) : (x.onCmd id h).slices = x.slices := rfl
@[simp] theorem Tile.onCmd_stores (x : Tile) (id : Nat) (h : CeCmd → CeCmd) : (x.onCmd id h).stores = x.stores := rfl
@[simp] theorem Tile.onCmd_tok (x : Tile) (id : Nat) (h : CeCmd → CeCmd) : (x.onCmd id h).tok = x.tok := rfl
@[simp] theorem Tile.onCmd_csr (x : Tile) (id : Nat) (h : CeCmd → CeCmd) : (x.onCmd id h).csr = x.csr := rfl
@[simp] theorem Tile.onCmd_trap (x : Tile) (id : Nat) (h : CeCmd → CeCmd) : (x.onCmd id h).trap = x.trap := rfl
@[simp] theorem Tile.onCmd_wins (x : Tile) (id : Nat) (h : CeCmd → CeCmd) : (x.onCmd id h).wins = x.wins := rfl
@[simp] theorem Tile.onCmd_tlb (x : Tile) (id : Nat) (h : CeCmd → CeCmd) : (x.onCmd id h).tlb = x.tlb := rfl
@[simp] theorem Tile.onCmd_pend (x : Tile) (id : Nat) (h : CeCmd → CeCmd) : (x.onCmd id h).pend = x.pend := rfl
@[simp] theorem Tile.onCmd_ap (x : Tile) (id : Nat) (h : CeCmd → CeCmd) : (x.onCmd id h).ap = x.ap := rfl
@[simp] theorem Tile.onCmd_mx (x : Tile) (id : Nat) (h : CeCmd → CeCmd) : (x.onCmd id h).mx = x.mx := rfl
@[simp] theorem Tile.onCmd_net (x : Tile) (id : Nat) (h : CeCmd → CeCmd) : (x.onCmd id h).net = x.net := rfl
@[simp] theorem Tile.onCmd_tables (x : Tile) (id : Nat) (h : CeCmd → CeCmd) : (x.onCmd id h).tables = x.tables := rfl
@[simp] theorem Tile.onCmd_shadow (x : Tile) (id : Nat) (h : CeCmd → CeCmd) : (x.onCmd id h).shadow = x.shadow := rfl
@[simp] theorem Tile.onCmd_halting (x : Tile) (id : Nat) (h : CeCmd → CeCmd) : (x.onCmd id h).halting = x.halting := rfl
@[simp] theorem Tile.onCmd_halted (x : Tile) (id : Nat) (h : CeCmd → CeCmd) : (x.onCmd id h).halted = x.halted := rfl
@[simp] theorem Tile.onCmd_penNow (x : Tile) (id : Nat) (h : CeCmd → CeCmd) : (x.onCmd id h).penNow = x.penNow := rfl
@[simp] theorem Tile.onCmd_brkNow (x : Tile) (id : Nat) (h : CeCmd → CeCmd) : (x.onCmd id h).brkNow = x.brkNow := rfl
@[simp] theorem Tile.onCmd_raises (x : Tile) (id : Nat) (h : CeCmd → CeCmd) : (x.onCmd id h).raises = x.raises := rfl
@[simp] theorem Tile.onCmd_avail (x : Tile) (id : Nat) (h : CeCmd → CeCmd) : (x.onCmd id h).avail = x.avail := rfl
@[simp] theorem Tile.onCmd_blocked (x : Tile) (id : Nat) (h : CeCmd → CeCmd) : (x.onCmd id h).blocked = x.blocked := rfl
@[simp] theorem Tile.onCmd_granted (x : Tile) (id : Nat) (h : CeCmd → CeCmd) : (x.onCmd id h).granted = x.granted := rfl
@[simp] theorem Tile.onCmd_apGo (x : Tile) (id : Nat) (h : CeCmd → CeCmd) : (x.onCmd id h).apGo = x.apGo := rfl
@[simp] theorem Tile.onCmd_sigs (x : Tile) (id : Nat) (h : CeCmd → CeCmd) : (x.onCmd id h).sigs = x.sigs := rfl
@[simp] theorem Tile.onCmd_evNow (x : Tile) (id : Nat) (h : CeCmd → CeCmd) : (x.onCmd id h).evNow = x.evNow := rfl
@[simp] theorem Tile.onCmd_note (x : Tile) (id : Nat) (h : CeCmd → CeCmd) : (x.onCmd id h).note = x.note := rfl
@[simp] theorem Tile.onCmd_prof (x : Tile) (id : Nat) (h : CeCmd → CeCmd) : (x.onCmd id h).prof = x.prof := rfl
@[simp] theorem Tile.onCmd_probe (x : Tile) (id : Nat) (h : CeCmd → CeCmd) : (x.onCmd id h).probe = x.probe := rfl
@[simp] theorem Tile.onCmd_wrote (x : Tile) (id : Nat) (h : CeCmd → CeCmd) : (x.onCmd id h).wrote = x.wrote := rfl
@[simp] theorem Tile.onCmd_setters (x : Tile) (id : Nat) (h : CeCmd → CeCmd) : (x.onCmd id h).setters = x.setters := rfl
@[simp] theorem Tile.onCmd_sigBy (x : Tile) (id : Nat) (h : CeCmd → CeCmd) : (x.onCmd id h).sigBy = x.sigBy := rfl
@[simp] theorem Tile.onCmd_fenced (x : Tile) (id : Nat) (h : CeCmd → CeCmd) : (x.onCmd id h).fenced = x.fenced := rfl
@[simp] theorem Tile.addCmd_ctl (x : Tile) (m : CeCmd) (n : Nat) : (x.addCmd m n).ctl = x.ctl := rfl
@[simp] theorem Tile.addCmd_slices (x : Tile) (m : CeCmd) (n : Nat) : (x.addCmd m n).slices = x.slices := rfl
@[simp] theorem Tile.addCmd_stores (x : Tile) (m : CeCmd) (n : Nat) : (x.addCmd m n).stores = x.stores := rfl
@[simp] theorem Tile.addCmd_tok (x : Tile) (m : CeCmd) (n : Nat) : (x.addCmd m n).tok = x.tok := rfl
@[simp] theorem Tile.addCmd_csr (x : Tile) (m : CeCmd) (n : Nat) : (x.addCmd m n).csr = x.csr := rfl
@[simp] theorem Tile.addCmd_trap (x : Tile) (m : CeCmd) (n : Nat) : (x.addCmd m n).trap = x.trap := rfl
@[simp] theorem Tile.addCmd_wins (x : Tile) (m : CeCmd) (n : Nat) : (x.addCmd m n).wins = x.wins := rfl
@[simp] theorem Tile.addCmd_tlb (x : Tile) (m : CeCmd) (n : Nat) : (x.addCmd m n).tlb = x.tlb := rfl
@[simp] theorem Tile.addCmd_pend (x : Tile) (m : CeCmd) (n : Nat) : (x.addCmd m n).pend = x.pend := rfl
@[simp] theorem Tile.addCmd_ap (x : Tile) (m : CeCmd) (n : Nat) : (x.addCmd m n).ap = x.ap := rfl
@[simp] theorem Tile.addCmd_mx (x : Tile) (m : CeCmd) (n : Nat) : (x.addCmd m n).mx = x.mx := rfl
@[simp] theorem Tile.addCmd_net (x : Tile) (m : CeCmd) (n : Nat) : (x.addCmd m n).net = x.net := rfl
@[simp] theorem Tile.addCmd_tables (x : Tile) (m : CeCmd) (n : Nat) : (x.addCmd m n).tables = x.tables := rfl
@[simp] theorem Tile.addCmd_shadow (x : Tile) (m : CeCmd) (n : Nat) : (x.addCmd m n).shadow = x.shadow := rfl
@[simp] theorem Tile.addCmd_halting (x : Tile) (m : CeCmd) (n : Nat) : (x.addCmd m n).halting = x.halting := rfl
@[simp] theorem Tile.addCmd_halted (x : Tile) (m : CeCmd) (n : Nat) : (x.addCmd m n).halted = x.halted := rfl
@[simp] theorem Tile.addCmd_penNow (x : Tile) (m : CeCmd) (n : Nat) : (x.addCmd m n).penNow = x.penNow := rfl
@[simp] theorem Tile.addCmd_brkNow (x : Tile) (m : CeCmd) (n : Nat) : (x.addCmd m n).brkNow = x.brkNow := rfl
@[simp] theorem Tile.addCmd_raises (x : Tile) (m : CeCmd) (n : Nat) : (x.addCmd m n).raises = x.raises := rfl
@[simp] theorem Tile.addCmd_avail (x : Tile) (m : CeCmd) (n : Nat) : (x.addCmd m n).avail = x.avail := rfl
@[simp] theorem Tile.addCmd_blocked (x : Tile) (m : CeCmd) (n : Nat) : (x.addCmd m n).blocked = x.blocked := rfl
@[simp] theorem Tile.addCmd_granted (x : Tile) (m : CeCmd) (n : Nat) : (x.addCmd m n).granted = x.granted := rfl
@[simp] theorem Tile.addCmd_apGo (x : Tile) (m : CeCmd) (n : Nat) : (x.addCmd m n).apGo = x.apGo := rfl
@[simp] theorem Tile.addCmd_sigs (x : Tile) (m : CeCmd) (n : Nat) : (x.addCmd m n).sigs = x.sigs := rfl
@[simp] theorem Tile.addCmd_evNow (x : Tile) (m : CeCmd) (n : Nat) : (x.addCmd m n).evNow = x.evNow := rfl
@[simp] theorem Tile.addCmd_note (x : Tile) (m : CeCmd) (n : Nat) : (x.addCmd m n).note = x.note := rfl
@[simp] theorem Tile.addCmd_prof (x : Tile) (m : CeCmd) (n : Nat) : (x.addCmd m n).prof = x.prof := rfl
@[simp] theorem Tile.addCmd_probe (x : Tile) (m : CeCmd) (n : Nat) : (x.addCmd m n).probe = x.probe := rfl
@[simp] theorem Tile.addCmd_wrote (x : Tile) (m : CeCmd) (n : Nat) : (x.addCmd m n).wrote = x.wrote := rfl
@[simp] theorem Tile.addCmd_setters (x : Tile) (m : CeCmd) (n : Nat) : (x.addCmd m n).setters = x.setters := rfl
@[simp] theorem Tile.addCmd_sigBy (x : Tile) (m : CeCmd) (n : Nat) : (x.addCmd m n).sigBy = x.sigBy := rfl
@[simp] theorem Tile.addCmd_fenced (x : Tile) (m : CeCmd) (n : Nat) : (x.addCmd m n).fenced = x.fenced := rfl
@[simp] theorem Tile.store_ctl (x : Tile) (a n v : Nat) : (x.store a n v).ctl = x.ctl := rfl
@[simp] theorem Tile.store_slices (x : Tile) (a n v : Nat) : (x.store a n v).slices = x.slices := rfl
@[simp] theorem Tile.store_tok (x : Tile) (a n v : Nat) : (x.store a n v).tok = x.tok := rfl
@[simp] theorem Tile.store_csr (x : Tile) (a n v : Nat) : (x.store a n v).csr = x.csr := rfl
@[simp] theorem Tile.store_trap (x : Tile) (a n v : Nat) : (x.store a n v).trap = x.trap := rfl
@[simp] theorem Tile.store_wins (x : Tile) (a n v : Nat) : (x.store a n v).wins = x.wins := rfl
@[simp] theorem Tile.store_tlb (x : Tile) (a n v : Nat) : (x.store a n v).tlb = x.tlb := rfl
@[simp] theorem Tile.store_pend (x : Tile) (a n v : Nat) : (x.store a n v).pend = x.pend := rfl
@[simp] theorem Tile.store_ap (x : Tile) (a n v : Nat) : (x.store a n v).ap = x.ap := rfl
@[simp] theorem Tile.store_ce (x : Tile) (a n v : Nat) : (x.store a n v).ce = x.ce := rfl
@[simp] theorem Tile.store_mx (x : Tile) (a n v : Nat) : (x.store a n v).mx = x.mx := rfl
@[simp] theorem Tile.store_net (x : Tile) (a n v : Nat) : (x.store a n v).net = x.net := rfl
@[simp] theorem Tile.store_tables (x : Tile) (a n v : Nat) : (x.store a n v).tables = x.tables := rfl
@[simp] theorem Tile.store_shadow (x : Tile) (a n v : Nat) : (x.store a n v).shadow = x.shadow := rfl
@[simp] theorem Tile.store_halting (x : Tile) (a n v : Nat) : (x.store a n v).halting = x.halting := rfl
@[simp] theorem Tile.store_halted (x : Tile) (a n v : Nat) : (x.store a n v).halted = x.halted := rfl
@[simp] theorem Tile.store_penNow (x : Tile) (a n v : Nat) : (x.store a n v).penNow = x.penNow := rfl
@[simp] theorem Tile.store_brkNow (x : Tile) (a n v : Nat) : (x.store a n v).brkNow = x.brkNow := rfl
@[simp] theorem Tile.store_raises (x : Tile) (a n v : Nat) : (x.store a n v).raises = x.raises := rfl
@[simp] theorem Tile.store_avail (x : Tile) (a n v : Nat) : (x.store a n v).avail = x.avail := rfl
@[simp] theorem Tile.store_blocked (x : Tile) (a n v : Nat) : (x.store a n v).blocked = x.blocked := rfl
@[simp] theorem Tile.store_granted (x : Tile) (a n v : Nat) : (x.store a n v).granted = x.granted := rfl
@[simp] theorem Tile.store_apGo (x : Tile) (a n v : Nat) : (x.store a n v).apGo = x.apGo := rfl
@[simp] theorem Tile.store_sigs (x : Tile) (a n v : Nat) : (x.store a n v).sigs = x.sigs := rfl
@[simp] theorem Tile.store_evNow (x : Tile) (a n v : Nat) : (x.store a n v).evNow = x.evNow := rfl
@[simp] theorem Tile.store_note (x : Tile) (a n v : Nat) : (x.store a n v).note = x.note := rfl
@[simp] theorem Tile.store_prof (x : Tile) (a n v : Nat) : (x.store a n v).prof = x.prof := rfl
@[simp] theorem Tile.store_probe (x : Tile) (a n v : Nat) : (x.store a n v).probe = x.probe := rfl
@[simp] theorem Tile.store_wrote (x : Tile) (a n v : Nat) : (x.store a n v).wrote = x.wrote := rfl
@[simp] theorem Tile.store_setters (x : Tile) (a n v : Nat) : (x.store a n v).setters = x.setters := rfl
@[simp] theorem Tile.store_sigBy (x : Tile) (a n v : Nat) : (x.store a n v).sigBy = x.sigBy := rfl
@[simp] theorem Tile.store_fenced (x : Tile) (a n v : Nat) : (x.store a n v).fenced = x.fenced := rfl
@[simp] theorem Tile.poisonWord_ctl (x : Tile) (w : Nat) : (x.poisonWord w).ctl = x.ctl := rfl
@[simp] theorem Tile.poisonWord_slices (x : Tile) (w : Nat) : (x.poisonWord w).slices = x.slices := rfl
@[simp] theorem Tile.poisonWord_tok (x : Tile) (w : Nat) : (x.poisonWord w).tok = x.tok := rfl
@[simp] theorem Tile.poisonWord_csr (x : Tile) (w : Nat) : (x.poisonWord w).csr = x.csr := rfl
@[simp] theorem Tile.poisonWord_trap (x : Tile) (w : Nat) : (x.poisonWord w).trap = x.trap := rfl
@[simp] theorem Tile.poisonWord_wins (x : Tile) (w : Nat) : (x.poisonWord w).wins = x.wins := rfl
@[simp] theorem Tile.poisonWord_tlb (x : Tile) (w : Nat) : (x.poisonWord w).tlb = x.tlb := rfl
@[simp] theorem Tile.poisonWord_pend (x : Tile) (w : Nat) : (x.poisonWord w).pend = x.pend := rfl
@[simp] theorem Tile.poisonWord_ap (x : Tile) (w : Nat) : (x.poisonWord w).ap = x.ap := rfl
@[simp] theorem Tile.poisonWord_ce (x : Tile) (w : Nat) : (x.poisonWord w).ce = x.ce := rfl
@[simp] theorem Tile.poisonWord_mx (x : Tile) (w : Nat) : (x.poisonWord w).mx = x.mx := rfl
@[simp] theorem Tile.poisonWord_net (x : Tile) (w : Nat) : (x.poisonWord w).net = x.net := rfl
@[simp] theorem Tile.poisonWord_tables (x : Tile) (w : Nat) : (x.poisonWord w).tables = x.tables := rfl
@[simp] theorem Tile.poisonWord_shadow (x : Tile) (w : Nat) : (x.poisonWord w).shadow = x.shadow := rfl
@[simp] theorem Tile.poisonWord_halting (x : Tile) (w : Nat) : (x.poisonWord w).halting = x.halting := rfl
@[simp] theorem Tile.poisonWord_halted (x : Tile) (w : Nat) : (x.poisonWord w).halted = x.halted := rfl
@[simp] theorem Tile.poisonWord_penNow (x : Tile) (w : Nat) : (x.poisonWord w).penNow = x.penNow := rfl
@[simp] theorem Tile.poisonWord_brkNow (x : Tile) (w : Nat) : (x.poisonWord w).brkNow = x.brkNow := rfl
@[simp] theorem Tile.poisonWord_raises (x : Tile) (w : Nat) : (x.poisonWord w).raises = x.raises := rfl
@[simp] theorem Tile.poisonWord_avail (x : Tile) (w : Nat) : (x.poisonWord w).avail = x.avail := rfl
@[simp] theorem Tile.poisonWord_blocked (x : Tile) (w : Nat) : (x.poisonWord w).blocked = x.blocked := rfl
@[simp] theorem Tile.poisonWord_granted (x : Tile) (w : Nat) : (x.poisonWord w).granted = x.granted := rfl
@[simp] theorem Tile.poisonWord_apGo (x : Tile) (w : Nat) : (x.poisonWord w).apGo = x.apGo := rfl
@[simp] theorem Tile.poisonWord_sigs (x : Tile) (w : Nat) : (x.poisonWord w).sigs = x.sigs := rfl
@[simp] theorem Tile.poisonWord_evNow (x : Tile) (w : Nat) : (x.poisonWord w).evNow = x.evNow := rfl
@[simp] theorem Tile.poisonWord_note (x : Tile) (w : Nat) : (x.poisonWord w).note = x.note := rfl
@[simp] theorem Tile.poisonWord_prof (x : Tile) (w : Nat) : (x.poisonWord w).prof = x.prof := rfl
@[simp] theorem Tile.poisonWord_probe (x : Tile) (w : Nat) : (x.poisonWord w).probe = x.probe := rfl
@[simp] theorem Tile.poisonWord_wrote (x : Tile) (w : Nat) : (x.poisonWord w).wrote = x.wrote := rfl
@[simp] theorem Tile.poisonWord_setters (x : Tile) (w : Nat) : (x.poisonWord w).setters = x.setters := rfl
@[simp] theorem Tile.poisonWord_sigBy (x : Tile) (w : Nat) : (x.poisonWord w).sigBy = x.sigBy := rfl
@[simp] theorem Tile.poisonWord_fenced (x : Tile) (w : Nat) : (x.poisonWord w).fenced = x.fenced := rfl
@[simp] theorem Tile.put_ctl (x : Tile) (off n v : Nat) : (x.put off n v).ctl = x.ctl := rfl
@[simp] theorem Tile.put_slices (x : Tile) (off n v : Nat) : (x.put off n v).slices = x.slices := rfl
@[simp] theorem Tile.put_tok (x : Tile) (off n v : Nat) : (x.put off n v).tok = x.tok := rfl
@[simp] theorem Tile.put_csr (x : Tile) (off n v : Nat) : (x.put off n v).csr = x.csr := rfl
@[simp] theorem Tile.put_trap (x : Tile) (off n v : Nat) : (x.put off n v).trap = x.trap := rfl
@[simp] theorem Tile.put_wins (x : Tile) (off n v : Nat) : (x.put off n v).wins = x.wins := rfl
@[simp] theorem Tile.put_tlb (x : Tile) (off n v : Nat) : (x.put off n v).tlb = x.tlb := rfl
@[simp] theorem Tile.put_pend (x : Tile) (off n v : Nat) : (x.put off n v).pend = x.pend := rfl
@[simp] theorem Tile.put_ap (x : Tile) (off n v : Nat) : (x.put off n v).ap = x.ap := rfl
@[simp] theorem Tile.put_ce (x : Tile) (off n v : Nat) : (x.put off n v).ce = x.ce := rfl
@[simp] theorem Tile.put_mx (x : Tile) (off n v : Nat) : (x.put off n v).mx = x.mx := rfl
@[simp] theorem Tile.put_net (x : Tile) (off n v : Nat) : (x.put off n v).net = x.net := rfl
@[simp] theorem Tile.put_tables (x : Tile) (off n v : Nat) : (x.put off n v).tables = x.tables := rfl
@[simp] theorem Tile.put_shadow (x : Tile) (off n v : Nat) : (x.put off n v).shadow = x.shadow := rfl
@[simp] theorem Tile.put_halting (x : Tile) (off n v : Nat) : (x.put off n v).halting = x.halting := rfl
@[simp] theorem Tile.put_halted (x : Tile) (off n v : Nat) : (x.put off n v).halted = x.halted := rfl
@[simp] theorem Tile.put_penNow (x : Tile) (off n v : Nat) : (x.put off n v).penNow = x.penNow := rfl
@[simp] theorem Tile.put_brkNow (x : Tile) (off n v : Nat) : (x.put off n v).brkNow = x.brkNow := rfl
@[simp] theorem Tile.put_raises (x : Tile) (off n v : Nat) : (x.put off n v).raises = x.raises := rfl
@[simp] theorem Tile.put_avail (x : Tile) (off n v : Nat) : (x.put off n v).avail = x.avail := rfl
@[simp] theorem Tile.put_blocked (x : Tile) (off n v : Nat) : (x.put off n v).blocked = x.blocked := rfl
@[simp] theorem Tile.put_granted (x : Tile) (off n v : Nat) : (x.put off n v).granted = x.granted := rfl
@[simp] theorem Tile.put_apGo (x : Tile) (off n v : Nat) : (x.put off n v).apGo = x.apGo := rfl
@[simp] theorem Tile.put_sigs (x : Tile) (off n v : Nat) : (x.put off n v).sigs = x.sigs := rfl
@[simp] theorem Tile.put_evNow (x : Tile) (off n v : Nat) : (x.put off n v).evNow = x.evNow := rfl
@[simp] theorem Tile.put_note (x : Tile) (off n v : Nat) : (x.put off n v).note = x.note := rfl
@[simp] theorem Tile.put_prof (x : Tile) (off n v : Nat) : (x.put off n v).prof = x.prof := rfl
@[simp] theorem Tile.put_probe (x : Tile) (off n v : Nat) : (x.put off n v).probe = x.probe := rfl
@[simp] theorem Tile.put_wrote (x : Tile) (off n v : Nat) : (x.put off n v).wrote = x.wrote := rfl
@[simp] theorem Tile.put_setters (x : Tile) (off n v : Nat) : (x.put off n v).setters = x.setters := rfl
@[simp] theorem Tile.put_sigBy (x : Tile) (off n v : Nat) : (x.put off n v).sigBy = x.sigBy := rfl
@[simp] theorem Tile.put_fenced (x : Tile) (off n v : Nat) : (x.put off n v).fenced = x.fenced := rfl
@[simp] theorem Folio.onTile_place (x : Folio) (i : Nat) (h : Tile → Tile) : (x.onTile i h).place = x.place := rfl
@[simp] theorem Folio.onTile_launch (x : Folio) (i : Nat) (h : Tile → Tile) : (x.onTile i h).launch = x.launch := rfl
@[simp] theorem Folio.onTile_calendar (x : Folio) (i : Nat) (h : Tile → Tile) : (x.onTile i h).calendar = x.calendar := rfl
@[simp] theorem Folio.onTile_seams (x : Folio) (i : Nat) (h : Tile → Tile) : (x.onTile i h).seams = x.seams := rfl
@[simp] theorem Folio.onTile_cycle (x : Folio) (i : Nat) (h : Tile → Tile) : (x.onTile i h).cycle = x.cycle := rfl
@[simp] theorem Folio.onTile_freeze (x : Folio) (i : Nat) (h : Tile → Tile) : (x.onTile i h).freeze = x.freeze := rfl
@[simp] theorem Folio.onTile_stops (x : Folio) (i : Nat) (h : Tile → Tile) : (x.onTile i h).stops = x.stops := rfl
@[simp] theorem Folio.onTile_ckStop (x : Folio) (i : Nat) (h : Tile → Tile) : (x.onTile i h).ckStop = x.ckStop := rfl
@[simp] theorem Folio.onTile_held (x : Folio) (i : Nat) (h : Tile → Tile) : (x.onTile i h).held = x.held := rfl
@[simp] theorem Folio.onTile_penDue (x : Folio) (i : Nat) (h : Tile → Tile) : (x.onTile i h).penDue = x.penDue := rfl
@[simp] theorem Folio.onTile_turns (x : Folio) (i : Nat) (h : Tile → Tile) : (x.onTile i h).turns = x.turns := rfl
@[simp] theorem Folio.onTile_cause (x : Folio) (i : Nat) (h : Tile → Tile) : (x.onTile i h).cause = x.cause := rfl
@[simp] theorem Folio.onTile_lastPen (x : Folio) (i : Nat) (h : Tile → Tile) : (x.onTile i h).lastPen = x.lastPen := rfl
@[simp] theorem Folio.onTile_barLast (x : Folio) (i : Nat) (h : Tile → Tile) : (x.onTile i h).barLast = x.barLast := rfl
@[simp] theorem Folio.onTile_barFlips (x : Folio) (i : Nat) (h : Tile → Tile) : (x.onTile i h).barFlips = x.barFlips := rfl
@[simp] theorem Folio.onTile_signals (x : Folio) (i : Nat) (h : Tile → Tile) : (x.onTile i h).signals = x.signals := rfl
@[simp] theorem Folio.onTile_dbg (x : Folio) (i : Nat) (h : Tile → Tile) : (x.onTile i h).dbg = x.dbg := rfl
@[simp] theorem Folio.onTile_cap (x : Folio) (i : Nat) (h : Tile → Tile) : (x.onTile i h).cap = x.cap := rfl
@[simp] theorem Folio.onTile_prof (x : Folio) (i : Nat) (h : Tile → Tile) : (x.onTile i h).prof = x.prof := rfl
@[simp] theorem Folio.onTile_trapped (x : Folio) (i : Nat) (h : Tile → Tile) : (x.onTile i h).trapped = x.trapped := rfl
@[simp] theorem Control.setEntries_headAt (x : Control) (q : Queue) (l : List Entry) : (x.setEntries q l).headAt = x.headAt := rfl
@[simp] theorem Control.setEntries_fetch (x : Control) (q : Queue) (l : List Entry) : (x.setEntries q l).fetch = x.fetch := rfl
@[simp] theorem Control.setEntries_btgt (x : Control) (q : Queue) (l : List Entry) : (x.setEntries q l).btgt = x.btgt := rfl
@[simp] theorem Control.setEntries_loops (x : Control) (q : Queue) (l : List Entry) : (x.setEntries q l).loops = x.loops := rfl
@[simp] theorem Control.setEntries_winb (x : Control) (q : Queue) (l : List Entry) : (x.setEntries q l).winb = x.winb := rfl
@[simp] theorem Control.setEntries_pfx (x : Control) (q : Queue) (l : List Entry) : (x.setEntries q l).pfx = x.pfx := rfl
@[simp] theorem Control.setEntries_lost (x : Control) (q : Queue) (l : List Entry) : (x.setEntries q l).lost = x.lost := rfl
@[simp] theorem Control.setEntries_notBefore (x : Control) (q : Queue) (l : List Entry) : (x.setEntries q l).notBefore = x.notBefore := rfl

/-- A row of values read where it was set. -/
@[simp] theorem vget_vset_eq {α : Type} {n : Nat} [Inhabited α] (v : Vector α n) (i : Nat) (a : α) (h : i < n) :
    vget (vset v i a) i = a := by simp [vget, vset, h]

/-- A row of values read elsewhere than where it was set. -/
theorem vget_vset_ne {α : Type} {n : Nat} [Inhabited α] (v : Vector α n) (i j : Nat) (a : α) (h : j ≠ i) :
    vget (vset v i a) j = vget v j := by simp [vget, vset, Ne.symm h]

/-- The registers of a function after a change of them. -/
theorem State.func_onFunc (s : State) (f : Nat) (h : FuncRegs → FuncRegs) (k : f < 64) : (s.onFunc f h).func f = h (s.func f) :=
  vget_vset_eq _ _ _ k

/-- The registers of another function. -/
theorem State.func_onFunc_ne (s : State) (f g : Nat) (h : FuncRegs → FuncRegs) (k : g ≠ f) : (s.onFunc f h).func g = s.func g :=
  vget_vset_ne _ _ _ _ k

/-- A channel after a change of it. -/
theorem State.chan_onChan (s : State) (ch : Nat) (h : Chan → Chan) (k : ch < 256) :
    vget (s.onChan ch h).dram.chans ch = h (vget s.dram.chans ch) := vget_vset_eq _ _ _ k

/-- Another channel. -/
theorem State.chan_onChan_ne (s : State) (ch x : Nat) (h : Chan → Chan) (k : x ≠ ch) :
    vget (s.onChan ch h).dram.chans x = vget s.dram.chans x := vget_vset_ne _ _ _ _ k

/-- A link after a change of it, and another link. -/
theorem State.link_onLink (s : State) (l : Nat) (h : Link → Link) (k : l < 18) : vget (s.onLink l h).links l = h (vget s.links l) :=
  vget_vset_eq _ _ _ k

theorem State.link_onLink_ne (s : State) (l x : Nat) (h : Link → Link) (k : x ≠ l) : vget (s.onLink l h).links x = vget s.links x :=
  vget_vset_ne _ _ _ _ k

/-- A changed element of a list, and another one. -/
theorem lmap_get_eq {α : Type} (l : List α) (i : Nat) (h : α → α) : (lmap l i h)[i]? = l[i]?.map h := by
  induction l generalizing i with
  | nil => simp [lmap]
  | cons a r ih => cases i with
    | zero => simp [lmap]
    | succ n => simp [lmap, ih]

theorem lmap_get_ne {α : Type} (l : List α) (i j : Nat) (h : α → α) (k : j ≠ i) : (lmap l i h)[j]? = l[j]? := by
  induction l generalizing i j with
  | nil => simp [lmap]
  | cons a r ih => cases i with
    | zero => cases j with
      | zero => exact absurd rfl k
      | succ m => simp [lmap]
    | succ n => cases j with
      | zero => simp [lmap]
      | succ m => simpa [lmap] using ih n m (by omega)

@[simp] theorem lmap_length {α : Type} (l : List α) (i : Nat) (h : α → α) : (lmap l i h).length = l.length := by
  induction l generalizing i with
  | nil => rfl
  | cons a r ih => cases i with
    | zero => rfl
    | succ n => simp [lmap, ih]

/-- The registers of a launch queue after a change that keeps its number (R160). -/
theorem State.queue_onQueue (s : State) (q : Nat) (h : LaunchQueue → LaunchQueue) (k : ∀ x : LaunchQueue, x.q = q → (h x).q = q) :
    (s.onQueue q h).queue q = h (s.queue q) := by
  unfold State.onQueue State.queue
  split
  · rename_i ha
    simp only
    generalize s.queues = l at *
    induction l with
    | nil => simp at ha
    | cons a r ih =>
      simp only [List.map_cons, List.find?_cons]
      by_cases e : a.q = q
      · simp [e, k a e]
      · simp only [List.any_cons, beq_eq_false_iff_ne.mpr e, Bool.false_or] at ha
        have e' : (a.q == q) = false := beq_eq_false_iff_ne.mpr e
        simpa only [e', Bool.false_eq_true, if_false] using ih ha
  · rename_i ha
    simp only [List.any_eq_true, beq_iff_eq, not_exists, not_and] at ha
    have : List.find? (fun x : LaunchQueue => x.q == q) s.queues = none := by simpa using ha
    simp [List.find?_append, this, k (LaunchQueue.zero q 0) rfl]

/-- The folio of a placement index after a change of it. -/
theorem State.folio_onFolio (s : State) (n : Nat) (f : Folio) (h : Folio → Folio) (e : s.folio? n = some f)
    (k : (h f).place.idx = n) : (s.onFolio n h).folio? n = some (h f) := by
  unfold State.onFolio
  unfold State.folio? at *
  generalize s.folios = l at *
  induction l with
  | nil => simp at e
  | cons a r ih =>
    simp only [List.map_cons, List.find?_cons] at *
    by_cases ha : a.place.idx = n
    · simp only [beq_iff_eq.mpr ha, Option.some.injEq] at e
      subst e
      simp [ha, k]
    · have ha' : (a.place.idx == n) = false := beq_eq_false_iff_ne.mpr ha
      simp only [ha'] at e
      simpa only [ha', Bool.false_eq_true, if_false] using ih e

end Sys2Proof.Machine
end

