-- ==== Sys2Proof/Laws/Hub.lean ====
section
/-! SUPPORT. What the hub's own work leaves alone: events, counters, reads of lines and walks change marks, records to the host and
the registers that number them, but no folio, queue, line of HBM or save. -/

namespace Sys2Proof.Machine

/-- What the hub's reads and records keep. -/
structure Quiet (s s' : State) : Prop where
  folios : s'.folios = s.folios
  releasing : s'.releasing = s.releasing
  saved : s'.saved = s.saved
  idle : s'.idle = s.idle
  queues : s'.queues = s.queues
  arb : s'.arb = s.arb
  domains : s'.domains = s.domains
  wall : s'.wall = s.wall
  mig : s'.mig = s.mig
  far : s'.far = s.far
  hostReads : s'.hostReads = s.hostReads
  faults : s'.faults = s.faults
  cursor : s'.cursor = s.cursor
  trust : s'.trust = s.trust
  hbm : s'.dram.hbm = s.dram.hbm

theorem Quiet.refl (s : State) : Quiet s s := by constructor <;> rfl

theorem Quiet.trans {a b c : State} (h : Quiet a b) (k : Quiet b c) : Quiet a c :=
  ⟨k.folios.trans h.folios, k.releasing.trans h.releasing, k.saved.trans h.saved, k.idle.trans h.idle, k.queues.trans h.queues,
    k.arb.trans h.arb, k.domains.trans h.domains, k.wall.trans h.wall, k.mig.trans h.mig, k.far.trans h.far,
    k.hostReads.trans h.hostReads, k.faults.trans h.faults, k.cursor.trans h.cursor, k.trust.trans h.trust, k.hbm.trans h.hbm⟩

theorem onFunc_quiet (s : State) (f : Nat) (h : FuncRegs → FuncRegs) : Quiet s (s.onFunc f h) := by constructor <;> rfl

theorem onChan_quiet (s : State) (ch : Nat) (h : Chan → Chan) : Quiet s (s.onChan ch h) := by constructor <;> rfl

theorem onLink_quiet (s : State) (l : Nat) (h : Link → Link) : Quiet s (s.onLink l h) := by constructor <;> rfl

theorem interrupt_quiet (s : State) (f v : Nat) : Quiet s (s.interrupt f v) := by
  dsimp only [State.interrupt]
  split <;> constructor <;> rfl

theorem logError_quiet (s : State) (k f : Nat) : Quiet s (s.logError k f) := by constructor <;> rfl

theorem event_quiet (s : State) (f : Nat) (e : Event) : Quiet s (s.event f e) := by
  unfold State.event
  simp only
  split
  · exact .refl s
  · split
    · exact Quiet.trans (by constructor <;> rfl) (interrupt_quiet _ _ _)
    · constructor <;> rfl

theorem recordBad_quiet (s : State) (pa : Nat) : Quiet s (s.recordBad pa) := event_quiet _ _ _

/-- A fold of quiet steps is quiet. -/
theorem foldl_quiet {α : Type} (g : State → α → State) (h : ∀ s x, Quiet s (g s x)) (l : List α) (s : State) :
    Quiet s (l.foldl g s) := by
  induction l generalizing s with
  | nil => exact .refl s
  | cons a r ih => exact (h s a).trans (ih _)

theorem warning_quiet (s : State) (source num abs unc cor : Nat) (users : List Nat) :
    Quiet s (s.warning source num abs unc cor users) := by
  unfold State.warning
  simp only
  have h1 : ∀ t : State, Quiet t (if errCk t.dram.errcfg then users.foldl (fun s f => s.onFunc f FuncRegs.warned) t else t) := by
    intro t
    split
    · exact foldl_quiet _ (fun s f => onFunc_quiet s f _) users t
    · exact .refl t
  refine Quiet.trans ?_ (h1 _)
  split
  · exact (event_quiet s 0 _).trans (foldl_quiet _ (fun s f => event_quiet s f _) _ _)
  · exact .refl s

theorem countUnc_quiet (s : State) (ch : Nat) : Quiet s (s.countUnc ch) := by
  unfold State.countUnc
  simp only
  split
  · exact onChan_quiet _ _ _
  · exact (onChan_quiet _ _ _).trans (warning_quiet _ _ _ _ _ _ _)

theorem countCor_quiet (s : State) (ch : Nat) : Quiet s (s.countCor ch) := by
  unfold State.countCor
  simp only
  split
  · exact onChan_quiet _ _ _
  · exact (onChan_quiet _ _ _).trans ((onChan_quiet _ _ _).trans (warning_quiet _ _ _ _ _ _ _))

theorem countLinkUnc_quiet (s : State) (l : Nat) : Quiet s (s.countLinkUnc l) := by
  unfold State.countLinkUnc
  simp only
  split
  · exact onLink_quiet _ _ _
  · exact (onLink_quiet _ _ _).trans (warning_quiet _ _ _ _ _ _ _)

theorem countLinkCor_quiet (s : State) (l : Nat) : Quiet s (s.countLinkCor l) := by
  unfold State.countLinkCor
  simp only
  split
  · exact onLink_quiet _ _ _
  · exact (onLink_quiet _ _ _).trans ((onLink_quiet _ _ _).trans (warning_quiet _ _ _ _ _ _ _))

theorem readLine_quiet (s : State) (pa : Nat) : Quiet s (s.readLine pa).2.2 := by
  have h1 : ∀ (t : State) (l f : Nat), Quiet t ((t.onChan (chanNum pa) fun c => c.poisonLine l).logError 1 f) :=
    fun _ _ _ => (onChan_quiet _ _ _).trans (logError_quiet _ _ _)
  unfold State.readLine
  simp only
  (repeat' split) <;> first
    | exact .refl s
    | exact countCor_quiet _ _
    | exact h1 _ _ _
    | exact (countCor_quiet _ _).trans (h1 _ _ _)
    | exact (onChan_quiet _ _ _).trans (countUnc_quiet _ _)

/-- A sound line reads as its plaintext, and the read leaves no mark (R421, R446). -/
theorem readLine_sound {s : State} {pa : Nat} (h : s.soundLine pa) : s.readLine pa = (s.plain pa, false, s) := by
  obtain ⟨h1, h2, h3, h4⟩ := h
  simp only [State.lineFails, h1, Bool.not_false, Bool.true_and, Bool.or_eq_false_iff, List.contains_eq_mem] at h2
  simp_all [State.readLine]

theorem hubRead_quiet (s : State) (pa : Nat) : Quiet s (s.hubRead pa).2.2 := by
  simp only [State.hubRead]
  split
  · exact (readLine_quiet _ _).trans (recordBad_quiet _ _)
  · exact readLine_quiet _ _

/-- A sound line reads the same for the walker and the copier (R446, R480). -/
theorem hubRead_sound {s : State} {pa : Nat} (h : s.soundLine pa) : s.hubRead pa = (s.plain pa, false, s) := by
  have hb : s.lineBad pa = false := by
    have h2 := h.2.1
    simp_all [State.lineFails, State.lineBad, State.soundLine]
  simp [State.hubRead, hb, readLine_sound h]

theorem tableLine_quiet (s : State) (f pa : Nat) : Quiet s (s.tableLine f pa).2 := by
  unfold State.tableLine
  split
  · exact .refl s
  · exact hubRead_quiet _ _

theorem walkFrom_quiet (s : State) (f va level table fuel : Nat) : Quiet s (s.walkFrom f va level table fuel).2 := by
  induction fuel generalizing s level table with
  | zero => exact .refl s
  | succ n ih =>
    unfold State.walkFrom
    simp only
    have h := tableLine_quiet s f (table + 8 * bitsAt va (levelBits level).1 (levelBits level).2)
    split
    · rename_i h'; rw [h'] at h; exact h
    · rename_i h'
      rw [h'] at h
      (repeat' split) <;> first | exact h | exact h.trans (ih _ _ _)

/-- A walk leaves every folio, queue and line alone (R436). -/
theorem walk_quiet (s : State) (f va : Nat) : Quiet s (s.walk f va).2 := by
  unfold State.walk
  simp only
  split
  · exact .refl s
  · exact walkFrom_quiet _ _ _ _ _ _

theorem ofBytes128_lt (l : List Nat) (h : ∀ b ∈ l, b < 256) : ofBytes128 l < 256 ^ l.length := by
  unfold ofBytes128
  induction l using List.reverseRecOn with
  | nil => simp
  | append_singleton l b ih =>
    have i := ih fun x hx => h x (by simp [hx])
    have := h b (by simp)
    simp only [List.foldl_append, List.foldl_cons, List.foldl_nil, List.length_append, List.length_cons, List.length_nil, pow_succ]
    nlinarith

theorem flip128_lt (v : Nat) : flip128 v < 2 ^ 128 := by
  have := ofBytes128_lt (blockBytes128 v).reverse (by
    simp only [List.mem_reverse, blockBytes128, List.mem_map]
    rintro b ⟨i, _, rfl⟩
    exact Nat.mod_lt _ (by norm_num))
  simpa [flip128, blockBytes128] using this

theorem blocks_lt (g : Nat → Nat) (h : ∀ j, g j < 2 ^ 128) (n : Nat) :
    (List.range n).foldl (fun v j => v + g j * 2 ^ (128 * j)) 0 < 2 ^ (128 * n) := by
  induction n with
  | zero => simp
  | succ n ih =>
    rw [List.range_succ, List.foldl_append, List.foldl_cons, List.foldl_nil, show 128 * (n + 1) = 128 * n + 128 by ring, pow_add]
    have := h n
    have p : 0 < 2 ^ (128 * n) := Nat.two_pow_pos _
    have : g n + 1 ≤ 2 ^ 128 := this
    nlinarith

theorem lineStream_lt (k : BitVec 256) (pa ver : Nat) : lineStream k pa ver < 2 ^ 512 :=
  blocks_lt (fun j => flip128 (aes256 k.toNat (cipherBlock pa ver j))) (fun _ => flip128_lt _) 4

theorem Chan.wrote_pendingClear (c : Chan) (l ver tag : Nat) (poison : Bool) : (c.wrote l ver tag poison).pendingClear l = false := by
  unfold Chan.wrote Chan.settleClr Chan.pendingClear
  simp only [addMark]
  by_cases h : c.clearFrom ≤ l <;> by_cases h' : l ∈ c.cleared <;> simp [h, h']

/-- What a read finds of a line that was stored (R421, R444): its value and a sound tag. -/
theorem seal_line (s : State) (pa ver v : Nat) (poison : Bool) :
    let t := s.seal pa ver v poison
    t.plain pa = v % 2 ^ 512
    ∧ ((s.lineKeys pa ver).loaded = true → poison = false → t.soundLine pa) := by
  have hc : chanNum pa < 256 := Nat.mod_lt _ (by norm_num)
  generalize hn : lineStream (s.lineKeys pa ver).enc pa ver = x
  have hl : x < 2 ^ 512 := hn ▸ lineStream_lt _ _ _
  have hx : v % 2 ^ 512 ^^^ x < 2 ^ 512 := Nat.xor_lt_two_pow (Nat.mod_lt _ (Nat.two_pow_pos _)) hl
  have hk : ∀ g, (s.seal pa ver v poison).lineKeys pa g = s.lineKeys pa g := fun g => by
    have : (vget (s.seal pa ver v poison).dram.chans (chanNum pa)).func = (vget s.dram.chans (chanNum pa)).func := by
      simp only [State.seal, State.onChan, vget_vset_eq _ _ _ hc, Chan.wrote, Chan.settleClr]
    simp only [State.lineKeys, this]
    rfl
  have hr : (s.seal pa ver v poison).cipher pa = v % 2 ^ 512 ^^^ x := by
    simp only [State.cipher, State.seal, State.onChan, Memory.readN_writeN, hn]
    exact Nat.mod_eq_of_lt (by rw [show (256 : Nat) ^ 64 = 2 ^ 512 by rw [show (256 : Nat) = 2 ^ 8 by norm_num, ← pow_mul]]; exact hx)
  have hm : vget (s.seal pa ver v poison).dram.chans (chanNum pa)
      = (vget s.dram.chans (chanNum pa)).wrote (chanLine pa) ver (lineTag (s.lineKeys pa ver).mac pa ver
        (v % 2 ^ 512 ^^^ x)) poison := by
    simp [State.seal, State.onChan, vget_vset_eq _ _ _ hc, hn]
  refine ⟨?_, fun hk' hp => ?_⟩
  · simp only [State.plain, hr, hm, hk]
    simp [Chan.version, Chan.meta, Chan.wrote, Chan.settleClr, hn]
  · subst hp
    refine ⟨?_, ?_, ?_, ?_⟩
    · rw [hm]
      exact Chan.wrote_pendingClear _ _ _ _ _
    · simp [State.lineFails, State.tagFails, hm, hr, hk, Chan.meta, Chan.wrote, Chan.settleClr, hk', dropMark]
    · simp [hm, Chan.wrote, Chan.settleClr, dropMark]
    · simp [hm, Chan.wrote, Chan.settleClr, dropMark]

/-- The host-slot engine passes over reads that have come. -/
theorem sendReads_done (l : List HostRead) (h : ∀ r ∈ l, r.got.isSome = true) (s : State) (w : Option Nat) :
    s.sendReads w l = { s with hostReads := s.hostReads ++ l } := by
  induction l generalizing s with
  | nil => simp [State.sendReads]
  | cons r l ih =>
    rw [State.sendReads, if_pos (h r (List.mem_cons_self ..)), ih (fun x hx => h x (List.mem_cons_of_mem _ hx))]
    simp [State.keepRead]

/-- Behind reads that have come a new request is sent at once (R324). -/
theorem sendReads_next (l : List HostRead) (h : ∀ r ∈ l, r.got.isSome = true) (r : HostRead) (s : State) :
    s.sendReads none (l ++ [r]) = ({ s with hostReads := s.hostReads ++ l } : State).sendReads none [r] := by
  induction l generalizing s with
  | nil => simp
  | cons x l ih =>
    rw [List.cons_append, State.sendReads, if_pos (h x (List.mem_cons_self ..)), ih (fun y hy => h y (List.mem_cons_of_mem _ hy))]
    simp [State.keepRead]

/-- Where no write is held back, the engine changes nothing but its list (R425). -/
theorem sendReads_reads (l : List HostRead) (h : ∀ r ∈ l, r.write = none) (s : State) (w : Option Nat) :
    ∃ k, s.sendReads w l = { s with hostReads := k } := by
  induction l generalizing s w with
  | nil => exact ⟨_, rfl⟩
  | cons r l ih =>
    have hl := fun x hx => h x (List.mem_cons_of_mem _ hx)
    rw [State.sendReads, h r (List.mem_cons_self ..)]
    split
    · exact ih hl _ _
    · split
      · exact ih hl _ _
      · exact ih hl _ _

/-- A mark remains exactly where some line is still pending-clear (R421), the lines written since being listed once each. -/
theorem Chan.marksLeft_iff (c : Chan) (h : c.cleared.Nodup) (hb : ∀ l ∈ c.cleared, l < 0x1800000) :
    c.marksLeft = true ↔ ∃ l < 0x1800000, c.pendingClear l = true := by
  have hn := h.filter fun l => decide (c.clearFrom ≤ l)
  have hs : (c.cleared.filter fun l => decide (c.clearFrom ≤ l)).toFinset ⊆ Finset.Ico c.clearFrom 0x1800000 := fun x hx => by
    simp only [List.mem_toFinset, List.mem_filter, decide_eq_true_eq] at hx
    exact Finset.mem_Ico.mpr ⟨hx.2, hb x hx.1⟩
  have hc := Finset.card_le_card hs
  rw [List.toFinset_card_of_nodup hn, Nat.card_Ico] at hc
  simp only [Chan.marksLeft, decide_eq_true_eq, Chan.pendingClear, Bool.and_eq_true, Bool.not_eq_true', List.contains_eq_mem,
    decide_eq_false_iff_not]
  constructor
  · intro hl
    by_contra hall
    push Not at hall
    have : Finset.Ico c.clearFrom 0x1800000 ⊆ (c.cleared.filter fun l => decide (c.clearFrom ≤ l)).toFinset := fun x hx => by
      obtain ⟨h1, h2⟩ := Finset.mem_Ico.mp hx
      simp only [List.mem_toFinset, List.mem_filter, decide_eq_true_eq]
      exact ⟨hall x h2 h1, h1⟩
    have := Finset.card_le_card this
    rw [List.toFinset_card_of_nodup hn, Nat.card_Ico] at this
    omega
  · rintro ⟨l, h1, h2, h3⟩
    by_contra hl
    have e := Finset.eq_of_subset_of_card_le hs (by rw [List.toFinset_card_of_nodup hn, Nat.card_Ico]; omega)
    have : l ∈ (c.cleared.filter fun l => decide (c.clearFrom ≤ l)).toFinset := e ▸ Finset.mem_Ico.mpr ⟨h2, h1⟩
    simp only [List.mem_toFinset, List.mem_filter] at this
    exact h3 this.1

/-! What the hub's small updates leave alone, one field at a time. -/

@[simp] theorem State.keepRead_agenda (s : State) (r : HostRead) : (s.keepRead r).agenda = s.agenda := rfl
@[simp] theorem State.keepRead_cursor (s : State) (r : HostRead) : (s.keepRead r).cursor = s.cursor := rfl
@[simp] theorem State.keepRead_inputs (s : State) (r : HostRead) : (s.keepRead r).inputs = s.inputs := rfl
@[simp] theorem State.keepRead_funcs (s : State) (r : HostRead) : (s.keepRead r).funcs = s.funcs := rfl
@[simp] theorem State.keepRead_queues (s : State) (r : HostRead) : (s.keepRead r).queues = s.queues := rfl
@[simp] theorem State.keepRead_folios (s : State) (r : HostRead) : (s.keepRead r).folios = s.folios := rfl
@[simp] theorem State.keepRead_dram (s : State) (r : HostRead) : (s.keepRead r).dram = s.dram := rfl
@[simp] theorem State.keepRead_hostMem (s : State) (r : HostRead) : (s.keepRead r).hostMem = s.hostMem := rfl
@[simp] theorem State.keepRead_dev (s : State) (r : HostRead) : (s.keepRead r).dev = s.dev := rfl
@[simp] theorem State.keepRead_mig (s : State) (r : HostRead) : (s.keepRead r).mig = s.mig := rfl
@[simp] theorem State.keepRead_releasing (s : State) (r : HostRead) : (s.keepRead r).releasing = s.releasing := rfl
@[simp] theorem State.ckPend_agenda (s : State) (n : Nat) (j : BitVec 32) : (s.ckPend n j).agenda = s.agenda := rfl
@[simp] theorem State.ckPend_cursor (s : State) (n : Nat) (j : BitVec 32) : (s.ckPend n j).cursor = s.cursor := rfl
@[simp] theorem State.ckPend_inputs (s : State) (n : Nat) (j : BitVec 32) : (s.ckPend n j).inputs = s.inputs := rfl
@[simp] theorem State.ckPend_funcs (s : State) (n : Nat) (j : BitVec 32) : (s.ckPend n j).funcs = s.funcs := rfl
@[simp] theorem State.ckPend_queues (s : State) (n : Nat) (j : BitVec 32) : (s.ckPend n j).queues = s.queues := rfl
@[simp] theorem State.ckPend_dram (s : State) (n : Nat) (j : BitVec 32) : (s.ckPend n j).dram = s.dram := rfl
@[simp] theorem State.ckPend_hostMem (s : State) (n : Nat) (j : BitVec 32) : (s.ckPend n j).hostMem = s.hostMem := rfl
@[simp] theorem State.ckPend_dev (s : State) (n : Nat) (j : BitVec 32) : (s.ckPend n j).dev = s.dev := rfl
@[simp] theorem State.ckPend_mig (s : State) (n : Nat) (j : BitVec 32) : (s.ckPend n j).mig = s.mig := rfl
@[simp] theorem State.ckPend_releasing (s : State) (n : Nat) (j : BitVec 32) : (s.ckPend n j).releasing = s.releasing := rfl
@[simp] theorem State.ckPend_hostReads (s : State) (n : Nat) (j : BitVec 32) : (s.ckPend n j).hostReads = s.hostReads := rfl
@[simp] theorem State.stopsActed_agenda (s : State) (l : List Stop) : (s.stopsActed l).agenda = s.agenda := rfl
@[simp] theorem State.stopsActed_cursor (s : State) (l : List Stop) : (s.stopsActed l).cursor = s.cursor := rfl
@[simp] theorem State.stopsActed_inputs (s : State) (l : List Stop) : (s.stopsActed l).inputs = s.inputs := rfl
@[simp] theorem State.stopsActed_funcs (s : State) (l : List Stop) : (s.stopsActed l).funcs = s.funcs := rfl
@[simp] theorem State.stopsActed_queues (s : State) (l : List Stop) : (s.stopsActed l).queues = s.queues := rfl
@[simp] theorem State.stopsActed_dram (s : State) (l : List Stop) : (s.stopsActed l).dram = s.dram := rfl
@[simp] theorem State.stopsActed_hostMem (s : State) (l : List Stop) : (s.stopsActed l).hostMem = s.hostMem := rfl
@[simp] theorem State.stopsActed_dev (s : State) (l : List Stop) : (s.stopsActed l).dev = s.dev := rfl
@[simp] theorem State.stopsActed_mig (s : State) (l : List Stop) : (s.stopsActed l).mig = s.mig := rfl
@[simp] theorem State.stopsActed_hostReads (s : State) (l : List Stop) : (s.stopsActed l).hostReads = s.hostReads := rfl
@[simp] theorem State.keepRead_hostReads (s : State) (r : HostRead) : (s.keepRead r).hostReads = s.hostReads ++ [r] := rfl
@[simp] theorem Chan.settleClr_cleared (c : Chan) : c.settleClr.cleared = c.cleared := rfl
@[simp] theorem Chan.settleClr_bad (c : Chan) : c.settleClr.bad = c.bad := rfl
@[simp] theorem Chan.settleClr_soft (c : Chan) : c.settleClr.soft = c.soft := rfl
@[simp] theorem Chan.settleClr_poison (c : Chan) : c.settleClr.poison = c.poison := rfl
@[simp] theorem Chan.settleClr_tags (c : Chan) : c.settleClr.tags = c.tags := rfl
@[simp] theorem Chan.settleClr_func (c : Chan) : c.settleClr.func = c.func := rfl
@[simp] theorem Stop.hit_queue (x : Stop) : x.hit.queue = x.queue := rfl
@[simp] theorem Stop.hit_recNo (x : Stop) : x.hit.recNo = x.recNo := rfl
@[simp] theorem Stop.hit_epoch (x : Stop) : x.hit.epoch = x.epoch := rfl
@[simp] theorem Stop.hit_phase (x : Stop) : x.hit.phase = x.phase := rfl
@[simp] theorem Stop.hit_irq (x : Stop) : x.hit.irq = x.irq := rfl
@[simp] theorem Stop.same_hit (x y : Stop) : x.same y.hit = x.same y := rfl

end Sys2Proof.Machine
end

