-- ==== Sys2Proof/Laws/Ops.lean ====
section
/-! SUPPORT. What the issue operation does: an instruction that issues runs its body and leaves its queue, or traps with
what its body raises. -/

namespace Sys2Proof.Machine

/-- A fold that keeps the largest of the cycles that some entries give finds none exactly when no entry gives one. -/
theorem foldl_max_none {α : Type} (p : α → Bool) (u : α → Nat) (l : List α) (m : Option Nat) :
    l.foldl (fun m x => if p x then some (max (u x) (m.getD 0)) else m) m = none ↔ m = none ∧ ∀ x ∈ l, p x = false := by
  induction l generalizing m with
  | nil => simp
  | cons a r ih =>
    rw [List.foldl_cons, ih]
    cases h : p a <;> simp [h]

theorem pendingUntil_none {t : Tile} {hand : Bool} {k start n : Nat} :
    t.pendingUntil hand k start n = none ↔
      ∀ p ∈ t.pendSpans hand, (decide (k < p.1) && meets start n p.2.1 p.2.2) = false := by
  unfold Tile.pendingUntil
  rw [foldl_max_none (fun p : Nat × Nat × Nat => decide (k < p.1) && meets start n p.2.1 p.2.2)]
  simp

/-- A slice of a span with no pending write has none. -/
theorem pendingUntil_slice {t : Tile} {hand : Bool} {k start n i : Nat} (h : t.pendingUntil hand k start n = none)
    (hi : i < n) : t.pendingUntil hand k (start + i) 1 = none := by
  rw [pendingUntil_none] at *
  intro p hp
  have := h p hp
  simp only [meets, Bool.and_eq_false_iff, decide_eq_false_iff_not, Nat.not_lt] at *
  omega

theorem firstPending_none {t : Tile} {c : Ctx} {l : List (Nat × Nat)}
    (h : (l.any fun p => (t.pendingUntil c.hand c.k p.1 p.2).isSome) = false) : t.firstPending c l = none := by
  have e : ((l.flatMap fun p => (List.range p.2).map fun i => p.1 + i).filterMap fun x =>
      (t.pendingUntil c.hand c.k x 1).map fun u => (x, u)) = [] := by
    rw [List.filterMap_eq_nil_iff]
    intro x hx
    simp only [List.mem_flatMap, List.mem_map, List.mem_range] at hx
    obtain ⟨p, hp, i, hi, rfl⟩ := hx
    have hn : t.pendingUntil c.hand c.k p.1 p.2 = none := by simpa using (List.any_eq_false.mp h) p hp
    rw [pendingUntil_slice hn hi]; rfl
  simp only [Tile.firstPending, e, List.foldl_nil]

theorem firstPendingPred_none {t : Tile} {c : Ctx} {l : List Nat}
    (h : (l.any fun p => (t.predPendingUntil c.hand c.k p).isSome) = false) : t.firstPendingPred c l = none := by
  have e : (l.filterMap fun n => (t.predPendingUntil c.hand c.k n).map fun u => (n, u)) = [] := by
    rw [List.filterMap_eq_nil_iff]
    intro p hp
    have hn : t.predPendingUntil c.hand c.k p = none := by simpa using (List.any_eq_false.mp h) p hp
    rw [hn]; rfl
  simp only [Tile.firstPendingPred, e, List.foldl_nil]

/-- The spans of an instruction that issues lie in the slice file (R83). -/
theorem outside_false {s : State} {f : Folio} {t : Tile} {c : Ctx} {n : Info} (h : Issues s f t c n) : n.outside = false := by
  simp only [Info.outside, List.any_eq_false, decide_eq_true_eq, Nat.not_lt]
  exact h.inside

/-- An instruction that issues raises nothing by its description. -/
theorem raises_nil {s : State} {f : Folio} {t : Tile} {c : Ctx} {n : Info} (h : Issues s f t c n) : n.raises c t = [] := by
  have hv := h.ready
  simp only [Tile.violation, Bool.or_eq_false_iff] at hv
  have hw : ((c.pfx.map (·.wc)).getD false && n.wides.any fun p => decide (p.2 < p.1)) = false := by
    cases hc : c.pfx with
    | none => rfl
    | some p =>
      cases hb : p.wc with
      | false => simp [hb]
      | true => simpa [hb] using (h.accepts p hc).2 hb
  have hs := outside_false h
  have hp : (c.pfx.any fun p => misuse p n) = false := by
    cases hc : c.pfx with
    | none => rfl
    | some p => exact (h.accepts p hc).1
  have hh : (c.hand && !n.hand) = false := by
    cases hc : c.hand with
    | false => rfl
    | true => simp [h.allowed hc]
  simp only [Info.raises, h.legal, hh, hs, hw, hp, firstPending_none hv.1, firstPendingPred_none hv.2, h.settled,
    Bool.false_eq_true, if_false, ite_self, List.append_nil]

/-- Nothing but a hold of its own keeps an instruction that issues at its head. -/
theorem holdOf_own {s : State} {f : Folio} {t : Tile} {c : Ctx} {n : Info} (h : Issues s f t c n) : holdOf n none c t = none := by
  have he : (!c.hand && n.debit c != 0 && (t.blocked || decide (t.avail < n.debit c))) = false := by
    rcases h.paid with hp | hp | ⟨hb, hp⟩
    · simp [hp]
    · simp [hp]
    · simp [hb, hp]
  cases ha : n.acc with
  | none => simp [holdOf, h.free, h.legal, h.ready, ha, he]
  | some a => simp [holdOf, h.free, h.legal, h.ready, ha, h.unfenced a ha, he]

/-- An instruction that issues without a hold of its own takes its body's effect, pays and leaves its queue. -/
theorem issue_ok {info : Tile → Info} {own : Ctx → Tile → Option Hold} {body : Ctx → Tile → Except Raise Tile}
    {s : State} {f : Folio} {t t' : Tile} {c : Ctx} (h : Issues s f t c (info t)) (ho : own c t = none)
    (hb : body c t = .ok t') (hp : t.predsApart c t') :
    issue info own body s = .next (s.putTile f (t'.issued c ((info t).cost c))) := by
  unfold Tile.predsApart at hp
  simp [issue, h.here, attempt, ho, holdOf_own h, raises_nil h, hb, hp, raisesOf, h.sound, h.legal, Info.cost]

/-- An effect that posts no write meets no predicate that awaits one (R466). -/
theorem Tile.predsApart_of_pend {t t' : Tile} {c : Ctx} (h : t'.pend = t.pend) : t.predsApart c t' := by
  simp [Tile.predsApart, Tile.folioPreds, h]

/-- Outside a handler no predicate write is checked against another (R466). -/
theorem Tile.predsApart_of_folio {t t' : Tile} {c : Ctx} (h : c.hand = false) : t.predsApart c t' := by
  simp [Tile.predsApart, Tile.folioPreds, h]

/-- An instruction whose body raises takes no effect and keeps its place. -/
theorem issue_trap {info : Tile → Info} {own : Ctx → Tile → Option Hold} {body : Ctx → Tile → Except Raise Tile}
    {s : State} {f : Folio} {t : Tile} {c : Ctx} {r : Raise} (h : Issues s f t c (info t)) (ho : own c t = none)
    (hb : body c t = .error r) :
    issue info own body s
      = .next (s.putTile f { t.addRaise (c.inHand r) with ctl := { t.ctl with pfx := none } }) := by
  simp [issue, h.here, attempt, ho, holdOf_own h, raises_nil h, hb, h.legal, outside_false h, raisesOf, Tile.addRaise]

/-- A queue instruction changes nothing but the tile at the cursor. -/
theorem issue_frame {info : Tile → Info} {own : Ctx → Tile → Option Hold} {body : Ctx → Tile → Except Raise Tile}
    {s s' : State} (h : issue info own body s = .next s') : ∃ f t c t', s.at? = some (f, t, c) ∧ s' = s.putTile f t' := by
  unfold issue at h
  split at h
  · cases h
  · rename_i f t c he
    exact ⟨f, t, c, _, he, by simpa using h.symm⟩

/-- An instruction whose issue runs a body completes with what the body answers, wherever its own hold lets it go. -/
theorem completes_of_body {i : Instr} {n : Tile → Info} {own : Ctx → Tile → Option Hold}
    {body : Ctx → Tile → Except Raise Tile} {ok : Ctx → Tile → Prop} {g : Ctx → Tile → Tile}
    (he : ∀ s, exec i s = issue n own body s) (ho : ∀ c t, ok c t → own c t = none) (hb : ∀ c t, ok c t → body c t = .ok (g c t)) :
    Completes i n ok g := by
  intro s f t c h hk hp
  rw [he, issue_ok h (ho c t hk) (hb c t hk) hp]

/-- An instruction whose body raises traps with what it raises. -/
theorem traps_of_body {i : Instr} {n : Tile → Info} {own : Ctx → Tile → Option Hold}
    {body : Ctx → Tile → Except Raise Tile} {bad : Ctx → Tile → Prop} {r : Ctx → Tile → Raise}
    (he : ∀ s, exec i s = issue n own body s) (ho : ∀ c t, bad c t → own c t = none)
    (hb : ∀ c t, bad c t → body c t = .error (r c t)) : Traps i n bad r := by
  intro s f t c h hk
  rw [he, issue_trap h (ho c t hk) (hb c t hk)]

/-- A row of the machine that answers a next state which p holds of. -/
theorem ends_of {i : Instr} {s s' : State} {p : State → Prop} (h : exec i s = .next s') (k : p s') : Ends i s p := ⟨s', h, k⟩

/-- A store leaves every byte outside it (R307). -/
theorem Tile.byte_store_outside (t : Tile) (a n v x : Nat) (h : x < a ∨ a + n ≤ x) : (t.store a n v).byte x = t.byte x := by
  simp only [Tile.byte, Tile.store]
  unfold Stores.clean
  simp only
  split <;> exact Memory.read_writeN_of_outside _ _ _ _ _ h

/-- A store keeps the canonical form of a tile's memory. -/
theorem Tile.store_memWf {t : Tile} (h : t.memWf) (a n v : Nat) : (t.store a n v).memWf := by
  simp only [Tile.memWf, Tile.store]
  unfold Stores.clean
  simp only
  split <;> exact Memory.writeN_wf h _ _ _

/-- Every memory has its canonical form after reset (log 2). -/
theorem State.reset_allWf : State.reset.allWf := by
  simp only [State.allWf, State.memWf, State.reset]
  simp [Memory.wf]

end Sys2Proof.Machine
end

