-- ==== Sys2Proof/Laws/PerInstr.lean ====
section
/-! SUPPORT. Per instruction: the second word of an instruction whose first word does not begin a 64-bit one is zero (R47), so
that a 32-bit instruction occupies one word. -/

namespace Sys2Proof.Laws.Words

/-- Where the first word of an instruction does not begin a 64-bit one, there is no second word (R47). -/
def Statement (i : Instr) : Prop := isLong (encode i).1 = false → (encode i).2 = 0

theorem externalResultArrival (id : Nat) (data : BitVec 512) (poison : BitVec 8) : Statement (.externalResultArrival id data poison) := fun _ => rfl
theorem fack (func : Nat) (value : BitVec 64) : Statement (.fack func value) := fun _ => rfl
theorem lqtailWrite (q : Nat) (tail : BitVec 32) : Statement (.lqtailWrite q tail) := fun _ => rfl
theorem lqownWrite (q : Nat) (func : BitVec 6) : Statement (.lqownWrite q func) := fun _ => rfl
theorem leaseWrite (ch : Nat) (value : BitVec 64) : Statement (.leaseWrite ch value) := fun _ => rfl
theorem vfReset (func : Nat) : Statement (.vfReset func) := fun _ => rfl
theorem tlbinv (func : Nat) (value : BitVec 64) : Statement (.tlbinv func value) := fun _ => rfl
theorem keyRotationArm (func : Nat) (value : BitVec 64) : Statement (.keyRotationArm func value) := fun _ => rfl
theorem scrubVisit (ch : Nat) (corrected : Bool) : Statement (.scrubVisit ch corrected) := fun _ => rfl
theorem ideKmKeyProgram (stream : Nat) (authenticated : Bool) : Statement (.ideKmKeyProgram stream authenticated) := fun _ => rfl
theorem hostCompletionArrival (id : Nat) (poison : BitVec 8) (error macFail : Bool) : Statement (.hostCompletionArrival id poison error macFail) := fun _ => rfl
theorem cxlMemRead (addr : BitVec 64) : Statement (.cxlMemRead addr) := fun _ => rfl
theorem cxlMemWrite (addr : BitVec 64) (enable : BitVec 64) (data : BitVec 512) (macFail : Bool) : Statement (.cxlMemWrite addr enable data macFail) := fun _ => rfl
theorem errchWrite (ch : Nat) : Statement (.errchWrite ch) := fun _ => rfl
theorem errlnkWrite (link : Nat) : Statement (.errlnkWrite link) := fun _ => rfl
theorem traceTriggerNow (n : Nat) : Statement (.traceTriggerNow n) := fun _ => rfl
theorem profcntLowRead (func n m : Nat) : Statement (.profcntLowRead func n m) := fun _ => rfl
theorem bringUp (ok : Bool) : Statement (.bringUp ok) := fun _ => rfl
theorem supplyDroop (steps : Nat) : Statement (.supplyDroop steps) := fun _ => rfl
theorem giferFlitReceive (link : Nat) (outcome : FlitOutcome) (id : Nat) (data : BitVec 512) : Statement (.giferFlitReceive link outcome id data) := fun _ => rfl
theorem registerWrite (func offset : Nat) (value : Option (BitVec 64)) : Statement (.registerWrite func offset value) := fun _ => rfl
theorem add (d a b : BitVec 7) : Statement (.add d a b) := fun _ => rfl
theorem sub (d a b : BitVec 7) : Statement (.sub d a b) := fun _ => rfl
theorem mul (d a b : BitVec 7) : Statement (.mul d a b) := fun _ => rfl
theorem mulh (d a b : BitVec 7) : Statement (.mulh d a b) := fun _ => rfl
theorem mulhz (d a b : BitVec 7) : Statement (.mulhz d a b) := fun _ => rfl
theorem div (d a b : BitVec 7) : Statement (.div d a b) := fun _ => rfl
theorem divz (d a b : BitVec 7) : Statement (.divz d a b) := fun _ => rfl
theorem rem (d a b : BitVec 7) : Statement (.rem d a b) := fun _ => rfl
theorem remz (d a b : BitVec 7) : Statement (.remz d a b) := fun _ => rfl
theorem min (d a b : BitVec 7) : Statement (.min d a b) := fun _ => rfl
theorem max (d a b : BitVec 7) : Statement (.max d a b) := fun _ => rfl
theorem minz (d a b : BitVec 7) : Statement (.minz d a b) := fun _ => rfl
theorem maxz (d a b : BitVec 7) : Statement (.maxz d a b) := fun _ => rfl
theorem and (d a b : BitVec 7) : Statement (.and d a b) := fun _ => rfl
theorem or (d a b : BitVec 7) : Statement (.or d a b) := fun _ => rfl
theorem xor (d a b : BitVec 7) : Statement (.xor d a b) := fun _ => rfl
theorem andn (d a b : BitVec 7) : Statement (.andn d a b) := fun _ => rfl
theorem shl (d a b : BitVec 7) : Statement (.shl d a b) := fun _ => rfl
theorem shr (d a b : BitVec 7) : Statement (.shr d a b) := fun _ => rfl
theorem sar (d a b : BitVec 7) : Statement (.sar d a b) := fun _ => rfl
theorem rotl (d a b : BitVec 7) : Statement (.rotl d a b) := fun _ => rfl
theorem neg (d a : BitVec 7) : Statement (.neg d a) := fun _ => rfl
theorem abs (d a : BitVec 7) : Statement (.abs d a) := fun _ => rfl
theorem not (d a : BitVec 7) : Statement (.not d a) := fun _ => rfl
theorem clz (d a : BitVec 7) : Statement (.clz d a) := fun _ => rfl
theorem ctz (d a : BitVec 7) : Statement (.ctz d a) := fun _ => rfl
theorem popc (d a : BitVec 7) : Statement (.popc d a) := fun _ => rfl
theorem brev (d a : BitVec 7) : Statement (.brev d a) := fun _ => rfl
theorem mov (d a : BitVec 7) : Statement (.mov d a) := fun _ => rfl
theorem satn (d a : BitVec 7) (z : Bool) (n : BitVec 5) : Statement (.satn d a z n) := fun _ => rfl
theorem crng16 (d a b : BitVec 7) : Statement (.crng16 d a b) := fun _ => rfl
theorem crng32 (d a b : BitVec 7) : Statement (.crng32 d a b) := fun _ => rfl
theorem ext (d a b : BitVec 7) : Statement (.ext d a b) := fun _ => rfl
theorem dep (d a b : BitVec 7) : Statement (.dep d a b) := fun _ => rfl
theorem addi (d a : BitVec 7) (imm : BitVec 11) : Statement (.addi d a imm) := fun _ => rfl
theorem movi (d : BitVec 7) (imm : BitVec 18) : Statement (.movi d imm) := fun _ => rfl
theorem movih (d : BitVec 7) (imm : BitVec 18) : Statement (.movih d imm) := fun _ => rfl
theorem cmp (cond : Cond) (pd : BitVec 4) (a b : BitVec 7) : Statement (.cmp cond pd a b) := fun _ => rfl
theorem cmpi (cond : Cond) (pd : BitVec 4) (a : BitVec 7) (imm : BitVec 10) : Statement (.cmpi cond pd a imm) := fun _ => rfl
theorem tst (none : Bool) (pd : BitVec 4) (a b : BitVec 7) : Statement (.tst none pd a b) := fun _ => rfl
theorem sel (p : BitVec 4) (d a b : BitVec 7) : Statement (.sel p d a b) := fun _ => rfl
theorem pand (pd pa pb : BitVec 4) : Statement (.pand pd pa pb) := fun _ => rfl
theorem por (pd pa pb : BitVec 4) : Statement (.por pd pa pb) := fun _ => rfl
theorem pxor (pd pa pb : BitVec 4) : Statement (.pxor pd pa pb) := fun _ => rfl
theorem pnot (pd pa : BitVec 4) : Statement (.pnot pd pa) := fun _ => rfl
theorem pmov (pd pa : BitVec 4) : Statement (.pmov pd pa) := fun _ => rfl
theorem ppack (d : BitVec 7) : Statement (.ppack d) := fun _ => rfl
theorem punpack (d : BitVec 7) : Statement (.punpack d) := fun _ => rfl
theorem tagset (d : BitVec 7) (tag : BitVec 5) : Statement (.tagset d tag) := fun _ => rfl
theorem tagget (d a : BitVec 7) : Statement (.tagget d a) := fun _ => rfl
theorem addLong (o : Long3) : Statement (.addLong o) := fun h => nomatch (isLong_enc3 0x60 0 o rfl).symm.trans h
theorem subLong (o : Long3) : Statement (.subLong o) := fun h => nomatch (isLong_enc3 0x60 1 o rfl).symm.trans h
theorem mulLong (o : Long3) : Statement (.mulLong o) := fun h => nomatch (isLong_enc3 0x60 2 o rfl).symm.trans h
theorem mulhLong (o : Long3) : Statement (.mulhLong o) := fun h => nomatch (isLong_enc3 0x60 3 o rfl).symm.trans h
theorem mulhzLong (o : Long3) : Statement (.mulhzLong o) := fun h => nomatch (isLong_enc3 0x60 4 o rfl).symm.trans h
theorem divLong (o : Long3) : Statement (.divLong o) := fun h => nomatch (isLong_enc3 0x60 5 o rfl).symm.trans h
theorem divzLong (o : Long3) : Statement (.divzLong o) := fun h => nomatch (isLong_enc3 0x60 6 o rfl).symm.trans h
theorem remLong (o : Long3) : Statement (.remLong o) := fun h => nomatch (isLong_enc3 0x60 7 o rfl).symm.trans h
theorem remzLong (o : Long3) : Statement (.remzLong o) := fun h => nomatch (isLong_enc3 0x60 8 o rfl).symm.trans h
theorem minLong (o : Long3) : Statement (.minLong o) := fun h => nomatch (isLong_enc3 0x60 9 o rfl).symm.trans h
theorem maxLong (o : Long3) : Statement (.maxLong o) := fun h => nomatch (isLong_enc3 0x60 10 o rfl).symm.trans h
theorem minzLong (o : Long3) : Statement (.minzLong o) := fun h => nomatch (isLong_enc3 0x60 11 o rfl).symm.trans h
theorem maxzLong (o : Long3) : Statement (.maxzLong o) := fun h => nomatch (isLong_enc3 0x60 12 o rfl).symm.trans h
theorem andLong (o : Long3) : Statement (.andLong o) := fun h => nomatch (isLong_enc3 0x60 16 o rfl).symm.trans h
theorem orLong (o : Long3) : Statement (.orLong o) := fun h => nomatch (isLong_enc3 0x60 17 o rfl).symm.trans h
theorem xorLong (o : Long3) : Statement (.xorLong o) := fun h => nomatch (isLong_enc3 0x60 18 o rfl).symm.trans h
theorem andnLong (o : Long3) : Statement (.andnLong o) := fun h => nomatch (isLong_enc3 0x60 19 o rfl).symm.trans h
theorem shlLong (o : Long3) : Statement (.shlLong o) := fun h => nomatch (isLong_enc3 0x60 20 o rfl).symm.trans h
theorem shrLong (o : Long3) : Statement (.shrLong o) := fun h => nomatch (isLong_enc3 0x60 21 o rfl).symm.trans h
theorem sarLong (o : Long3) : Statement (.sarLong o) := fun h => nomatch (isLong_enc3 0x60 22 o rfl).symm.trans h
theorem rotlLong (o : Long3) : Statement (.rotlLong o) := fun h => nomatch (isLong_enc3 0x60 23 o rfl).symm.trans h
theorem negLong (o : Long3) : Statement (.negLong o) := fun h => nomatch (isLong_enc3 0x61 0 o rfl).symm.trans h
theorem absLong (o : Long3) : Statement (.absLong o) := fun h => nomatch (isLong_enc3 0x61 1 o rfl).symm.trans h
theorem notLong (o : Long3) : Statement (.notLong o) := fun h => nomatch (isLong_enc3 0x61 2 o rfl).symm.trans h
theorem clzLong (o : Long3) : Statement (.clzLong o) := fun h => nomatch (isLong_enc3 0x61 3 o rfl).symm.trans h
theorem ctzLong (o : Long3) : Statement (.ctzLong o) := fun h => nomatch (isLong_enc3 0x61 4 o rfl).symm.trans h
theorem popcLong (o : Long3) : Statement (.popcLong o) := fun h => nomatch (isLong_enc3 0x61 5 o rfl).symm.trans h
theorem brevLong (o : Long3) : Statement (.brevLong o) := fun h => nomatch (isLong_enc3 0x61 6 o rfl).symm.trans h
theorem movLong (o : Long3) : Statement (.movLong o) := fun h => nomatch (isLong_enc3 0x61 7 o rfl).symm.trans h
theorem satnLong (o : Long3) : Statement (.satnLong o) := fun h => nomatch (isLong_enc3 0x61 8 o rfl).symm.trans h
theorem crng16Long (o : Long3) : Statement (.crng16Long o) := fun h => nomatch (isLong_enc3 0x61 16 o rfl).symm.trans h
theorem crng32Long (o : Long3) : Statement (.crng32Long o) := fun h => nomatch (isLong_enc3 0x61 17 o rfl).symm.trans h
theorem extLong (o : Long3) : Statement (.extLong o) := fun h => nomatch (isLong_enc3 0x61 18 o rfl).symm.trans h
theorem depLong (o : Long3) : Statement (.depLong o) := fun h => nomatch (isLong_enc3 0x61 19 o rfl).symm.trans h
theorem moviLong (o : LongImm) : Statement (.moviLong o) := fun h => nomatch (isLong_encI 0 o).symm.trans h
theorem movihLong (o : LongImm) : Statement (.movihLong o) := fun h => nomatch (isLong_encI 1 o).symm.trans h
theorem cmpLong (c : Cond) (o : LongCmp) : Statement (.cmpLong c o) := fun h => nomatch (isLong_encC 0 (BitVec.ofNat 4 (condNum c)) o).symm.trans h
theorem tstLong (c : Bool) (o : LongCmp) : Statement (.tstLong c o) := fun h => nomatch (isLong_encC 1 (0#3 ++ BitVec.ofBool c) o).symm.trans h
theorem selLong (o : LongSel) : Statement (.selLong o) := fun h => nomatch (isLong_encS o).symm.trans h
theorem waitt (t : BitVec 3) (n : BitVec 8) : Statement (.waitt t n) := fun _ => rfl
theorem sigt (t : BitVec 3) (n : BitVec 8) : Statement (.sigt t n) := fun _ => rfl
theorem pfx (p : Pfx) : Statement (.pfx p) := fun _ => rfl
theorem pbr (b : BitVec 3) (disp : BitVec 13) : Statement (.pbr b disp) := fun _ => rfl
theorem pbrs (b : BitVec 3) (a : BitVec 7) : Statement (.pbrs b a) := fun _ => rfl
theorem br (b : BitVec 3) (p : BitVec 4) (n u : Bool) : Statement (.br b p n u) := fun _ => rfl
theorem call (b : BitVec 3) (slide : BitVec 6) : Statement (.call b slide) := fun _ => rfl
theorem ret (slide : BitVec 6) : Statement (.ret slide) := fun _ => rfl
theorem loopImm (level : BitVec 2) (count : BitVec 12) (lines : BitVec 10) : Statement (.loopImm level count lines) := fun _ => rfl
theorem loopReg (level : BitVec 2) (a : BitVec 7) (lines : BitVec 10) : Statement (.loopReg level a lines) := fun _ => rfl
theorem lbrk (level : BitVec 2) (p : BitVec 4) (n : Bool) : Statement (.lbrk level p n) := fun _ => rfl
theorem ovl (n : BitVec 8) : Statement (.ovl n) := fun _ => rfl
theorem penlift (map : BitVec 12) : Statement (.penlift map) := fun _ => rfl
theorem waitc (delay : BitVec 24) : Statement (.waitc delay) := fun _ => rfl
theorem waitcUntil (a : BitVec 7) : Statement (.waitcUntil a) := fun _ => rfl
theorem trap (arg : BitVec 16) : Statement (.trap arg) := fun _ => rfl
theorem rdid (sel : IdSel) (d : BitVec 7) : Statement (.rdid sel d) := fun _ => rfl
theorem rdclk (d : BitVec 7) : Statement (.rdclk d) := fun _ => rfl
theorem csrrd (csr : BitVec 12) (d : BitVec 7) : Statement (.csrrd csr d) := fun _ => rfl
theorem csrwr (csr : BitVec 12) (a : BitVec 7) : Statement (.csrwr csr a) := fun _ => rfl
theorem brk (code : BitVec 16) : Statement (.brk code) := fun _ => rfl
theorem ld (size : BitVec 2) (z : Bool) (d base : BitVec 7) (disp : BitVec 8) : Statement (.ld size z d base disp) := fun _ => rfl
theorem st (size : BitVec 2) (d base : BitVec 7) (disp : BitVec 8) : Statement (.st size d base disp) := fun _ => rfl
theorem fence (mask : BitVec 16) : Statement (.fence mask) := fun _ => rfl
theorem sfence (scope : BitVec 2) (mask : BitVec 16) : Statement (.sfence scope mask) := fun _ => rfl
theorem probe (slot : BitVec 5) (a d : BitVec 7) : Statement (.probe slot a d) := fun _ => rfl
theorem unpin (slot : BitVec 5) : Statement (.unpin slot) := fun _ => rfl
theorem ldLong (o : LongMem) : Statement (.ldLong o) := fun h => nomatch (isLong_encM 0x64 0 o rfl).symm.trans h
theorem stLong (o : LongMem) : Statement (.stLong o) := fun h => nomatch (isLong_encM 0x64 1 o rfl).symm.trans h
theorem spill (o : LongMem) : Statement (.spill o) := fun h => nomatch (isLong_encM 0x64 2 o rfl).symm.trans h
theorem fill (o : LongMem) : Statement (.fill o) := fun h => nomatch (isLong_encM 0x64 3 o rfl).symm.trans h
theorem ldx (o : LongMem) : Statement (.ldx o) := fun h => nomatch (isLong_encM 0x64 4 o rfl).symm.trans h
theorem stx (o : LongMem) : Statement (.stx o) := fun h => nomatch (isLong_encM 0x64 5 o rfl).symm.trans h
theorem atomAdd (o : LongMem) : Statement (.atomAdd o) := fun h => nomatch (isLong_encM 0x65 0 o rfl).symm.trans h
theorem atomMin (o : LongMem) : Statement (.atomMin o) := fun h => nomatch (isLong_encM 0x65 1 o rfl).symm.trans h
theorem atomMax (o : LongMem) : Statement (.atomMax o) := fun h => nomatch (isLong_encM 0x65 2 o rfl).symm.trans h
theorem atomAnd (o : LongMem) : Statement (.atomAnd o) := fun h => nomatch (isLong_encM 0x65 3 o rfl).symm.trans h
theorem atomOr (o : LongMem) : Statement (.atomOr o) := fun h => nomatch (isLong_encM 0x65 4 o rfl).symm.trans h
theorem atomXor (o : LongMem) : Statement (.atomXor o) := fun h => nomatch (isLong_encM 0x65 5 o rfl).symm.trans h
theorem atomXchg (o : LongMem) : Statement (.atomXchg o) := fun h => nomatch (isLong_encM 0x65 6 o rfl).symm.trans h
theorem atomCas (o : LongMem) : Statement (.atomCas o) := fun h => nomatch (isLong_encM 0x65 7 o rfl).symm.trans h
theorem atomFadd (o : LongMem) : Statement (.atomFadd o) := fun h => nomatch (isLong_encM 0x65 8 o rfl).symm.trans h
theorem atomMinZ (o : LongMem) : Statement (.atomMinZ o) := fun h => nomatch (isLong_encM 0x65 9 o rfl).symm.trans h
theorem atomMaxZ (o : LongMem) : Statement (.atomMaxZ o) := fun h => nomatch (isLong_encM 0x65 10 o rfl).symm.trans h
theorem ratomAdd (o : LongMem) : Statement (.ratomAdd o) := fun h => nomatch (isLong_encM 0x66 0 o rfl).symm.trans h
theorem ratomMin (o : LongMem) : Statement (.ratomMin o) := fun h => nomatch (isLong_encM 0x66 1 o rfl).symm.trans h
theorem ratomMax (o : LongMem) : Statement (.ratomMax o) := fun h => nomatch (isLong_encM 0x66 2 o rfl).symm.trans h
theorem ratomAnd (o : LongMem) : Statement (.ratomAnd o) := fun h => nomatch (isLong_encM 0x66 3 o rfl).symm.trans h
theorem ratomOr (o : LongMem) : Statement (.ratomOr o) := fun h => nomatch (isLong_encM 0x66 4 o rfl).symm.trans h
theorem ratomXor (o : LongMem) : Statement (.ratomXor o) := fun h => nomatch (isLong_encM 0x66 5 o rfl).symm.trans h
theorem ratomXchg (o : LongMem) : Statement (.ratomXchg o) := fun h => nomatch (isLong_encM 0x66 6 o rfl).symm.trans h
theorem ratomCas (o : LongMem) : Statement (.ratomCas o) := fun h => nomatch (isLong_encM 0x66 7 o rfl).symm.trans h
theorem ratomFadd (o : LongMem) : Statement (.ratomFadd o) := fun h => nomatch (isLong_encM 0x66 8 o rfl).symm.trans h
theorem ratomMinZ (o : LongMem) : Statement (.ratomMinZ o) := fun h => nomatch (isLong_encM 0x66 9 o rfl).symm.trans h
theorem ratomMaxZ (o : LongMem) : Statement (.ratomMaxZ o) := fun h => nomatch (isLong_encM 0x66 10 o rfl).symm.trans h
theorem waita (c : Cond) (o : LongMem) : Statement (.waita c o) := fun h => nomatch (isLong_encM 0x67 (BitVec.ofNat 5 (condNum c)) o rfl).symm.trans h
theorem vadd (o : LongVec) : Statement (.vadd o) := fun h => nomatch (isLong_encV 0x68 0 o rfl).symm.trans h
theorem vsub (o : LongVec) : Statement (.vsub o) := fun h => nomatch (isLong_encV 0x68 1 o rfl).symm.trans h
theorem vmul (o : LongVec) : Statement (.vmul o) := fun h => nomatch (isLong_encV 0x68 2 o rfl).symm.trans h
theorem vfma (o : LongVec) : Statement (.vfma o) := fun h => nomatch (isLong_encV 0x68 3 o rfl).symm.trans h
theorem vfms (o : LongVec) : Statement (.vfms o) := fun h => nomatch (isLong_encV 0x68 4 o rfl).symm.trans h
theorem vneg (o : LongVec) : Statement (.vneg o) := fun h => nomatch (isLong_encV 0x68 5 o rfl).symm.trans h
theorem vabs (o : LongVec) : Statement (.vabs o) := fun h => nomatch (isLong_encV 0x68 6 o rfl).symm.trans h
theorem vmin (o : LongVec) : Statement (.vmin o) := fun h => nomatch (isLong_encV 0x68 7 o rfl).symm.trans h
theorem vmax (o : LongVec) : Statement (.vmax o) := fun h => nomatch (isLong_encV 0x68 8 o rfl).symm.trans h
theorem vcmp (o : LongVec) : Statement (.vcmp o) := fun h => nomatch (isLong_encV 0x68 9 o rfl).symm.trans h
theorem vsel (o : LongVec) : Statement (.vsel o) := fun h => nomatch (isLong_encV 0x68 10 o rfl).symm.trans h
theorem vcvt (o : LongVec) : Statement (.vcvt o) := fun h => nomatch (isLong_encV 0x68 11 o rfl).symm.trans h
theorem vrcp (o : LongVec) : Statement (.vrcp o) := fun h => nomatch (isLong_encV 0x68 12 o rfl).symm.trans h
theorem vrsq (o : LongVec) : Statement (.vrsq o) := fun h => nomatch (isLong_encV 0x68 13 o rfl).symm.trans h
theorem vsqrt (o : LongVec) : Statement (.vsqrt o) := fun h => nomatch (isLong_encV 0x68 14 o rfl).symm.trans h
theorem vexp2 (o : LongVec) : Statement (.vexp2 o) := fun h => nomatch (isLong_encV 0x68 15 o rfl).symm.trans h
theorem vlog2 (o : LongVec) : Statement (.vlog2 o) := fun h => nomatch (isLong_encV 0x68 16 o rfl).symm.trans h
theorem vsum (o : LongVec) : Statement (.vsum o) := fun h => nomatch (isLong_encV 0x68 17 o rfl).symm.trans h
theorem vmaxr (o : LongVec) : Statement (.vmaxr o) := fun h => nomatch (isLong_encV 0x68 18 o rfl).symm.trans h
theorem vminr (o : LongVec) : Statement (.vminr o) := fun h => nomatch (isLong_encV 0x68 19 o rfl).symm.trans h
theorem vdot (o : LongVec) : Statement (.vdot o) := fun h => nomatch (isLong_encV 0x68 20 o rfl).symm.trans h
theorem vclamp (o : LongVec) : Statement (.vclamp o) := fun h => nomatch (isLong_encV 0x68 21 o rfl).symm.trans h
theorem vscl (o : LongVec) : Statement (.vscl o) := fun h => nomatch (isLong_encV 0x68 22 o rfl).symm.trans h
theorem viadd (o : LongVec) : Statement (.viadd o) := fun h => nomatch (isLong_encV 0x69 0 o rfl).symm.trans h
theorem visub (o : LongVec) : Statement (.visub o) := fun h => nomatch (isLong_encV 0x69 1 o rfl).symm.trans h
theorem vimul (o : LongVec) : Statement (.vimul o) := fun h => nomatch (isLong_encV 0x69 2 o rfl).symm.trans h
theorem vshl (o : LongVec) : Statement (.vshl o) := fun h => nomatch (isLong_encV 0x69 3 o rfl).symm.trans h
theorem vshr (o : LongVec) : Statement (.vshr o) := fun h => nomatch (isLong_encV 0x69 4 o rfl).symm.trans h
theorem vand (o : LongVec) : Statement (.vand o) := fun h => nomatch (isLong_encV 0x69 5 o rfl).symm.trans h
theorem vor (o : LongVec) : Statement (.vor o) := fun h => nomatch (isLong_encV 0x69 6 o rfl).symm.trans h
theorem vxor (o : LongVec) : Statement (.vxor o) := fun h => nomatch (isLong_encV 0x69 7 o rfl).symm.trans h
theorem vshuf (o : LongVec) : Statement (.vshuf o) := fun h => nomatch (isLong_encV 0x69 8 o rfl).symm.trans h
theorem vbcast (o : LongVec) : Statement (.vbcast o) := fun h => nomatch (isLong_encV 0x69 9 o rfl).symm.trans h
theorem vslide (o : LongVec) : Statement (.vslide o) := fun h => nomatch (isLong_encV 0x69 10 o rfl).symm.trans h
theorem vzip (o : LongVec) : Statement (.vzip o) := fun h => nomatch (isLong_encV 0x69 11 o rfl).symm.trans h
theorem vunzip (o : LongVec) : Statement (.vunzip o) := fun h => nomatch (isLong_encV 0x69 12 o rfl).symm.trans h
theorem dqntSurvey (o : LongVec) : Statement (.dqntSurvey o) := fun h => nomatch (isLong_encV 0x6A 0 o rfl).symm.trans h
theorem dqntHead (o : LongVec) : Statement (.dqntHead o) := fun h => nomatch (isLong_encV 0x6A 0 o rfl).symm.trans h
theorem dqntQ (o : LongVec) : Statement (.dqntQ o) := fun h => nomatch (isLong_encV 0x6A 0 o rfl).symm.trans h
theorem ddq (o : LongVec) : Statement (.ddq o) := fun h => nomatch (isLong_encV 0x6A 1 o rfl).symm.trans h
theorem dscale (o : LongVec) : Statement (.dscale o) := fun h => nomatch (isLong_encV 0x6A 2 o rfl).symm.trans h
theorem mma (o : Mat) : Statement (.mma o) := fun h => nomatch (isLong_encA 0 o).symm.trans h
theorem wld (o : Mat) : Statement (.wld o) := fun h => nomatch (isLong_encA 1 o).symm.trans h
theorem accz (o : Mat) : Statement (.accz o) := fun h => nomatch (isLong_encA 2 o).symm.trans h
theorem accrd (o : Mat) : Statement (.accrd o) := fun h => nomatch (isLong_encA 3 o).symm.trans h
theorem accwr (o : Mat) : Statement (.accwr o) := fun h => nomatch (isLong_encA 4 o).symm.trans h
theorem accadd (o : Mat) : Statement (.accadd o) := fun h => nomatch (isLong_encA 5 o).symm.trans h
theorem accsc (o : Mat) : Statement (.accsc o) := fun h => nomatch (isLong_encA 6 o).symm.trans h
theorem cpy (o : CopyOp) : Statement (.cpy o) := fun h => nomatch (isLong_encX 0 o).symm.trans h
theorem cpyh (o : CopyOp) : Statement (.cpyh o) := fun h => nomatch (isLong_encX 1 o).symm.trans h
theorem cpyw (o : CopyOp) : Statement (.cpyw o) := fun h => nomatch (isLong_encX 2 o).symm.trans h
theorem cpyt (o : CopyOp) : Statement (.cpyt o) := fun h => nomatch (isLong_encX 3 o).symm.trans h
theorem gath (o : CopyOp) : Statement (.gath o) := fun h => nomatch (isLong_encX 4 o).symm.trans h
theorem scat (o : CopyOp) : Statement (.scat o) := fun h => nomatch (isLong_encX 5 o).symm.trans h
theorem cpysf (o : CopyOp) : Statement (.cpysf o) := fun h => nomatch (isLong_encX 6 o).symm.trans h
theorem sigw (o : CopyOp) : Statement (.sigw o) := fun h => nomatch (isLong_encX 7 o).symm.trans h
theorem bcst (o : CopyOp) : Statement (.bcst o) := fun h => nomatch (isLong_encX 8 o).symm.trans h
theorem coll (o : CopyOp) : Statement (.coll o) := fun h => nomatch (isLong_encX 9 o).symm.trans h
theorem inkc (o : CopyOp) : Statement (.inkc o) := fun h => nomatch (isLong_encX 10 o).symm.trans h
theorem inkf (o : CopyOp) : Statement (.inkf o) := fun h => nomatch (isLong_encX 11 o).symm.trans h
theorem timld (o : CopyOp) : Statement (.timld o) := fun h => nomatch (isLong_encX 12 o).symm.trans h
theorem send (o : NetSend) : Statement (.send o) := fun h => nomatch (isLong_encN o).symm.trans h
theorem sendi (o : NetSendi) : Statement (.sendi o) := fun h => nomatch (isLong_encNi o).symm.trans h
theorem recv (o : NetRecv) : Statement (.recv o) := fun h => nomatch (isLong_encNr 2 o).symm.trans h
theorem recvw (o : NetRecv) : Statement (.recvw o) := fun h => nomatch (isLong_encNr 3 o).symm.trans h
theorem bar (n : BitVec 5) : Statement (.bar n) := fun _ => rfl
theorem bara (n : BitVec 5) : Statement (.bara n) := fun _ => rfl
theorem barw (n : BitVec 5) : Statement (.barw n) := fun _ => rfl
theorem privilegedOnChipMapWrite (addr : BitVec 48) (size : Nat) (value : BitVec 64) : Statement (.privilegedOnChipMapWrite addr size value) := fun _ => rfl
theorem stackTemperatureRefreshDemand (stack : Nat) (demand : Bool) : Statement (.stackTemperatureRefreshDemand stack demand) := fun _ => rfl
theorem controlStateParityError (n fx fy : Nat) : Statement (.controlStateParityError n fx fy) := fun _ => rfl
theorem giferLinkDown (link : Nat) : Statement (.giferLinkDown link) := fun _ => rfl
theorem lineDispatch : Statement (.lineDispatch) := fun _ => rfl
theorem crossingWordCompletion : Statement (.crossingWordCompletion) := fun _ => rfl
theorem targetBufferFill : Statement (.targetBufferFill) := fun _ => rfl
theorem sliceWriteLanding : Statement (.sliceWriteLanding) := fun _ => rfl
theorem nevWindowStart : Statement (.nevWindowStart) := fun _ => rfl
theorem waitcDelayExpiry : Statement (.waitcDelayExpiry) := fun _ => rfl
theorem mmaChunkStart : Statement (.mmaChunkStart) := fun _ => rfl
theorem mmaLanding : Statement (.mmaLanding) := fun _ => rfl
theorem ceLineRequest : Statement (.ceLineRequest) := fun _ => rfl
theorem hbmSlotAccess : Statement (.hbmSlotAccess) := fun _ => rfl
theorem hostSlotAccess : Statement (.hostSlotAccess) := fun _ => rfl
theorem lineLanding : Statement (.lineLanding) := fun _ => rfl
theorem lateLandingFreeze : Statement (.lateLandingFreeze) := fun _ => rfl
theorem postedWriteCompletion : Statement (.postedWriteCompletion) := fun _ => rfl
theorem completionSignalWrite : Statement (.completionSignalWrite) := fun _ => rfl
theorem flitHop : Statement (.flitHop) := fun _ => rfl
theorem messageArrival : Statement (.messageArrival) := fun _ => rfl
theorem ratomHomePerform : Statement (.ratomHomePerform) := fun _ => rfl
theorem ratomReplyLanding : Statement (.ratomReplyLanding) := fun _ => rfl
theorem barrierCompletion : Statement (.barrierCompletion) := fun _ => rfl
theorem collResultLanding : Statement (.collResultLanding) := fun _ => rfl
theorem inkwellFill : Statement (.inkwellFill) := fun _ => rfl
theorem inkwellCopy : Statement (.inkwellCopy) := fun _ => rfl
theorem inkwellAxpby : Statement (.inkwellAxpby) := fun _ => rfl
theorem inkwellSgdwf : Statement (.inkwellSgdwf) := fun _ => rfl
theorem inkwellMomwf : Statement (.inkwellMomwf) := fun _ => rfl
theorem inkwellRqnt : Statement (.inkwellRqnt) := fun _ => rfl
theorem inkwellDigest : Statement (.inkwellDigest) := fun _ => rfl
theorem inkwellStatusLanding : Statement (.inkwellStatusLanding) := fun _ => rfl
theorem waitaWake : Statement (.waitaWake) := fun _ => rfl
theorem tileHalted : Statement (.tileHalted) := fun _ => rfl
theorem folioCommit : Statement (.folioCommit) := fun _ => rfl
theorem folioEviction : Statement (.folioEviction) := fun _ => rfl
theorem penliftOverdue : Statement (.penliftOverdue) := fun _ => rfl
theorem launchTimeout : Statement (.launchTimeout) := fun _ => rfl
theorem localHandlerEntry : Statement (.localHandlerEntry) := fun _ => rfl
theorem trapPostToHost : Statement (.trapPostToHost) := fun _ => rfl
theorem probeResolve : Statement (.probeResolve) := fun _ => rfl
theorem launchRecord : Statement (.launchRecord) := fun _ => rfl
theorem preemptRecord : Statement (.preemptRecord) := fun _ => rfl
theorem resumeRecord : Statement (.resumeRecord) := fun _ => rfl
theorem tileRelease : Statement (.tileRelease) := fun _ => rfl
theorem channelClearSweep : Statement (.channelClearSweep) := fun _ => rfl
theorem retireTile : Statement (.retireTile) := fun _ => rfl
theorem restoreTile : Statement (.restoreTile) := fun _ => rfl
theorem retireChannel : Statement (.retireChannel) := fun _ => rfl
theorem retrainGiferLink : Statement (.retrainGiferLink) := fun _ => rfl
theorem retireGiferLink : Statement (.retireGiferLink) := fun _ => rfl
theorem keyRotationComplete : Statement (.keyRotationComplete) := fun _ => rfl
theorem migratePage : Statement (.migratePage) := fun _ => rfl
theorem migrationLineCopy : Statement (.migrationLineCopy) := fun _ => rfl
theorem signetEvidence : Statement (.signetEvidence) := fun _ => rfl
theorem signetImportKey : Statement (.signetImportKey) := fun _ => rfl
theorem signetGenerateKey : Statement (.signetGenerateKey) := fun _ => rfl
theorem signetReadCertChain : Statement (.signetReadCertChain) := fun _ => rfl
theorem warningWindowStart : Statement (.warningWindowStart) := fun _ => rfl
theorem ckptStart : Statement (.ckptStart) := fun _ => rfl
theorem ckptArm : Statement (.ckptArm) := fun _ => rfl
theorem ckptDisarm : Statement (.ckptDisarm) := fun _ => rfl
theorem ckptAbort : Statement (.ckptAbort) := fun _ => rfl
theorem ckptSnapshot : Statement (.ckptSnapshot) := fun _ => rfl
theorem ckptCopyLine : Statement (.ckptCopyLine) := fun _ => rfl
theorem debugStop : Statement (.debugStop) := fun _ => rfl
theorem debugResume : Statement (.debugResume) := fun _ => rfl
theorem debugStopAtCycle : Statement (.debugStopAtCycle) := fun _ => rfl
theorem debugCycleReached : Statement (.debugCycleReached) := fun _ => rfl
theorem armBrk : Statement (.armBrk) := fun _ => rfl
theorem disarmBrk : Statement (.disarmBrk) := fun _ => rfl
theorem traceCaptureEnd : Statement (.traceCaptureEnd) := fun _ => rfl
theorem snapshotFolio : Statement (.snapshotFolio) := fun _ => rfl
theorem snapshotPackage : Statement (.snapshotPackage) := fun _ => rfl
theorem fwStage : Statement (.fwStage) := fun _ => rfl
theorem fwActivate : Statement (.fwActivate) := fun _ => rfl
theorem clockStepUp : Statement (.clockStepUp) := fun _ => rfl
theorem nop : Statement (.nop) := fun _ => rfl
theorem halt : Statement (.halt) := fun _ => rfl
theorem ifence : Statement (.ifence) := fun _ => rfl
theorem tret : Statement (.tret) := fun _ => rfl
theorem perstAssertion : Statement (.perstAssertion) := fun _ => rfl

end Sys2Proof.Laws.Words
end

