-- ==== Sys2Proof/Tests/Lab.lean ====
section
/-! SUPPORT. What the tests and the witnesses share: a tile, a folio and a machine to start from, and what says that an instruction issues
there. -/

namespace Sys2Proof.Witness
open Sys2Proof.Machine

/-- A cleared tile with a full budget, the cycle's grants given, and one entry at the head of queue q. -/
def tile (q : Queue) : Tile :=
  let t := Tile.cleared
  { t with
    ctl := t.ctl.setEntries q [noEntry]
    csr := { t.csr with ebal := 2 ^ 24 - 1, erate := 1, ecap := 2 ^ 24 - 1, hlat := 1024 }
    avail := 2 ^ 24 - 1, granted := allQueues, apGo := true }

/-- A folio of the tiles ts, w columns wide, in its cycle 16. -/
def folio (w h : Nat) (ts : List Tile) : Folio :=
  { folioAt { idx := 0, w := w, h := h, seam := 0, orient := 0, px0 := 0, py0 := 0, func := 0, chans := [(0, 0)] } (launchOf 0 0 0)
      [⟨0, 0, 3, 0, 0⟩, ⟨0xFFFF, 0, 3, 0, 0⟩] ts with cycle := 16 }

/-- A state with that folio alone, the cursor at its first tile and queue q, and function 0's memory keys loaded. -/
def lab (w h : Nat) (ts : List Tile) (q : Queue) : State :=
  { State.reset with folios := [folio w h ts], agenda := [], cursor := ⟨0, 0, q, 0⟩
                     funcs := vset State.reset.funcs 0 { FuncRegs.reset 0 with keys := Vector.replicate 4 ⟨true, 7, 9⟩ } }

/-- What an instruction of queue q knows at the first tile. -/
def ctxIn (w h : Nat) (ts : List Tile) (t : Tile) (q : Queue) : Ctx := ctxOf (lab w h (t :: ts) q) (folio w h (t :: ts)) 0 t q

/-- The same in a folio of one tile. -/
def ctx (t : Tile) (q : Queue) : Ctx := ctxIn 1 1 [] t q

theorem at_lab (w h : Nat) (ts : List Tile) (t : Tile) (q : Queue) :
    (lab w h (t :: ts) q).at? = some (folio w h (t :: ts), t, ctxIn w h ts t q) := rfl

/-- Issues, as a test. -/
def issuesB (c : Ctx) (t : Tile) (n : Info) : Bool :=
  !t.queueHeld c && n.cause.isNone && !t.violation c n
  && (match n.acc with
      | some a => !maskHolds t.fenceMask (c.cls a)
      | none => true)
  && (c.hand || n.debit c == 0 || (!t.blocked && decide (n.debit c ≤ t.avail)))
  && (match c.pfx with
      | some p => !misuse p n && (!p.wc || n.wides.all fun w => decide (w.1 ≤ w.2))
      | none => true)
  && (!c.hand || n.hand) && (n.srcs ++ n.dsts).all (fun p => decide (p.1 + p.2 ≤ 4096))
  && (t.folioPending c n).isNone && (t.badSlice n.srcs).isNone

theorem issues_of {s : State} {f : Folio} {t : Tile} {c : Ctx} {n : Info} (hs : s.at? = some (f, t, c)) (ht : issuesB c t n = true) :
    Issues s f t c n := by
  simp only [issuesB, Bool.and_eq_true] at ht
  obtain ⟨⟨⟨⟨⟨⟨⟨⟨⟨h1, h2⟩, h3⟩, h4⟩, h5⟩, h6⟩, h7⟩, h8⟩, h9⟩, h10⟩ := ht
  refine ⟨hs, by simpa using h1, by simpa using h2, by simpa using h3, ?_, ?_, ?_, ?_, ?_, by simpa using h9,
    by simpa using h10⟩
  · intro a ha
    rw [ha] at h4
    simpa using h4
  · simp only [Bool.or_eq_true, Bool.and_eq_true, Bool.not_eq_true', decide_eq_true_eq, beq_iff_eq] at h5
    tauto
  · intro p hp
    rw [hp] at h6
    simp only [Bool.and_eq_true, Bool.or_eq_true, Bool.not_eq_true', List.all_eq_true, decide_eq_true_eq] at h6
    refine ⟨h6.1, fun hw w hm => ?_⟩
    rcases h6.2 with h | h
    · simp [h] at hw
    · exact h w hm
  · intro hh
    simp only [Bool.or_eq_true, Bool.not_eq_true'] at h7
    exact h7.resolve_left (by simp [hh])
  · intro p hp
    simpa using List.all_eq_true.1 h8 p hp

theorem issues_of_test {w h : Nat} {ts : List Tile} {t : Tile} {q : Queue} {n : Info} (ht : issuesB (ctxIn w h ts t q) t n = true) :
    Issues (lab w h (t :: ts) q) (folio w h (t :: ts)) t (ctxIn w h ts t q) n := issues_of (at_lab w h ts t q) ht

/-- Some state meets the hypotheses of a completion or a trap. -/
def Meets (n : Tile → Info) (ok : Ctx → Tile → Prop) : Prop :=
  ∃ (s : State) (f : Folio) (t : Tile) (c : Ctx), Issues s f t c (n t) ∧ ok c t

theorem meets_in {n : Tile → Info} {ok : Ctx → Tile → Prop} (w h : Nat) (ts : List Tile) (q : Queue) (t : Tile)
    (ht : issuesB (ctxIn w h ts t q) t (n t) = true) (h' : ok (ctxIn w h ts t q) t) : Meets n ok :=
  ⟨_, _, t, _, issues_of_test ht, h'⟩

theorem meets_at {n : Tile → Info} {ok : Ctx → Tile → Prop} (q : Queue) (t : Tile)
    (h : issuesB (ctx t q) t (n t) = true) (h' : ok (ctx t q) t) : Meets n ok :=
  meets_in 1 1 [] q t h h'

/-- The same for each of some instructions. -/
theorem meets_each {α : Type} {l : List α} {n : α → Tile → Info} (q : Queue) (t : Tile)
    (h : (l.all fun x => issuesB (ctx t q) t (n x t)) = true) : ∀ x ∈ l, Meets (n x) always := fun x hx =>
  meets_at q t (List.all_eq_true.1 h x hx) trivial

/-- The same for each of some instructions, on a condition. -/
theorem meets_all {α : Type} {l : List α} {n : α → Tile → Info} {ok : α → Ctx → Tile → Prop} (q : Queue) (t : Tile)
    (h : ∀ x ∈ l, issuesB (ctx t q) t (n x t) = true) (h' : ∀ x ∈ l, ok x (ctx t q) t) : ∀ x ∈ l, Meets (n x) (ok x) := fun x hx =>
  meets_at q t (h x hx) (h' x hx)

theorem no_orphan_of_test {t : Tile} {c : Ctx} (h : (allQueues.all fun q =>
    match ((t.ctl.entries q).filter fun e => decide (e.seq ≤ c.e.seq)).getLast? with
    | some e => decide (major e.w0 ≠ 0x5F)
    | none => true) = true) : t.noOrphan c := by
  intro q e he
  have := List.all_eq_true.1 h q (by cases q <;> decide)
  rw [he] at this
  simpa using this

theorem no_ratom {t : Tile} {c : Ctx} {cls a nb : Nat} (h : t.ap.ratoms = []) : t.noRatom c cls a nb := .inr (by simp [h])

/-- An access completes somewhere, and traps somewhere with cause 45 and somewhere with cause 46. -/
def MeetsAccess (n : Tile → Info) (cls : Nat) (a : Tile → Nat) (nb : Nat) (more : Ctx → Tile → Prop) : Prop :=
  Meets n (fun c t => t.admits c cls (a t) nb ∧ more c t)
  ∧ Meets n (fun c t => t.noRatom c cls (a t) nb ∧ more c t ∧ 0xF8000 < a t + nb)
  ∧ Meets n (fun c t => t.noRatom c cls (a t) nb ∧ more c t ∧ a t + nb ≤ 0xF8000 ∧ a t % alignOf nb ≠ 0)

theorem meets_access {n : Tile → Info} {cls : Nat} {a : Tile → Nat} {nb : Nat} {more : Ctx → Tile → Prop} (q : Queue) (t : Fin 3 → Tile)
    (hr : ∀ i, (t i).ap.ratoms = []) (hi : ∀ i, issuesB (ctx (t i) q) (t i) (n (t i)) = true) (hm : ∀ i, more (ctx (t i) q) (t i))
    (h0 : a (t 0) + nb ≤ 0xF8000 ∧ a (t 0) % alignOf nb = 0) (h1 : 0xF8000 < a (t 1) + nb)
    (h2 : a (t 2) + nb ≤ 0xF8000 ∧ a (t 2) % alignOf nb ≠ 0) : MeetsAccess n cls a nb more :=
  ⟨meets_at q (t 0) (hi 0) ⟨⟨no_ratom (hr 0), h0⟩, hm 0⟩, meets_at q (t 1) (hi 1) ⟨no_ratom (hr 1), hm 1, h1⟩,
   meets_at q (t 2) (hi 2) ⟨no_ratom (hr 2), hm 2, h2⟩⟩

/-- The tile inside a handler. -/
def inHand (t : Tile) : Tile := { t with trap := { t.trap with act := true, hcyc := 5 }, shadow := some t.ctl }

/-- The tile with values in some spans of slices: start, count, value. -/
def slices (l : List (Nat × Nat × Nat)) (t : Tile) : Tile :=
  { t with slices := l.foldl (fun s p => s.put p.1 p.2.1 p.2.2) t.slices }

end Sys2Proof.Witness

namespace Sys2Proof.Witness
open Sys2Proof.Machine

/-- A line of HBM is read by its line number. -/
theorem hubRead_congr (s : State) {pa pb : Nat} (h : pa / 64 = pb / 64) : s.hubRead pa = s.hubRead pb := by
  have h1 : chanNum pa = chanNum pb := by
    have e (x : Nat) : chanNum x = x / 64 / 2 ^ 25 % 256 := by
      simp only [chanNum, bitsAt, Nat.shiftRight_eq_div_pow]; omega
    rw [e, e, h]
  have h2 : chanLine pa = chanLine pb := by
    have e (x : Nat) : chanLine x = x / 64 % 2 ^ 25 := by simp only [chanLine, bitsAt, Nat.shiftRight_zero]; omega
    rw [e, e, h]
  have h3 : bitsAt pa 6 42 = bitsAt pb 6 42 := by
    have e (x : Nat) : bitsAt x 6 42 = x / 64 % 2 ^ 42 := by simp only [bitsAt, Nat.shiftRight_eq_div_pow]
    rw [e, e, h]
  have h4 (k v) : lineStream k pa v = lineStream k pb v := by simp only [lineStream, cipherBlock, h3]
  have h5 (k v c) : lineTag k pa v c = lineTag k pb v c := by simp only [lineTag, h3]
  have h6 (s : State) : s.cipher pa = s.cipher pb := by simp only [State.cipher, h]
  have h7 (s : State) (v : Nat) : s.lineKeys pa v = s.lineKeys pb v := by simp only [State.lineKeys, h1]
  have h8 (s : State) : s.plain pa = s.plain pb := by simp only [State.plain, h1, h2, h4, h6, h7]
  have h9 (s : State) : s.tagFails pa = s.tagFails pb := by simp only [State.tagFails, h1, h2, h5, h6, h7]
  simp only [State.hubRead, State.lineBad, State.recordBad, State.readLine, h, h1, h2, h8, h9]

/-- The line of tables at the bottom of channel 0: entry 0 leads back to the same table, entries 1 to 3 map a gigabyte each, to host memory
and to channels 1 and 2. -/
def tableLine : Nat :=
  2 ^ 63 + (2 ^ 63 + 2 ^ 62 + 2 ^ 61 + 2 ^ 60 + 2 ^ 47) * 2 ^ 64 + (2 ^ 63 + 2 ^ 62 + 2 ^ 61 + 2 ^ 31) * 2 ^ 128
    + (2 ^ 63 + 2 ^ 62 + 2 ^ 61 + 2 ^ 32) * 2 ^ 192

/-- A state whose function 0 has these tables, stored by a write of b. -/
structure Tables (b s : State) : Prop where
  loaded : (b.lineKeys 0 0).loaded = true
  root : (s.func 0).ptroot = 1
  own : s.leased 0 0 = true
  dram : s.dram = (b.seal 0 0 tableLine false).dram
  keys : (s.func 0).keys = (b.func 0).keys
  lessee : (vget b.dram.chans 0).func = 0

theorem Tables.read {b s : State} (h : Tables b s) (i : Nat) (hi : i < 8) : s.hubRead (8 * i) = (tableLine, false, s) := by
  have z : chanNum 0 = 0 := rfl
  have l : (vget (b.seal 0 0 tableLine false).dram.chans 0).func = 0 := by
    simp only [State.seal, State.onChan, z]
    rw [vget_vset_eq _ _ _ (by decide)]
    exact h.lessee
  have k (v) : s.lineKeys 0 v = (b.seal 0 0 tableLine false).lineKeys 0 v := by
    simp only [State.lineKeys, h.dram, z, l, h.keys]
    rfl
  have p : s.plain 0 = (b.seal 0 0 tableLine false).plain 0 := by simp only [State.plain, State.cipher, h.dram, k]
  have q : s.tagFails 0 = (b.seal 0 0 tableLine false).tagFails 0 := by simp only [State.tagFails, State.cipher, h.dram, k]
  obtain ⟨h1, h2⟩ := seal_line b 0 0 tableLine false
  have h2 := h2 h.loaded rfl
  have g : s.soundLine 0 := by
    simp only [State.soundLine, State.lineFails, h.dram, q] at h2 ⊢
    exact h2
  have e : s.hubRead (8 * i) = s.hubRead 0 := hubRead_congr s (by omega)
  rw [e, hubRead_sound g, p, h1]
  exact congrArg (·, false, s) (by decide +kernel)

theorem Tables.entry {b s : State} (h : Tables b s) (i : Nat) (hi : i < 8) : s.tableLine 0 (8 * i) = (some tableLine, s) := by
  have c : chanNum (8 * i) = 0 := by
    have : (8 * i) / 2 ^ 31 = 0 := Nat.div_eq_of_lt (by omega)
    simp only [chanNum, bitsAt, Nat.shiftRight_eq_div_pow, this, Nat.zero_mod]
  have k : backed (8 * i) = true := by
    interval_cases i <;> decide +kernel
  simp [State.tableLine, k, c, h.own, h.read i hi]

/-- The walk of an address in gigabyte i of the three. -/
theorem Tables.walk {b s : State} (h : Tables b s) (i va : Nat) (h0 : bitsAt va 43 11 = 0) (h1 : bitsAt va 30 13 = i)
    (hi : i ∈ [1, 2, 3]) : s.walk 0 va = (.mapped ⟨if i = 1 then 2 ^ 47 else (i - 1) * 2 ^ 31, 2, true, i = 1⟩ (8 * i), s) := by
  have e0 := h.entry 0 (by decide)
  have e1 := h.entry i (by fin_cases hi <;> decide)
  have r : (s.func 0).ptroot.toNat = 1 := by rw [h.root]; rfl
  unfold State.walk
  simp only [r]
  rw [if_neg (by decide)]
  unfold State.walkFrom
  have t0 : bitsAt 1 14 34 * 2 ^ 14 + 8 * bitsAt va (levelBits 0).1 (levelBits 0).2 = 8 * 0 := by
    simp only [levelBits, h0]; decide
  simp only [t0, e0]
  rw [if_neg (by decide +kernel), if_neg (by decide +kernel), if_neg (by decide +kernel), if_neg (by decide +kernel),
    if_neg (by decide +kernel)]
  have n0 : bitsAt (bitsAt tableLine (8 * (8 * 0 % 64)) 64) 8 40 * 256 = 0 := by decide +kernel
  rw [n0]
  unfold State.walkFrom
  have t1 : 0 + 8 * bitsAt va (levelBits (0 + 1)).1 (levelBits (0 + 1)).2 = 8 * i := by
    simp only [levelBits, h1, Nat.zero_add]
  dsimp only
  rw [t1, e1]
  dsimp only
  fin_cases hi <;>
    (rw [if_neg (by decide +kernel), if_neg (by decide +kernel), if_pos (by decide +kernel)]; exact congrArg (·, s) (by decide +kernel))

/-- The walks in the gigabyte of host memory and in the two of channels. -/
theorem Tables.walkHost {b s : State} (h : Tables b s) (va : Nat) (h0 : bitsAt va 43 11 = 0) (h1 : bitsAt va 30 13 = 1) :
    s.walk 0 va = (.mapped ⟨2 ^ 47, 2, true, true⟩ 8, s) := by
  simpa using h.walk 1 va h0 h1 (by decide)

theorem Tables.walkChan {b s : State} (h : Tables b s) (i va : Nat) (h0 : bitsAt va 43 11 = 0) (h1 : bitsAt va 30 13 = i + 1) (hi : i ∈ [1, 2]) :
    s.walk 0 va = (.mapped ⟨i * 2 ^ 31, 2, true, false⟩ (8 * (i + 1)), s) := by
  have w := h.walk (i + 1) va h0 h1 (by fin_cases hi <;> decide)
  rw [w]
  fin_cases hi <;> rfl

/-- A write of n bytes at va, in the gigabyte of host memory. -/
theorem Tables.writeVirt {b s : State} (h : Tables b s) (va n v k : Nat) (h0 : bitsAt va 43 11 = 0) (h1 : bitsAt va 30 13 = 1)
    (hn : n ≠ 0) (hz : va % 2 ^ 30 + n ≤ 2 ^ 30) :
    s.writeVirt 0 va n v (k + 1) = s.writeHost (s.hostAddr 0 (2 ^ 47 + va % 2 ^ 30)) n (v % 2 ^ (8 * n)) false := by
  have m : min n (pageBytes 2 - va % pageBytes 2) = n := by
    show min n (2 ^ 30 - va % 2 ^ 30) = n
    omega
  have z (x : State) (y : Nat) : x.writeVirt 0 (va + n) 0 y k = x := by
    cases k <;> simp [State.writeVirt]
  rw [State.writeVirt]
  simp only [hn, if_false, h.walkHost va h0 h1, m, Nat.sub_self]
  simp [pageBytes, z]

/-- A read of n bytes at va, in the gigabyte of host memory. -/
theorem Tables.readVirt {b s : State} (h : Tables b s) (va n k : Nat) (h0 : bitsAt va 43 11 = 0) (h1 : bitsAt va 30 13 = 1)
    (hn : n ≠ 0) (hz : va % 2 ^ 30 + n ≤ 2 ^ 30) :
    s.readVirt 0 va n (k + 1) = (some (s.hostMem.readN (s.hostAddr 0 (2 ^ 47 + va % 2 ^ 30)) n), s) := by
  have w := h.walk 1 va h0 h1 (by decide)
  have m : min n (pageBytes 2 - va % pageBytes 2) = n := by
    show min n (2 ^ 30 - va % 2 ^ 30) = n
    omega
  have z : s.readVirt 0 (va + n) 0 k = (some 0, s) := by
    cases k <;> simp [State.readVirt]
  rw [State.readVirt]
  simp only [hn, if_false, w, m, State.readPage, Nat.sub_self]
  simp [pageBytes, z]

theorem vget_each {α : Type} {n : Nat} [Inhabited α] {p : α → Prop} {v : Vector α n} {i : Nat} {a : α} (h : ∀ j : Nat, p (vget v j)) (ha : p a)
    (j : Nat) : p (vget (vset v i a) j) := by
  by_cases e : j = i
  · subst e
    by_cases l : j < n
    · rw [vget_vset_eq _ _ _ l]; exact ha
    · have := h j
      simp_all [vget, vset]
  · rw [vget_vset_ne _ _ _ _ e]
    exact h j

theorem vget_replicate {α : Type} {n : Nat} [Inhabited α] {p : α → Prop} {a : α} (ha : p a) (hd : p default) (j : Nat) :
    p (vget (Vector.replicate n a) j) := by
  unfold vget
  rcases h : (Vector.replicate n a)[j]? with _ | x
  · exact hd
  · obtain ⟨_, rfl⟩ := Vector.getElem?_eq_some_iff.1 h
    simpa using ha

end Sys2Proof.Witness
end

