-- ==== Sys2Proof/Tests/Slice0.lean ====
section
/-! SUPPORT. Tests of the package: words of the spec decode to what they stand for, the checks of WellFormed refuse ill-formed terms, and
instructions give the values of the spec's tables and examples. -/

namespace Sys2Proof.Tests
open Sys2Proof.Machine Sys2Proof.Witness

set_option Elab.async false

/-! Words written out in the spec (R228, R140-R158, R340-R358, R371, R389-R392, R258, R276-R305, chapter examples). -/

theorem test_dec_add : decode .sq 0x0000C082 0 = .ok (.add 3 1 2) := by decide
theorem test_dec_div : decode .xu 0x00A10286 0 = .ok (.div 4 5 6) := by decide
theorem test_dec_shl : decode .ap 0x02808107 0 = .ok (.shl 2 2 7) := by decide
theorem test_dec_mov : decode .sq 0x04E24180 0 = .ok (.mov 9 3) := by decide
theorem test_dec_satn : decode .sq 0x05014287 0 = .ok (.satn 5 5 false 7) := by decide
theorem test_dec_crng16 : decode .xu 0x06018205 0 = .ok (.crng16 6 4 5) := by decide
theorem test_dec_ext : decode .sq 0x06408184 0 = .ok (.ext 2 3 4) := by decide
theorem test_dec_addi : decode .sq 0x08040FF8 0 = .ok (.addi 1 1 (-8)) := by decide
theorem test_dec_movi : decode .sq 0x0C081678 0 = .ok (.movi 2 0x1678) := by decide
theorem test_dec_movih : decode .sq 0x0E0848D1 0 = .ok (.movih 2 0x48D1) := by decide
theorem test_dec_movi_long : decode .sq 0xC4047040 0xFFFFFFFF
    = .ok (.moviLong { ecl := 1, z := false, wd := 7, ds := 64, imm := 0xFFFFFFFF }) := by decide
theorem test_dec_cmp : decode .sq 0x10460410 0 = .ok (.cmp .lt 3 1 2) := by decide
theorem test_dec_cmpi : decode .sq 0x13221064 0 = .ok (.cmpi .gez 1 4 100) := by decide
theorem test_dec_tst : decode .sq 0x14040410 0 = .ok (.tst false 2 1 2) := by decide
theorem test_dec_sel : decode .sq 0x16A0C082 0 = .ok (.sel 5 3 1 2) := by decide
theorem test_dec_sel_long : decode .xu 0xC7944441 0x12C190F4
    = .ok (.selLong { ecl := 1, sxa := false, sxb := false, p := 9, wd := 4, wa := 4, wb := 4, ds := 300, as := 400, bs := 500 }) := by
  decide
theorem test_dec_pand : decode .sq 0x18046800 0 = .ok (.pand 2 3 4) := by decide
theorem test_dec_pnot : decode .sq 0x18624000 0 = .ok (.pnot 1 2) := by decide
theorem test_dec_ppack : decode .sq 0x1A030000 0 = .ok (.ppack 12) := by decide
theorem test_dec_punpack : decode .sq 0x1A230000 0 = .ok (.punpack 12) := by decide
theorem test_dec_tagset : decode .sq 0x1C020008 0 = .ok (.tagset 8 2) := by decide
theorem test_dec_tagget : decode .sq 0x1C224400 0 = .ok (.tagget 9 8) := by decide
theorem test_dec_popc_long : decode .xu 0xC2545900 0x02858000
    = .ok (.popcLong { ecl := 1, sxa := false, sxb := false, wd := 5, wa := 9, wb := 0, ds := 40, as := 1408, bs := 0 }) := by decide
theorem test_dec_crng_long : decode .xu 0xC3049994 0x4A040020
    = .ok (.crng16Long { ecl := 1, sxa := false, sxb := false, wd := 9, wa := 9, wb := 9, ds := 1184, as := 1024, bs := 1056 }) := by
  decide
theorem test_dec_pbr : decode .sq 0x44800005 0 = .ok (.pbr 2 5) := by decide
theorem test_dec_pbrs : decode .sq 0x46800005 0 = .ok (.pbrs 2 5) := by decide
theorem test_dec_br : decode .sq 0x488C0000 0 = .ok (.br 2 3 false false) := by decide
theorem test_dec_br_f : decode .sq 0x488E0000 0 = .ok (.br 2 3 true false) := by decide
theorem test_dec_br_u : decode .sq 0x48810000 0 = .ok (.br 2 0 false true) := by decide
theorem test_dec_call : decode .sq 0x4A500000 0 = .ok (.call 1 16) := by decide
theorem test_dec_ret : decode .sq 0x4C100000 0 = .ok (.ret 16) := by decide
theorem test_dec_loop_imm : decode .sq 0x4E400C02 0 = .ok (.loopImm 0 3 2) := by decide
theorem test_dec_loop_reg : decode .sq 0x4E801006 0 = .ok (.loopReg 1 4 6) := by decide
theorem test_dec_lbrk : decode .sq 0x502C0000 0 = .ok (.lbrk 0 5 true) := by decide
theorem test_dec_ovl : decode .sq 0x520E0000 0 = .ok (.ovl 7) := by decide
theorem test_dec_penlift : decode .sq 0x58000003 0 = .ok (.penlift 3) := by decide
theorem test_dec_waitc : decode .sq 0x5A000064 0 = .ok (.waitc 100) := by decide
theorem test_dec_waitc_until : decode .sq 0x5B000006 0 = .ok (.waitcUntil 6) := by decide
theorem test_dec_trap : decode .sq 0x5C000012 0 = .ok (.trap 0x12) := by decide
theorem test_dec_rdid : decode .sq 0x6020C000 0 = .ok (.rdid .fy 3) := by decide
theorem test_dec_rdclk : decode .sq 0x62020000 0 = .ok (.rdclk 8) := by decide
theorem test_dec_csrrd : decode .sq 0x64024280 0 = .ok (.csrrd 0x012 10) := by decide
theorem test_dec_csrwr : decode .sq 0x66020280 0 = .ok (.csrwr 0x010 10) := by decide
theorem test_dec_brk : decode .sq 0x68000005 0 = .ok (.brk 5) := by decide
theorem test_dec_waitt : decode .net 0xBA400002 0 = .ok (.waitt 1 2) := by decide
theorem test_dec_sigt : decode .mx 0xBC400001 0 = .ok (.sigt 1 1) := by decide
theorem test_dec_pfx_wc : decode .sq 0xBE000400 0 = .ok (.pfx { rm := none, sat := none, ocl := none, ecl := none, wc := true }) := by
  decide
theorem test_dec_st : decode .ap 0x438303FE 0 = .ok (.st 3 6 3 (-2)) := by decide
theorem test_dec_ld : decode .ap 0x40448205 0 = .ok (.ld 0 true 9 2 5) := by decide
theorem test_dec_fence : decode .ap 0x44000006 0 = .ok (.fence 6) := by decide
theorem test_dec_sfence : decode .ap 0x46038000 0 = .ok (.sfence 3 0x8000) := by decide
theorem test_dec_probe : decode .ap 0x48414300 0 = .ok (.probe 4 10 12) := by decide
theorem test_dec_unpin : decode .ap 0x4A400000 0 = .ok (.unpin 4) := by decide
theorem test_dec_spill : decode .ap 0xC8241000 0x12C00010
    = .ok (.spill { ecl := 1, ocl := 0, wv := 4, x := 0, hi := 0, vs := 300, bas := 0, lo := 16 }) := by decide
theorem test_dec_ldx : decode .ap 0xC8441F00 0x19001030
    = .ok (.ldx { ecl := 1, ocl := 0, wv := 7, x := 3, hi := 0, vs := 400, bas := 16, lo := 48 }) := by decide
theorem test_dec_waita : decode .ap 0xCE041C30 0x0C801000
    = .ok (.waita .eq { ecl := 1, ocl := 0, wv := 7, x := 0, hi := 0x30, vs := 200, bas := 16, lo := 0 }) := by decide
theorem test_dec_ratom : decode .ap 0xCC041400 0x02804000
    = .ok (.ratomAdd { ecl := 1, ocl := 0, wv := 5, x := 0, hi := 0, vs := 40, bas := 64, lo := 0 }) := by decide
theorem test_dec_vadd : decode .xu 0xD004AEEC 0x10080300
    = .ok (.vadd { ecl := 1, ef := 2, wd := 11, wa := 11, wb := 11, x := 0, ds := 64, as := 128, bs := 192 }) := by decide
theorem test_dec_vslide : decode .xu 0xD2A6A665 0x501304A3
    = .ok (.vslide { ecl := 1, ef := 10, wd := 9, wa := 9, wb := 9, x := 7, ds := 320, as := 304, bs := 296 }) := by decide
theorem test_dec_mma : decode .mx 0xC00D6608 0x04004000
    = .ok (.mma { ecl := 3, acc := 1, fa := 6, fb := 6, n := 8, sp := 0x040, wb := 0x010, acc2 := 0 }) := by decide
theorem test_dec_wld : decode .mx 0xC0140205 0x06004000
    = .ok (.wld { ecl := 1, acc := 0, fa := 0, fb := 2, n := 5, sp := 0x060, wb := 0x010, acc2 := 0 }) := by decide
theorem test_dec_accz : decode .mx 0xC0270000 0
    = .ok (.accz { ecl := 1, acc := 3, fa := 0, fb := 0, n := 0, sp := 0, wb := 0, acc2 := 0 }) := by decide
theorem test_dec_accsc : decode .mx 0xC06500FD 0
    = .ok (.accsc { ecl := 1, acc := 1, fa := 0, fb := 0, n := 0xFD, sp := 0, wb := 0, acc2 := 0 }) := by decide
theorem test_dec_cpy : decode .ce 0xC0040800 0
    = .ok (.cpy { ecl := 1, ocl := 0, f := false, dsc := 2048, rmask := 0, mod := 0 }) := by decide
theorem test_dec_cpyh : decode .ce 0xC0142400 0x00010000
    = .ok (.cpyh { ecl := 1, ocl := 0, f := true, dsc := 1024, rmask := 1, mod := 0 }) := by decide
theorem test_dec_cpyt : decode .ce 0xC0340500 0x00001000
    = .ok (.cpyt { ecl := 1, ocl := 0, f := false, dsc := 1280, rmask := 0, mod := 1 }) := by decide
theorem test_dec_coll : decode .ce 0xC0940700 0x00020000
    = .ok (.coll { ecl := 1, ocl := 0, f := false, dsc := 1792, rmask := 2, mod := 0 }) := by decide
theorem test_dec_timld : decode .ce 0xC0C40800 0
    = .ok (.timld { ecl := 1, ocl := 0, f := false, dsc := 2048, rmask := 0, mod := 0 }) := by decide
theorem test_dec_send : decode .net 0xC0041CC0 0x01FE1000
    = .ok (.send { ecl := 1, ocl := 0, wv := 7, ch := 3, dx := 1, dy := -2, vs := 256 }) := by decide
theorem test_dec_sendi : decode .net 0xC0140C00 0x00011234
    = .ok (.sendi { ecl := 1, ocl := 0, wv := 3, ch := 0, dx := 0, dy := 1, imm := 0x1234 }) := by decide
theorem test_dec_recv : decode .net 0xC0241CC0 0x00282000
    = .ok (.recv { ecl := 1, ocl := 0, wv := 7, ch := 3, lat := 40, vs := 512 }) := by decide
theorem test_dec_bar : decode .net 0x40500000 0 = .ok (.bar 5) := by decide
theorem test_dec_barw : decode .net 0x44500000 0 = .ok (.barw 5) := by decide
/-- R52: an unassigned major raises cause 3, a reserved bit cause 5. -/
theorem test_dec_unassigned : decode .sq 0x3E000000 0 = .error 3 := by decide
theorem test_dec_wrong_queue : decode .ce 0x0000C082 0 = .error 3 := by decide
theorem test_dec_reserved : decode .net 0x40500001 0 = .error 5 := by decide

/-! The other constructors: words put together field by field from the tables of R58-R65 and R73-R79. -/

/-- R73, major 0x00. -/
theorem test_dec_short_sums :
    decode .sq 0b0000000_0001_0000011_0000001_0000010 0 = .ok (.sub 3 1 2)
    ∧ decode .sq 0b0000000_0010_0000011_0000001_0000010 0 = .ok (.mul 3 1 2)
    ∧ decode .sq 0b0000000_0011_0000011_0000001_0000010 0 = .ok (.mulh 3 1 2)
    ∧ decode .sq 0b0000000_0100_0000011_0000001_0000010 0 = .ok (.mulhz 3 1 2)
    ∧ decode .sq 0b0000000_0110_0000011_0000001_0000010 0 = .ok (.divz 3 1 2)
    ∧ decode .sq 0b0000000_0111_0000011_0000001_0000010 0 = .ok (.rem 3 1 2)
    ∧ decode .sq 0b0000000_1000_0000011_0000001_0000010 0 = .ok (.remz 3 1 2)
    ∧ decode .sq 0b0000000_1001_0000011_0000001_0000010 0 = .ok (.min 3 1 2)
    ∧ decode .sq 0b0000000_1010_0000011_0000001_0000010 0 = .ok (.max 3 1 2)
    ∧ decode .sq 0b0000000_1011_0000011_0000001_0000010 0 = .ok (.minz 3 1 2)
    ∧ decode .sq 0b0000000_1100_0000011_0000001_0000010 0 = .ok (.maxz 3 1 2) := by
  refine ⟨?_, ?_, ?_, ?_, ?_, ?_, ?_, ?_, ?_, ?_, ?_⟩ <;> decide

/-- R73, majors 0x01 and 0x03. -/
theorem test_dec_short_logic :
    decode .ap 0b0000001_0000_0000011_0000001_0000010 0 = .ok (.and 3 1 2)
    ∧ decode .ap 0b0000001_0001_0000011_0000001_0000010 0 = .ok (.or 3 1 2)
    ∧ decode .ap 0b0000001_0010_0000011_0000001_0000010 0 = .ok (.xor 3 1 2)
    ∧ decode .ap 0b0000001_0011_0000011_0000001_0000010 0 = .ok (.andn 3 1 2)
    ∧ decode .ap 0b0000001_0101_0000011_0000001_0000010 0 = .ok (.shr 3 1 2)
    ∧ decode .ap 0b0000001_0110_0000011_0000001_0000010 0 = .ok (.sar 3 1 2)
    ∧ decode .ap 0b0000001_0111_0000011_0000001_0000010 0 = .ok (.rotl 3 1 2)
    ∧ decode .xu 0b0000011_0001_0000011_0000001_0000010 0 = .ok (.crng32 3 1 2)
    ∧ decode .xu 0b0000011_0011_0000011_0000001_0000010 0 = .ok (.dep 3 1 2) := by
  refine ⟨?_, ?_, ?_, ?_, ?_, ?_, ?_, ?_, ?_⟩ <;> decide

/-- R73, majors 0x02 and 0x0C. -/
theorem test_dec_short_unary :
    decode .sq 0b0000010_0000_0000011_0000001_0000000 0 = .ok (.neg 3 1)
    ∧ decode .sq 0b0000010_0001_0000011_0000001_0000000 0 = .ok (.abs 3 1)
    ∧ decode .sq 0b0000010_0010_0000011_0000001_0000000 0 = .ok (.not 3 1)
    ∧ decode .sq 0b0000010_0011_0000011_0000001_0000000 0 = .ok (.clz 3 1)
    ∧ decode .sq 0b0000010_0100_0000011_0000001_0000000 0 = .ok (.ctz 3 1)
    ∧ decode .sq 0b0000010_0101_0000011_0000001_0000000 0 = .ok (.popc 3 1)
    ∧ decode .sq 0b0000010_0110_0000011_0000001_0000000 0 = .ok (.brev 3 1)
    ∧ decode .sq 0b0001100_0001_0010_0011_0100_000000000 0 = .ok (.por 2 3 4)
    ∧ decode .sq 0b0001100_0010_0010_0011_0100_000000000 0 = .ok (.pxor 2 3 4)
    ∧ decode .sq 0b0001100_0100_0001_0010_0000000000000 0 = .ok (.pmov 1 2) := by
  refine ⟨?_, ?_, ?_, ?_, ?_, ?_, ?_, ?_, ?_, ?_⟩ <;> decide

/-- R58, R73, major 0x60. -/
theorem test_dec_long_sums :
    decode .xu 0b1100000_00000_10_1_0_0101_0011_0100_0111 0b000100100011_010001010110_10001001 = .ok (.addLong { ecl := 2, sxa := true, sxb := false, wd := 5, wa := 3, wb := 4, ds := 291, as := 1110, bs := 1929 })
    ∧ decode .xu 0b1100000_00001_10_1_0_0101_0011_0100_0111 0b000100100011_010001010110_10001001 = .ok (.subLong { ecl := 2, sxa := true, sxb := false, wd := 5, wa := 3, wb := 4, ds := 291, as := 1110, bs := 1929 })
    ∧ decode .xu 0b1100000_00010_10_1_0_0101_0011_0100_0111 0b000100100011_010001010110_10001001 = .ok (.mulLong { ecl := 2, sxa := true, sxb := false, wd := 5, wa := 3, wb := 4, ds := 291, as := 1110, bs := 1929 })
    ∧ decode .xu 0b1100000_00011_10_1_0_0101_0011_0100_0111 0b000100100011_010001010110_10001001 = .ok (.mulhLong { ecl := 2, sxa := true, sxb := false, wd := 5, wa := 3, wb := 4, ds := 291, as := 1110, bs := 1929 })
    ∧ decode .xu 0b1100000_00100_10_1_0_0101_0011_0100_0111 0b000100100011_010001010110_10001001 = .ok (.mulhzLong { ecl := 2, sxa := true, sxb := false, wd := 5, wa := 3, wb := 4, ds := 291, as := 1110, bs := 1929 })
    ∧ decode .xu 0b1100000_00101_10_1_0_0101_0011_0100_0111 0b000100100011_010001010110_10001001 = .ok (.divLong { ecl := 2, sxa := true, sxb := false, wd := 5, wa := 3, wb := 4, ds := 291, as := 1110, bs := 1929 })
    ∧ decode .xu 0b1100000_00110_10_1_0_0101_0011_0100_0111 0b000100100011_010001010110_10001001 = .ok (.divzLong { ecl := 2, sxa := true, sxb := false, wd := 5, wa := 3, wb := 4, ds := 291, as := 1110, bs := 1929 })
    ∧ decode .xu 0b1100000_00111_10_1_0_0101_0011_0100_0111 0b000100100011_010001010110_10001001 = .ok (.remLong { ecl := 2, sxa := true, sxb := false, wd := 5, wa := 3, wb := 4, ds := 291, as := 1110, bs := 1929 }) := by
  refine ⟨?_, ?_, ?_, ?_, ?_, ?_, ?_, ?_⟩ <;> decide

/-- R58, R73, major 0x60. -/
theorem test_dec_long_sums_rest :
    decode .sq 0b1100000_01000_10_0_1_0101_0011_0100_0111 0b000100100011_010001010110_10001001 = .ok (.remzLong { ecl := 2, sxa := false, sxb := true, wd := 5, wa := 3, wb := 4, ds := 291, as := 1110, bs := 1929 })
    ∧ decode .sq 0b1100000_01001_10_0_1_0101_0011_0100_0111 0b000100100011_010001010110_10001001 = .ok (.minLong { ecl := 2, sxa := false, sxb := true, wd := 5, wa := 3, wb := 4, ds := 291, as := 1110, bs := 1929 })
    ∧ decode .sq 0b1100000_01010_10_0_1_0101_0011_0100_0111 0b000100100011_010001010110_10001001 = .ok (.maxLong { ecl := 2, sxa := false, sxb := true, wd := 5, wa := 3, wb := 4, ds := 291, as := 1110, bs := 1929 })
    ∧ decode .sq 0b1100000_01011_10_0_1_0101_0011_0100_0111 0b000100100011_010001010110_10001001 = .ok (.minzLong { ecl := 2, sxa := false, sxb := true, wd := 5, wa := 3, wb := 4, ds := 291, as := 1110, bs := 1929 })
    ∧ decode .sq 0b1100000_01100_10_0_1_0101_0011_0100_0111 0b000100100011_010001010110_10001001 = .ok (.maxzLong { ecl := 2, sxa := false, sxb := true, wd := 5, wa := 3, wb := 4, ds := 291, as := 1110, bs := 1929 }) := by
  refine ⟨?_, ?_, ?_, ?_, ?_⟩ <;> decide

/-- R58, R73, major 0x60. -/
theorem test_dec_long_logic :
    decode .ap 0b1100000_10000_10_1_0_0101_0011_0100_0111 0b000100100011_010001010110_10001001 = .ok (.andLong { ecl := 2, sxa := true, sxb := false, wd := 5, wa := 3, wb := 4, ds := 291, as := 1110, bs := 1929 })
    ∧ decode .ap 0b1100000_10001_10_1_0_0101_0011_0100_0111 0b000100100011_010001010110_10001001 = .ok (.orLong { ecl := 2, sxa := true, sxb := false, wd := 5, wa := 3, wb := 4, ds := 291, as := 1110, bs := 1929 })
    ∧ decode .ap 0b1100000_10010_10_1_0_0101_0011_0100_0111 0b000100100011_010001010110_10001001 = .ok (.xorLong { ecl := 2, sxa := true, sxb := false, wd := 5, wa := 3, wb := 4, ds := 291, as := 1110, bs := 1929 })
    ∧ decode .ap 0b1100000_10011_10_1_0_0101_0011_0100_0111 0b000100100011_010001010110_10001001 = .ok (.andnLong { ecl := 2, sxa := true, sxb := false, wd := 5, wa := 3, wb := 4, ds := 291, as := 1110, bs := 1929 })
    ∧ decode .ap 0b1100000_10100_10_1_0_0101_0011_0100_0111 0b000100100011_010001010110_10001001 = .ok (.shlLong { ecl := 2, sxa := true, sxb := false, wd := 5, wa := 3, wb := 4, ds := 291, as := 1110, bs := 1929 })
    ∧ decode .ap 0b1100000_10101_10_1_0_0101_0011_0100_0111 0b000100100011_010001010110_10001001 = .ok (.shrLong { ecl := 2, sxa := true, sxb := false, wd := 5, wa := 3, wb := 4, ds := 291, as := 1110, bs := 1929 })
    ∧ decode .ap 0b1100000_10110_10_1_0_0101_0011_0100_0111 0b000100100011_010001010110_10001001 = .ok (.sarLong { ecl := 2, sxa := true, sxb := false, wd := 5, wa := 3, wb := 4, ds := 291, as := 1110, bs := 1929 })
    ∧ decode .ap 0b1100000_10111_10_1_0_0101_0011_0100_0111 0b000100100011_010001010110_10001001 = .ok (.rotlLong { ecl := 2, sxa := true, sxb := false, wd := 5, wa := 3, wb := 4, ds := 291, as := 1110, bs := 1929 }) := by
  refine ⟨?_, ?_, ?_, ?_, ?_, ?_, ?_, ?_⟩ <;> decide

/-- R58, R73, major 0x61. -/
theorem test_dec_long_unary :
    decode .xu 0b1100001_00000_10_1_0_0101_0011_0000_0000 0b000100100011_010001010110_00000000 = .ok (.negLong { ecl := 2, sxa := true, sxb := false, wd := 5, wa := 3, wb := 0, ds := 291, as := 1110, bs := 0 })
    ∧ decode .xu 0b1100001_00001_10_1_0_0101_0011_0000_0000 0b000100100011_010001010110_00000000 = .ok (.absLong { ecl := 2, sxa := true, sxb := false, wd := 5, wa := 3, wb := 0, ds := 291, as := 1110, bs := 0 })
    ∧ decode .xu 0b1100001_00010_10_1_0_0101_0011_0000_0000 0b000100100011_010001010110_00000000 = .ok (.notLong { ecl := 2, sxa := true, sxb := false, wd := 5, wa := 3, wb := 0, ds := 291, as := 1110, bs := 0 })
    ∧ decode .xu 0b1100001_00011_10_1_0_0101_0011_0000_0000 0b000100100011_010001010110_00000000 = .ok (.clzLong { ecl := 2, sxa := true, sxb := false, wd := 5, wa := 3, wb := 0, ds := 291, as := 1110, bs := 0 })
    ∧ decode .xu 0b1100001_00100_10_1_0_0101_0011_0000_0000 0b000100100011_010001010110_00000000 = .ok (.ctzLong { ecl := 2, sxa := true, sxb := false, wd := 5, wa := 3, wb := 0, ds := 291, as := 1110, bs := 0 })
    ∧ decode .xu 0b1100001_00110_10_1_0_0101_0011_0000_0000 0b000100100011_010001010110_00000000 = .ok (.brevLong { ecl := 2, sxa := true, sxb := false, wd := 5, wa := 3, wb := 0, ds := 291, as := 1110, bs := 0 })
    ∧ decode .xu 0b1100001_00111_10_1_0_0101_0011_0000_0000 0b000100100011_010001010110_00000000 = .ok (.movLong { ecl := 2, sxa := true, sxb := false, wd := 5, wa := 3, wb := 0, ds := 291, as := 1110, bs := 0 })
    ∧ decode .xu 0b1100001_01000_10_1_0_0101_0011_0000_0000 0b000100100011_010001010110_01000111 = .ok (.satnLong { ecl := 2, sxa := true, sxb := false, wd := 5, wa := 3, wb := 0, ds := 291, as := 1110, bs := 71 })
    ∧ decode .xu 0b1100001_10001_10_0_0_0111_0111_0111_0111 0b000100100011_010001010110_10001001 = .ok (.crng32Long { ecl := 2, sxa := false, sxb := false, wd := 7, wa := 7, wb := 7, ds := 291, as := 1110, bs := 1929 })
    ∧ decode .xu 0b1100001_10010_10_1_0_0101_0011_0101_0111 0b000100100011_010001010110_10001001 = .ok (.extLong { ecl := 2, sxa := true, sxb := false, wd := 5, wa := 3, wb := 5, ds := 291, as := 1110, bs := 1929 })
    ∧ decode .xu 0b1100001_10011_10_1_0_0101_0011_0101_0111 0b000100100011_010001010110_10001001 = .ok (.depLong { ecl := 2, sxa := true, sxb := false, wd := 5, wa := 3, wb := 5, ds := 291, as := 1110, bs := 1929 }) := by
  refine ⟨?_, ?_, ?_, ?_, ?_, ?_, ?_, ?_, ?_, ?_, ?_⟩ <;> decide

/-- R59, R60, R73. -/
theorem test_dec_long_rest :
    decode .sq 0b1100010_00001_01_1_0_0111_001000110100 0x89ABCDEF = .ok (.movihLong { ecl := 1, z := true, wd := 7, ds := 0x234, imm := 0x89ABCDEF })
    ∧ decode .sq 0b1100011_00000_01_0_1_0000_0101_0111_0111 0b0011_1001_0000_010001010110_10001001 = .ok (.cmpLong .le { ecl := 1, sxa := false, sxb := true, wa := 5, wb := 7, pd := 9, as := 0x456, bs := 0x789 })
    ∧ decode .sq 0b1100011_00001_01_0_1_0000_0101_0111_0111 0b0001_1001_0000_010001010110_10001001 = .ok (.tstLong true { ecl := 1, sxa := false, sxb := true, wa := 5, wb := 7, pd := 9, as := 0x456, bs := 0x789 }) := by
  refine ⟨?_, ?_, ?_⟩ <;> decide

/-- R62, R75, major 0x64. -/
theorem test_dec_long_memory :
    decode .ap 0b1100100_00000_10_1001_0011_01_00010010 0b001101000101_011001111000_10011010 = .ok (.ldLong { ecl := 2, ocl := 9, wv := 3, x := 1, hi := 18, vs := 837, bas := 1656, lo := 154 })
    ∧ decode .ap 0b1100100_00001_10_1001_0101_00_00010010 0b001101000101_011001111000_10011010 = .ok (.stLong { ecl := 2, ocl := 9, wv := 5, x := 0, hi := 18, vs := 837, bas := 1656, lo := 154 })
    ∧ decode .ap 0b1100100_00011_10_1001_0010_00_00010010 0b001101000101_000000000000_10011010 = .ok (.fill { ecl := 2, ocl := 9, wv := 2, x := 0, hi := 18, vs := 837, bas := 0, lo := 154 })
    ∧ decode .ap 0b1100100_00101_10_1001_0101_10_00000011 0b001101000101_011001111000_10011010 = .ok (.stx { ecl := 2, ocl := 9, wv := 5, x := 2, hi := 3, vs := 837, bas := 1656, lo := 154 }) := by
  refine ⟨?_, ?_, ?_, ?_⟩ <;> decide

/-- R62, R75, major 0x65. -/
theorem test_dec_atomics :
    decode .ap 0b1100101_00000_10_1001_0101_00_00010010 0b001101000101_011001111000_10011010 = .ok (.atomAdd { ecl := 2, ocl := 9, wv := 5, x := 0, hi := 18, vs := 837, bas := 1656, lo := 154 })
    ∧ decode .ap 0b1100101_00001_10_1001_0101_00_00010010 0b001101000101_011001111000_10011010 = .ok (.atomMin { ecl := 2, ocl := 9, wv := 5, x := 0, hi := 18, vs := 837, bas := 1656, lo := 154 })
    ∧ decode .ap 0b1100101_00010_10_1001_0101_00_00010010 0b001101000101_011001111000_10011010 = .ok (.atomMax { ecl := 2, ocl := 9, wv := 5, x := 0, hi := 18, vs := 837, bas := 1656, lo := 154 })
    ∧ decode .ap 0b1100101_00011_10_1001_0101_00_00010010 0b001101000101_011001111000_10011010 = .ok (.atomAnd { ecl := 2, ocl := 9, wv := 5, x := 0, hi := 18, vs := 837, bas := 1656, lo := 154 })
    ∧ decode .ap 0b1100101_00100_10_1001_0101_00_00010010 0b001101000101_011001111000_10011010 = .ok (.atomOr { ecl := 2, ocl := 9, wv := 5, x := 0, hi := 18, vs := 837, bas := 1656, lo := 154 })
    ∧ decode .ap 0b1100101_00101_10_1001_0101_00_00010010 0b001101000101_011001111000_10011010 = .ok (.atomXor { ecl := 2, ocl := 9, wv := 5, x := 0, hi := 18, vs := 837, bas := 1656, lo := 154 })
    ∧ decode .ap 0b1100101_00110_10_1001_0101_00_00010010 0b001101000101_011001111000_10011010 = .ok (.atomXchg { ecl := 2, ocl := 9, wv := 5, x := 0, hi := 18, vs := 837, bas := 1656, lo := 154 })
    ∧ decode .ap 0b1100101_00111_10_1001_0101_00_00010010 0b001101000101_011001111000_10011010 = .ok (.atomCas { ecl := 2, ocl := 9, wv := 5, x := 0, hi := 18, vs := 837, bas := 1656, lo := 154 })
    ∧ decode .ap 0b1100101_01000_10_1001_0101_00_00010010 0b001101000101_011001111000_10011010 = .ok (.atomFadd { ecl := 2, ocl := 9, wv := 5, x := 0, hi := 18, vs := 837, bas := 1656, lo := 154 })
    ∧ decode .ap 0b1100101_01001_10_1001_0101_00_00010010 0b001101000101_011001111000_10011010 = .ok (.atomMinZ { ecl := 2, ocl := 9, wv := 5, x := 0, hi := 18, vs := 837, bas := 1656, lo := 154 })
    ∧ decode .ap 0b1100101_01010_10_1001_0101_00_00010010 0b001101000101_011001111000_10011010 = .ok (.atomMaxZ { ecl := 2, ocl := 9, wv := 5, x := 0, hi := 18, vs := 837, bas := 1656, lo := 154 }) := by
  refine ⟨?_, ?_, ?_, ?_, ?_, ?_, ?_, ?_, ?_, ?_, ?_⟩ <;> decide

/-- R62, R75, major 0x66. -/
theorem test_dec_remote_atomics :
    decode .ap 0b1100110_00001_10_1001_0111_00_00010010 0b001101000101_011001111000_10011010 = .ok (.ratomMin { ecl := 2, ocl := 9, wv := 7, x := 0, hi := 18, vs := 837, bas := 1656, lo := 154 })
    ∧ decode .ap 0b1100110_00010_10_1001_0111_00_00010010 0b001101000101_011001111000_10011010 = .ok (.ratomMax { ecl := 2, ocl := 9, wv := 7, x := 0, hi := 18, vs := 837, bas := 1656, lo := 154 })
    ∧ decode .ap 0b1100110_00011_10_1001_0111_00_00010010 0b001101000101_011001111000_10011010 = .ok (.ratomAnd { ecl := 2, ocl := 9, wv := 7, x := 0, hi := 18, vs := 837, bas := 1656, lo := 154 })
    ∧ decode .ap 0b1100110_00100_10_1001_0111_00_00010010 0b001101000101_011001111000_10011010 = .ok (.ratomOr { ecl := 2, ocl := 9, wv := 7, x := 0, hi := 18, vs := 837, bas := 1656, lo := 154 })
    ∧ decode .ap 0b1100110_00101_10_1001_0111_00_00010010 0b001101000101_011001111000_10011010 = .ok (.ratomXor { ecl := 2, ocl := 9, wv := 7, x := 0, hi := 18, vs := 837, bas := 1656, lo := 154 })
    ∧ decode .ap 0b1100110_00110_10_1001_0111_00_00010010 0b001101000101_011001111000_10011010 = .ok (.ratomXchg { ecl := 2, ocl := 9, wv := 7, x := 0, hi := 18, vs := 837, bas := 1656, lo := 154 })
    ∧ decode .ap 0b1100110_00111_10_1001_0111_00_00010010 0b001101000101_011001111000_10011010 = .ok (.ratomCas { ecl := 2, ocl := 9, wv := 7, x := 0, hi := 18, vs := 837, bas := 1656, lo := 154 })
    ∧ decode .ap 0b1100110_01000_10_1001_0111_00_00010010 0b001101000101_011001111000_10011010 = .ok (.ratomFadd { ecl := 2, ocl := 9, wv := 7, x := 0, hi := 18, vs := 837, bas := 1656, lo := 154 })
    ∧ decode .ap 0b1100110_01001_10_1001_0111_00_00010010 0b001101000101_011001111000_10011010 = .ok (.ratomMinZ { ecl := 2, ocl := 9, wv := 7, x := 0, hi := 18, vs := 837, bas := 1656, lo := 154 })
    ∧ decode .ap 0b1100110_01010_10_1001_0111_00_00010010 0b001101000101_011001111000_10011010 = .ok (.ratomMaxZ { ecl := 2, ocl := 9, wv := 7, x := 0, hi := 18, vs := 837, bas := 1656, lo := 154 }) := by
  refine ⟨?_, ?_, ?_, ?_, ?_, ?_, ?_, ?_, ?_, ?_⟩ <;> decide

/-- R61, R76, major 0x68. -/
theorem test_dec_vector_float :
    decode .xu 0b1101000_00001_01_0010_1001_1001_1001_00 0b0100000001_1000000010_1100000011_00 = .ok (.vsub { ecl := 1, ef := 2, wd := 9, wa := 9, wb := 9, x := 0, ds := 257, as := 514, bs := 771 })
    ∧ decode .xu 0b1101000_00010_01_0010_1001_1001_1001_00 0b0100000001_1000000010_1100000011_00 = .ok (.vmul { ecl := 1, ef := 2, wd := 9, wa := 9, wb := 9, x := 0, ds := 257, as := 514, bs := 771 })
    ∧ decode .xu 0b1101000_00011_01_0010_1001_1001_1001_00 0b0100000001_1000000010_1100000011_00 = .ok (.vfma { ecl := 1, ef := 2, wd := 9, wa := 9, wb := 9, x := 0, ds := 257, as := 514, bs := 771 })
    ∧ decode .xu 0b1101000_00100_01_0010_1001_1001_1001_00 0b0100000001_1000000010_1100000011_00 = .ok (.vfms { ecl := 1, ef := 2, wd := 9, wa := 9, wb := 9, x := 0, ds := 257, as := 514, bs := 771 })
    ∧ decode .xu 0b1101000_00101_01_0010_1001_1001_0000_00 0b0100000001_1000000010_0000000000_00 = .ok (.vneg { ecl := 1, ef := 2, wd := 9, wa := 9, wb := 0, x := 0, ds := 257, as := 514, bs := 0 })
    ∧ decode .xu 0b1101000_00110_01_0010_1001_1001_0000_00 0b0100000001_1000000010_0000000000_00 = .ok (.vabs { ecl := 1, ef := 2, wd := 9, wa := 9, wb := 0, x := 0, ds := 257, as := 514, bs := 0 })
    ∧ decode .xu 0b1101000_00111_01_0010_1001_1001_1001_00 0b0100000001_1000000010_1100000011_00 = .ok (.vmin { ecl := 1, ef := 2, wd := 9, wa := 9, wb := 9, x := 0, ds := 257, as := 514, bs := 771 })
    ∧ decode .xu 0b1101000_01000_01_0010_1001_1001_1001_00 0b0100000001_1000000010_1100000011_00 = .ok (.vmax { ecl := 1, ef := 2, wd := 9, wa := 9, wb := 9, x := 0, ds := 257, as := 514, bs := 771 })
    ∧ decode .xu 0b1101000_01001_01_0010_1001_1001_1001_01 0b0100000001_1000000010_1100000011_01 = .ok (.vcmp { ecl := 1, ef := 2, wd := 9, wa := 9, wb := 9, x := 5, ds := 257, as := 514, bs := 771 })
    ∧ decode .xu 0b1101000_01010_01_0010_1001_1001_1001_00 0b0100000001_1000000010_1100000011_00 = .ok (.vsel { ecl := 1, ef := 2, wd := 9, wa := 9, wb := 9, x := 0, ds := 257, as := 514, bs := 771 })
    ∧ decode .xu 0b1101000_01011_01_0010_1001_0111_0000_00 0b0100000001_1000000010_0000000000_11 = .ok (.vcvt { ecl := 1, ef := 2, wd := 9, wa := 7, wb := 0, x := 3, ds := 257, as := 514, bs := 0 }) := by
  refine ⟨?_, ?_, ?_, ?_, ?_, ?_, ?_, ?_, ?_, ?_, ?_⟩ <;> decide

/-- R61, R76, major 0x68. -/
theorem test_dec_vector_functions :
    decode .xu 0b1101000_01100_01_0010_1001_1001_0000_00 0b0100000001_1000000010_0000000000_00 = .ok (.vrcp { ecl := 1, ef := 2, wd := 9, wa := 9, wb := 0, x := 0, ds := 257, as := 514, bs := 0 })
    ∧ decode .xu 0b1101000_01101_01_0010_1001_1001_0000_00 0b0100000001_1000000010_0000000000_00 = .ok (.vrsq { ecl := 1, ef := 2, wd := 9, wa := 9, wb := 0, x := 0, ds := 257, as := 514, bs := 0 })
    ∧ decode .xu 0b1101000_01110_01_0010_1001_1001_0000_00 0b0100000001_1000000010_0000000000_00 = .ok (.vsqrt { ecl := 1, ef := 2, wd := 9, wa := 9, wb := 0, x := 0, ds := 257, as := 514, bs := 0 })
    ∧ decode .xu 0b1101000_01111_01_0010_1001_1001_0000_00 0b0100000001_1000000010_0000000000_00 = .ok (.vexp2 { ecl := 1, ef := 2, wd := 9, wa := 9, wb := 0, x := 0, ds := 257, as := 514, bs := 0 })
    ∧ decode .xu 0b1101000_10000_01_0010_1001_1001_0000_00 0b0100000001_1000000010_0000000000_00 = .ok (.vlog2 { ecl := 1, ef := 2, wd := 9, wa := 9, wb := 0, x := 0, ds := 257, as := 514, bs := 0 })
    ∧ decode .xu 0b1101000_10001_01_0010_0101_1001_0000_00 0b0100000001_1000000010_0000000000_11 = .ok (.vsum { ecl := 1, ef := 2, wd := 5, wa := 9, wb := 0, x := 3, ds := 257, as := 514, bs := 0 })
    ∧ decode .xu 0b1101000_10010_01_0010_0101_1001_0000_00 0b0100000001_1000000010_0000000000_00 = .ok (.vmaxr { ecl := 1, ef := 2, wd := 5, wa := 9, wb := 0, x := 0, ds := 257, as := 514, bs := 0 })
    ∧ decode .xu 0b1101000_10011_01_0010_0101_1001_0000_00 0b0100000001_1000000010_0000000000_00 = .ok (.vminr { ecl := 1, ef := 2, wd := 5, wa := 9, wb := 0, x := 0, ds := 257, as := 514, bs := 0 })
    ∧ decode .xu 0b1101000_10100_01_0010_0101_1001_1001_00 0b0100000001_1000000010_1100000011_11 = .ok (.vdot { ecl := 1, ef := 2, wd := 5, wa := 9, wb := 9, x := 3, ds := 257, as := 514, bs := 771 })
    ∧ decode .xu 0b1101000_10101_01_0010_1001_1001_0111_00 0b0100000001_1000000010_1100000011_00 = .ok (.vclamp { ecl := 1, ef := 2, wd := 9, wa := 9, wb := 7, x := 0, ds := 257, as := 514, bs := 771 })
    ∧ decode .xu 0b1101000_10110_01_0010_1001_1001_0101_00 0b0100000001_1000000010_1100000011_00 = .ok (.vscl { ecl := 1, ef := 2, wd := 9, wa := 9, wb := 5, x := 0, ds := 257, as := 514, bs := 771 }) := by
  refine ⟨?_, ?_, ?_, ?_, ?_, ?_, ?_, ?_, ?_, ?_, ?_⟩ <;> decide

/-- R61, R76, major 0x69. -/
theorem test_dec_vector_integer :
    decode .xu 0b1101001_00000_01_1010_1001_1001_1001_00 0b0100000001_1000000010_1100000011_01 = .ok (.viadd { ecl := 1, ef := 10, wd := 9, wa := 9, wb := 9, x := 1, ds := 257, as := 514, bs := 771 })
    ∧ decode .xu 0b1101001_00001_01_1010_1001_1001_1001_00 0b0100000001_1000000010_1100000011_00 = .ok (.visub { ecl := 1, ef := 10, wd := 9, wa := 9, wb := 9, x := 0, ds := 257, as := 514, bs := 771 })
    ∧ decode .xu 0b1101001_00010_01_1010_1001_1001_1001_00 0b0100000001_1000000010_1100000011_01 = .ok (.vimul { ecl := 1, ef := 10, wd := 9, wa := 9, wb := 9, x := 1, ds := 257, as := 514, bs := 771 })
    ∧ decode .xu 0b1101001_00011_01_1010_1001_1001_1001_00 0b0100000001_1000000010_1100000011_00 = .ok (.vshl { ecl := 1, ef := 10, wd := 9, wa := 9, wb := 9, x := 0, ds := 257, as := 514, bs := 771 })
    ∧ decode .xu 0b1101001_00100_01_1010_1001_1001_1001_00 0b0100000001_1000000010_1100000011_01 = .ok (.vshr { ecl := 1, ef := 10, wd := 9, wa := 9, wb := 9, x := 1, ds := 257, as := 514, bs := 771 })
    ∧ decode .xu 0b1101001_00101_01_1010_1001_1001_1001_00 0b0100000001_1000000010_1100000011_00 = .ok (.vand { ecl := 1, ef := 10, wd := 9, wa := 9, wb := 9, x := 0, ds := 257, as := 514, bs := 771 })
    ∧ decode .xu 0b1101001_00110_01_1010_1001_1001_1001_00 0b0100000001_1000000010_1100000011_00 = .ok (.vor { ecl := 1, ef := 10, wd := 9, wa := 9, wb := 9, x := 0, ds := 257, as := 514, bs := 771 })
    ∧ decode .xu 0b1101001_00111_01_1010_1001_1001_1001_00 0b0100000001_1000000010_1100000011_00 = .ok (.vxor { ecl := 1, ef := 10, wd := 9, wa := 9, wb := 9, x := 0, ds := 257, as := 514, bs := 771 })
    ∧ decode .xu 0b1101001_01000_01_0010_1001_1001_0101_00 0b0100000001_1000000010_1100000011_00 = .ok (.vshuf { ecl := 1, ef := 2, wd := 9, wa := 9, wb := 5, x := 0, ds := 257, as := 514, bs := 771 })
    ∧ decode .xu 0b1101001_01001_01_0010_1001_0101_0000_00 0b0100000001_1000000010_0000000000_00 = .ok (.vbcast { ecl := 1, ef := 2, wd := 9, wa := 5, wb := 0, x := 0, ds := 257, as := 514, bs := 0 })
    ∧ decode .xu 0b1101001_01011_01_0010_1001_0111_0111_00 0b0100000001_1000000010_1100000011_00 = .ok (.vzip { ecl := 1, ef := 2, wd := 9, wa := 7, wb := 7, x := 0, ds := 257, as := 514, bs := 771 })
    ∧ decode .xu 0b1101001_01100_01_0010_1001_1001_0000_00 0b0100000001_1000000010_0000000000_00 = .ok (.vunzip { ecl := 1, ef := 2, wd := 9, wa := 9, wb := 0, x := 0, ds := 257, as := 514, bs := 0 }) := by
  refine ⟨?_, ?_, ?_, ?_, ?_, ?_, ?_, ?_, ?_, ?_, ?_, ?_⟩ <;> decide

/-- R61, R76, R271, major 0x6A. -/
theorem test_dec_ductus :
    decode .xu 0b1101010_00000_01_1001_1111_1001_0101_01 0b0100000001_1000000010_1100000011_00 = .ok (.dqntSurvey { ecl := 1, ef := 9, wd := 15, wa := 9, wb := 5, x := 4, ds := 257, as := 514, bs := 771 })
    ∧ decode .xu 0b1101010_00000_01_1001_1010_1111_0000_00 0b0100000001_1000000010_0000000000_01 = .ok (.dqntHead { ecl := 1, ef := 9, wd := 10, wa := 15, wb := 0, x := 1, ds := 257, as := 514, bs := 0 })
    ∧ decode .xu 0b1101010_00000_01_1001_1001_1111_1011_01 0b0100000001_1000000010_1100000011_10 = .ok (.dqntQ { ecl := 1, ef := 9, wd := 9, wa := 15, wb := 11, x := 6, ds := 257, as := 514, bs := 771 })
    ∧ decode .xu 0b1101010_00001_01_0010_1001_1001_1011_00 0b0100000001_1000000010_1100000011_00 = .ok (.ddq { ecl := 1, ef := 2, wd := 9, wa := 9, wb := 11, x := 0, ds := 257, as := 514, bs := 771 })
    ∧ decode .xu 0b1101010_00010_01_0000_1010_1010_0101_00 0b0100000001_1000000010_1100000011_00 = .ok (.dscale { ecl := 1, ef := 0, wd := 10, wa := 10, wb := 5, x := 0, ds := 257, as := 514, bs := 771 }) := by
  refine ⟨?_, ?_, ?_, ?_, ?_⟩ <;> decide

/-- R63, R64, R77, R78. -/
theorem test_dec_engines :
    decode .mx 0b1100000_00011_01_10_0011_0000_00000000 0b000100100011_0000000000_00_00000000 = .ok (.accrd { ecl := 1, acc := 2, fa := 3, fb := 0, n := 0, sp := 291, wb := 0, acc2 := 0 })
    ∧ decode .mx 0b1100000_00100_01_10_0011_0000_00000000 0b000100100011_0000000000_00_00000000 = .ok (.accwr { ecl := 1, acc := 2, fa := 3, fb := 0, n := 0, sp := 291, wb := 0, acc2 := 0 })
    ∧ decode .mx 0b1100000_00101_01_10_0000_0000_00000000 0b000000000000_0000000000_11_00000000 = .ok (.accadd { ecl := 1, acc := 2, fa := 0, fb := 0, n := 0, sp := 0, wb := 0, acc2 := 3 })
    ∧ decode .ce 0b1100000_00010_01_0111_1_0_010001010000 0b1011111011101111_0000_000000000000 = .ok (.cpyw { ecl := 1, ocl := 7, f := true, dsc := 1104, rmask := 0xBEEF, mod := 0 })
    ∧ decode .ce 0b1100000_00100_01_0111_0_0_010001010000 0b1011111011101111_0001_000000000000 = .ok (.gath { ecl := 1, ocl := 7, f := false, dsc := 1104, rmask := 0xBEEF, mod := 1 })
    ∧ decode .ce 0b1100000_00101_01_0111_1_0_010001010000 0b1011111011101111_0001_000000000000 = .ok (.scat { ecl := 1, ocl := 7, f := true, dsc := 1104, rmask := 0xBEEF, mod := 1 })
    ∧ decode .ce 0b1100000_00110_01_0111_1_0_010001010000 0b1011111011101111_0000_000000000000 = .ok (.cpysf { ecl := 1, ocl := 7, f := true, dsc := 1104, rmask := 0xBEEF, mod := 0 })
    ∧ decode .ce 0b1100000_00111_01_0111_0_0_010001010000 0b1011111011101111_0000_000000000000 = .ok (.sigw { ecl := 1, ocl := 7, f := false, dsc := 1104, rmask := 0xBEEF, mod := 0 })
    ∧ decode .ce 0b1100000_01000_01_0111_1_0_010001010000 0b1011111011101111_0000_000000000000 = .ok (.bcst { ecl := 1, ocl := 7, f := true, dsc := 1104, rmask := 0xBEEF, mod := 0 })
    ∧ decode .ce 0b1100000_01010_01_0111_0_0_010001010000 0b1011111011101111_0000_000000000000 = .ok (.inkc { ecl := 1, ocl := 7, f := false, dsc := 1104, rmask := 0xBEEF, mod := 0 })
    ∧ decode .ce 0b1100000_01011_01_0111_0_0_000000000000 0b1011111011101111_0000_000000000000 = .ok (.inkf { ecl := 1, ocl := 7, f := false, dsc := 0, rmask := 0xBEEF, mod := 0 }) := by
  refine ⟨?_, ?_, ?_, ?_, ?_, ?_, ?_, ?_, ?_, ?_, ?_⟩ <;> decide

/-- R65, R74, R79. -/
theorem test_dec_plain :
    decode .net 0b1100000_00011_01_0110_0111_1001_000000 0b0001001000110100_010101100111_0000 = .ok (.recvw { ecl := 1, ocl := 6, wv := 7, ch := 9, lat := 0x1234, vs := 0x567 })
    ∧ decode .net 0b0100001_10011_00000000000000000000 0 = .ok (.bara 19)
    ∧ decode .sq 0b0100000_0000000000000000000000000 0 = .ok (.nop)
    ∧ decode .sq 0b0100001_0000000000000000000000000 0 = .ok (.halt)
    ∧ decode .sq 0b0101010_0000000000000000000000000 0 = .ok (.ifence)
    ∧ decode .sq 0b0101111_0000000000000000000000000 0 = .ok (.tret) := by
  refine ⟨?_, ?_, ?_, ?_, ?_, ?_⟩ <;> decide

/-! An ill-formed term for each check of WellFormed (R52 to R65), which the check refuses, beside a well-formed one. -/

/-- A long form that every unary and binary check accepts, and changes of it. -/
def l3 : Long3 := { ecl := 1, sxa := false, sxb := false, wd := 5, wa := 5, wb := 0, ds := 1, as := 2, bs := 0 }
def lv : LongVec := { ecl := 1, ef := 2, wd := 9, wa := 9, wb := 9, x := 0, ds := 1, as := 2, bs := 3 }
def lm : LongMem := { ecl := 1, ocl := 0, wv := 7, x := 0, hi := 0, vs := 1, bas := 2, lo := 0 }
def ma : Mat := { ecl := 1, acc := 0, fa := 1, fb := 1, n := 1, sp := 0, wb := 0, acc2 := 0 }
def cx : CopyOp := { ecl := 1, ocl := 0, f := false, dsc := 16, rmask := 0, mod := 0 }

/-- Every constructor of a list refuses every term of a list, with a cause. -/
def refuses {α : Type} (n : Nat) (l : List (α → Instr)) (bad : List α) : Bool :=
  l.all fun k => bad.all fun x => (k x).cause == some n

/-- Every constructor of a list accepts a term. -/
def accepts {α : Type} (l : List (α → Instr)) (x : α) : Bool := l.all fun k => (k x).cause == none

/-- R223: an operation width above the limit. -/
theorem test_ill_width : refuses 5 [.addLong, .subLong, .minLong, .maxLong, .minzLong, .maxzLong, .shlLong, .shrLong, .sarLong, .rotlLong,
      .negLong, .absLong] [{ l3 with wd := 10 }] = true
    ∧ refuses 5 [.mulLong, .mulhLong, .mulhzLong, .divLong, .divzLong, .remLong, .remzLong, .satnLong] [{ l3 with wd := 8 }] = true
    ∧ refuses 5 [.clzLong, .ctzLong, .popcLong, .brevLong] [{ l3 with wa := 10 }] = true
    ∧ refuses 5 [Instr.cmpLong .eq, .tstLong false]
        [{ ecl := 0, sxa := false, sxb := false, wa := 10, wb := 0, pd := 0, as := 0, bs := 0 },
          { ecl := 0, sxa := false, sxb := false, wa := 0, wb := 10, pd := 0, as := 0, bs := 0 }] = true
    ∧ refuses 5 [.movihLong] [{ ecl := 0, z := false, wd := 5, ds := 0, imm := 0 }] = true := by decide

/-- R58, R232, R234, R245, R250: fields that a form reserves. -/
theorem test_ill_long3 : refuses 5 [.negLong, .absLong, .notLong, .clzLong, .ctzLong, .popcLong, .brevLong, .movLong]
      [{ l3 with wb := 1 }, { l3 with bs := 1 }, { l3 with sxb := true }] = true
    ∧ refuses 5 [.shlLong, .shrLong, .sarLong, .rotlLong] [{ l3 with sxb := true }] = true
    ∧ refuses 5 [.satnLong] [{ l3 with wb := 1 }, { l3 with sxb := true }, { l3 with bs := 128 }, { l3 with bs := 32 }] = true
    ∧ refuses 5 [.crng16Long, .crng32Long] [{ l3 with wb := 7 }, { l3 with wd := 1, wa := 1, wb := 1 }, { l3 with wb := 5, sxa := true },
        { l3 with wb := 5, sxb := true }] = true
    ∧ refuses 5 [.extLong, .depLong] [{ l3 with wb := 4 }, { l3 with wb := 5, sxb := true }] = true
    ∧ accepts [.negLong, .notLong, .clzLong, .movLong, .satnLong, .addLong, .shlLong] l3 = true := by decide

/-- R146, R154, R148, R156, R342, R357: fields of the short forms. -/
theorem test_ill_short : (Instr.br 0 1 false true).cause = some 5 ∧ (Instr.br 0 0 true true).cause = some 5
    ∧ (Instr.loopImm 0 1 0).cause = some 5 ∧ (Instr.loopReg 0 1 0).cause = some 5 ∧ (Instr.waitcUntil 127).cause = some 5
    ∧ (Instr.rdclk 127).cause = some 5 ∧ (Instr.csrrd 0 127).cause = some 5 ∧ (Instr.csrwr 0 127).cause = some 5
    ∧ (Instr.ld 3 false 127 0 0).cause = some 5 ∧ (Instr.ld 3 true 0 0 0).cause = some 5 ∧ (Instr.st 3 127 0 0).cause = some 5
    ∧ (Instr.probe 0 127 0).cause = some 5 := by decide

/-- R342 to R351: fields of the memory forms. -/
theorem test_ill_memory : refuses 5 [.ldLong, .stLong, .ldx, .stx] [{ lm with wv := 0 }, { lm with wv := 2 }] = true
    ∧ refuses 5 [.ldLong] [{ lm with x := 2 }, { lm with x := 1 }] = true ∧ refuses 5 [.stLong] [{ lm with x := 1 }] = true
    ∧ refuses 5 [.spill, .fill] [lm, { lm with bas := 0, x := 1 }] = true ∧ refuses 5 [.ldx, .stx] [{ lm with hi := 16 }] = true
    ∧ refuses 5 [.atomAdd, .atomMin, .atomMax, .atomAnd, .atomOr, .atomXor, .atomXchg, .atomCas, .atomFadd, .atomMinZ, .atomMaxZ, .ratomAdd,
        .ratomMin, .ratomMax, .ratomAnd, .ratomOr, .ratomXor, .ratomXchg, .ratomCas, .ratomFadd, .ratomMinZ, .ratomMaxZ]
        [{ lm with wv := 6 }, { lm with x := 1 }] = true
    ∧ refuses 5 [Instr.waita .eq] [{ lm with wv := 5 }, { lm with x := 1 }] = true
    ∧ accepts [.ldLong, .stLong, .ldx, .stx, .atomAdd, .ratomFadd, Instr.waita .eq] lm = true := by decide

/-- R252 to R257: fields of the vector forms. -/
theorem test_ill_vector : refuses 5 [.vadd, .vsub, .vmul, .vfma, .vfms] [{ lv with ef := 5 }, { lv with x := 1 }, { lv with wb := 7 },
      { lv with ef := 1, wd := 5, wa := 5, wb := 5 }] = true
    ∧ refuses 5 [.vneg, .vabs, .vrcp, .vrsq, .vsqrt, .vexp2, .vlog2] [{ lv with ef := 0, wb := 0, bs := 0 },
        { lv with x := 1, wb := 0, bs := 0 }, { lv with wa := 7, wb := 0, bs := 0 }, { lv with bs := 0 }, { lv with wb := 0 },
        { lv with ef := 1, wd := 5, wa := 5, wb := 0, bs := 0 }] = true
    ∧ refuses 5 [.vmin, .vmax] [{ lv with ef := 0 }, { lv with x := 1 }, { lv with wb := 7 }, { lv with ef := 1, wd := 5, wa := 5, wb := 5 }] = true
    ∧ refuses 4 [.vcmp] [{ lv with x := 6 }, { lv with ef := 0, x := 10 }] = true ∧ refuses 5 [.vcmp] [{ lv with wb := 7 }] = true
    ∧ refuses 5 [.vsel] [{ lv with x := 1 }, { lv with wb := 7 }, { lv with wd := 3, wa := 3, wb := 3 }] = true
    ∧ refuses 5 [.vcvt] [lv, { lv with x := 3, wb := 0, bs := 0 }, { lv with wd := 3, x := 2, wb := 0, bs := 0 }] = true
    ∧ refuses 5 [.vsum] [{ lv with wb := 0, bs := 0 }, { lv with wd := 5, bs := 0 }, { lv with ef := 5, wd := 1, wb := 0, bs := 0 },
        { lv with wd := 5, x := 10, wb := 0, bs := 0 }] = true
    ∧ refuses 5 [.vmaxr, .vminr] [{ lv with wb := 0, bs := 0 }, { lv with wd := 5 }, { lv with wd := 5, ef := 0, wb := 0, bs := 0 },
        { lv with wd := 5, x := 1, wb := 0, bs := 0 }] = true
    ∧ refuses 5 [.vdot] [lv, { lv with wd := 5, wb := 7 }, { lv with wd := 1, ef := 5 }, { lv with wd := 5, x := 10 }] = true
    ∧ refuses 5 [.vclamp, .vscl] [lv, { lv with x := 1 }, { lv with wa := 7, wb := 7 }, { lv with ef := 0, wb := 7 }] = true := by decide

/-- R257: fields of the integer lanes and of the permutes. -/
theorem test_ill_lanes : refuses 5 [.viadd, .visub, .vimul, .vshr] [lv, { lv with ef := 0, x := 2 }, { lv with ef := 0, wb := 7 },
      { lv with ef := 0, wd := 3, wa := 3, wb := 3 }] = true
    ∧ refuses 5 [.vshl, .vand, .vor, .vxor] [lv, { lv with ef := 0, x := 1 }, { lv with ef := 0, wb := 7 }] = true
    ∧ refuses 5 [.vshuf] [lv, { lv with wb := 5, x := 1 }, { lv with wa := 3, wb := 5 }] = true
    ∧ refuses 5 [.vbcast] [{ lv with wb := 0, bs := 0 }, { lv with wa := 5 }, { lv with wa := 5, x := 1, wb := 0, bs := 0 }] = true
    ∧ refuses 5 [.vslide] [{ lv with wb := 7 }, { lv with wd := 3, wa := 3, wb := 3 }] = true
    ∧ refuses 5 [.vzip] [lv, { lv with wa := 7 }, { lv with wa := 7, wb := 7, x := 1 }] = true
    ∧ refuses 5 [.vunzip] [lv, { lv with wa := 7, wb := 0, bs := 0 }, { lv with x := 1, wb := 0, bs := 0 },
        { lv with wd := 5, wa := 5, wb := 0, bs := 0 }] = true := by decide

/-- R202, R271 to R275: fields of the Ductus forms. -/
theorem test_ill_ductus : refuses 5 [.dqntSurvey] [{ lv with ef := 2, wd := 15, wb := 5 }, { lv with ef := 9, wd := 15, wb := 5, x := 1 },
      { lv with ef := 9, wb := 5 }, { lv with ef := 9, wd := 15 }] = true
    ∧ refuses 5 [.dqntHead] [{ lv with ef := 2, wd := 10, wa := 15, wb := 0, bs := 0, x := 1 }, { lv with ef := 9, wd := 10, wa := 15, wb := 0, bs := 0 },
        { lv with ef := 9, wa := 15, wb := 0, bs := 0, x := 1 }, { lv with ef := 9, wd := 10, wb := 0, bs := 0, x := 1 },
        { lv with ef := 9, wd := 10, wa := 15, x := 1 }] = true
    ∧ refuses 5 [.dqntQ] [{ lv with ef := 2, x := 6, wb := 11 }, { lv with ef := 9, x := 4, wb := 11 }, { lv with ef := 9, x := 6, wa := 15 },
        { lv with ef := 9, x := 6, wb := 11 }] = true
    ∧ refuses 5 [.ddq] [lv, { lv with ef := 5, wb := 11 }, { lv with x := 1, wb := 11 }] = true
    ∧ refuses 5 [.dscale] [lv, { lv with ef := 0, x := 1, wd := 10, wa := 10, wb := 5 }, { lv with ef := 0, wa := 10, wb := 5 },
        { lv with ef := 0, wd := 10, wb := 5 }, { lv with ef := 0, wd := 10, wa := 10 }] = true := by decide

/-- R63, R64, R65, R77 to R79: fields of the engines and of the network. -/
theorem test_ill_engines : refuses 5 [.mma] [{ ma with n := 0 }, { ma with acc2 := 1 }, { ma with fa := 0 }, { ma with fb := 0 }] = true
    ∧ refuses 4 [.wld] [{ ma with fb := 3 }] = true
    ∧ refuses 5 [.wld] [ma, { ma with fa := 0, n := 0 }, { ma with fa := 0, acc := 1 }, { ma with fa := 0, acc2 := 1 }] = true
    ∧ refuses 5 [.accz, .accrd, .accwr, .accadd, .accsc] [ma, { ma with fa := 0, fb := 0, wb := 1 }] = true
    ∧ refuses 5 [.accz, .accadd, .accsc] [{ ma with fb := 0 }, { ma with fa := 0, fb := 0, sp := 1 }] = true
    ∧ refuses 5 [.accz, .accrd, .accwr, .accadd] [{ ma with fa := 0, fb := 0 }] = true
    ∧ refuses 5 [.accz, .accrd, .accwr, .accsc] [{ ma with fa := 0, fb := 0, n := 0, acc2 := 1 }] = true
    ∧ refuses 5 [.cpy, .cpyh, .cpyw, .cpyt, .gath, .scat, .cpysf, .sigw, .bcst, .coll, .inkc, .inkf, .timld] [{ cx with dsc := 17 }, { cx with mod := 2 }] = true
    ∧ refuses 5 [.cpysf, .sigw, .bcst, .coll, .inkc, .timld] [{ cx with mod := 1 }] = true
    ∧ refuses 5 [.sigw, .coll, .inkc, .inkf, .timld] [{ cx with f := true }, { cx with dsc := 0, f := true }] = true
    ∧ (Instr.send { ecl := 0, ocl := 0, wv := 14, ch := 0, dx := 0, dy := 0, vs := 0 }).cause = some 5
    ∧ (Instr.sendi { ecl := 0, ocl := 0, wv := 4, ch := 0, dx := 0, dy := 0, imm := 0 }).cause = some 5
    ∧ refuses 5 [.recv, .recvw] [{ ecl := 0, ocl := 0, wv := 14, ch := 0, lat := 1, vs := 0 }, { ecl := 0, ocl := 0, wv := 3, ch := 0, lat := 0, vs := 0 }] = true := by
  decide

/-- Rows of the hub and the host that name what does not exist. -/
theorem test_ill_rows : (Instr.fack 64 0).cause = some 5 ∧ (Instr.lqtailWrite 16384 0).cause = some 5 ∧ (Instr.lqownWrite 16384 0).cause = some 5
    ∧ (Instr.leaseWrite 256 0).cause = some 5 ∧ (Instr.vfReset 0).cause = some 5 ∧ (Instr.vfReset 64).cause = some 5
    ∧ (Instr.tlbinv 64 0).cause = some 5 ∧ (Instr.keyRotationArm 64 0).cause = some 5 ∧ (Instr.scrubVisit 256 false).cause = some 5
    ∧ (Instr.ideKmKeyProgram 65 true).cause = some 5 ∧ (Instr.errchWrite 256).cause = some 5 ∧ (Instr.errlnkWrite 18).cause = some 5
    ∧ (Instr.traceTriggerNow 2304).cause = some 5 ∧ (Instr.profcntLowRead 64 0 0).cause = some 5 ∧ (Instr.profcntLowRead 0 2304 0).cause = some 5
    ∧ (Instr.profcntLowRead 0 0 8).cause = some 5 ∧ (Instr.giferFlitReceive 18 .clean 0 0).cause = some 5
    ∧ (Instr.registerWrite 64 0 (some 0)).cause = some 5 ∧ (Instr.privilegedOnChipMapWrite 0 3 0).cause = some 5
    ∧ (Instr.stackTemperatureRefreshDemand 8 true).cause = some 5 ∧ (Instr.controlStateParityError 2304 0 0).cause = some 5
    ∧ (Instr.giferLinkDown 18).cause = some 5 := by decide

/-! One-step tests; every expected value stands in a table or an example of the spec. -/

/-- The tile after one instruction of a queue, and the values, latencies and events of the writes it has posted. -/
def after (i : Instr) (t : Tile) (q : Queue) : Option Tile :=
  match exec i (lab 1 1 [t] q) with
  | .next s => s.folios.head?.bind fun f => f.tiles.head?
  | _ => none
def posted (i : Instr) (t : Tile) (q : Queue) : List (Nat × Nat × List (Nat × Nat)) :=
  (((after i t q).map fun t => t.pend).getD []).map fun p => (match p.dest with
    | .slices _ _ v _ => v
    | _ => 0, p.land - p.issue, p.events)

/-- w1 and w2 hold two values. -/
def pair (a b : Nat) : Tile := slices [(8, 8, a), (16, 8, b)] (tile .xu)

/-- The table "division at 32 bits" of 08_arith_scalar. -/
theorem test_div : posted (.div 3 1 2) (pair 7 0xFFFFFFFE) .xu = [(0xFFFFFFFD, 18, [])] ∧ posted (.div 3 1 2) (pair 0xFFFFFFF9 2) .xu = [(0xFFFFFFFD, 18, [])]
    ∧ posted (.div 3 1 2) (pair 5 0) .xu = [(0xFFFFFFFF, 18, [(0, 1)])] ∧ posted (.div 3 1 2) (pair 0x80000000 0xFFFFFFFF) .xu = [(0x80000000, 18, [])] := by
  refine ⟨?_, ?_, ?_, ?_⟩ <;> decide +kernel
theorem test_rem : posted (.rem 3 1 2) (pair 7 0xFFFFFFFE) .xu = [(1, 18, [])] ∧ posted (.rem 3 1 2) (pair 0xFFFFFFF9 2) .xu = [(0xFFFFFFFF, 18, [])]
    ∧ posted (.rem 3 1 2) (pair 5 0) .xu = [(5, 18, [(0, 1)])] := by decide +kernel
theorem test_divz_remz : posted (.divz 3 1 2) (pair 0xFFFFFFFE 3) .xu = [(0x55555554, 18, [])]
    ∧ posted (.remz 3 1 2) (pair 0xFFFFFFFE 3) .xu = [(2, 18, [])] := by decide +kernel

/-- R245's example. -/
theorem test_satn : (posted (.satn 5 1 false 7) (pair 300 0) .xu).map (fun x => (x.1, x.2.2)) = [(0x7F, [(3, 1)])]
    ∧ (posted (.satn 5 1 false 7) (pair 0xFFFFFED4 0) .xu).map (fun x => (x.1, x.2.2)) = [(0xFFFFFF80, [(3, 1)])]
    ∧ (posted (.satn 5 1 false 7) (pair 100 0) .xu).map (fun x => (x.1, x.2.2)) = [(100, [])] := by decide +kernel

/-- The table "fields of one word" of 08_arith_scalar. -/
theorem test_ext : (posted (.ext 3 1 2) (pair 0x00ABCD00 0x0000B008) .xu).map Prod.fst = [0xFFFFFBCD]
    ∧ (posted (.ext 3 1 2) (pair 0x00ABCD00 0x0004B008) .xu).map Prod.fst = [0x00000BCD]
    ∧ ((after (.ext 3 1 2) (pair 0x00ABCD00 0x0008B008) .xu).map fun t => (t.pend, t.raises.map fun r => r.cause)) = some ([], [5]) := by decide +kernel
theorem test_dep : (posted (.dep 0 1 2) (slices [(0, 8, 0xFFFFFFFF)] (pair 0x123 0x00007004)) .xu).map Prod.fst = [0xFFFFF23F] := by decide +kernel

/-- R238's pair: 0x1234_5678. -/
theorem test_movi_movih : (posted (.movi 2 0x1678) (tile .xu) .xu).map Prod.fst = [0x1678]
    ∧ (posted (.movih 2 0x48D1) (pair 0 0x1678) .xu).map Prod.fst = [0x12345678] := by decide +kernel

/-- The table "rounding near the top of E4M3 and in SF8" of 06_arith_formats: E4M3 is format 6, SF8 format 13; 13.5 is 27 halves. -/
theorem test_round_e4m3 : roundFin 6 ⟨0, false⟩ 0 false false 460 0 = (0x7E, none) ∧ roundFin 6 ⟨0, false⟩ 0 false false 464 0 = (0x7F, some 1)
    ∧ roundFin 6 ⟨0, true⟩ 0 false false 464 0 = (0x7E, some 3) ∧ roundFin 6 ⟨1, false⟩ 0 false false 5000 0 = (0x7E, none)
    ∧ roundFin 6 ⟨2, false⟩ 0 false true 5000 0 = (0xFE, none) ∧ roundFin 6 ⟨3, false⟩ 0 false true 5000 0 = (0x7F, some 1) := by decide +kernel
theorem test_round_sf8 : roundFin 13 ⟨0, false⟩ 0 false false 27 (-1) = (0x6E, none) ∧ roundFin 13 ⟨4, false⟩ 0 false false 27 (-1) = (0x6E, none)
    ∧ roundFin 13 ⟨1, false⟩ 0 false false 27 (-1) = (0x6D, none) := by decide +kernel

/-- The table "eight FP32 values to E4M3" of 09_arith_vector: 1.0, 460, 5,000, -0.3, 0.001, NaN, -0.0 and infinity under RTZ and sat. -/
theorem test_vcvt : [0x3F800000, 0x43E60000, 0x459C4000, 0xBE99999A, 0x3A83126F, 0x7FC00000, 0x80000000, 0x7F800000].map
      (fun x => convert 2 6 ⟨1, true⟩ 0 x)
    = [(0x38, none), (0x7E, none), (0x7E, none), (0xA9, none), (0x00, some 2), (0x7F, none), (0x80, none), (0x7E, some 3)] := by decide +kernel

/-- VSUM.fp16 over 2,048, 1, 1 and -2,048 writes 2 (R257). -/
theorem test_vsum : (accumulate 4 ⟨0, false⟩ 0 false false ([0x6800, 0x3C00, 0x3C00, 0xE800].map fun x => some (decodeElem 4 x))).1 = 0x4000 := by decide +kernel

/-- The priorities of 16_prog_colouring under CRNG.16, and the home of 19_isolation_memory_trust under CRNG.32. -/
theorem test_crng : (List.range 32).map (fun x => Machine.crng16 x 0)
      = [0x0000, 0x12B7, 0x2550, 0x387D, 0x4B5E, 0x5DB8, 0x70C5, 0x8306, 0x96BC, 0xA606, 0xBB71, 0xCE8A, 0xE18B, 0xF3CB, 0x070D, 0x199D,
        0x2C53, 0x3AA1, 0x4D26, 0x5FD0, 0x77C8, 0x8407, 0x9C2F, 0xAAE4, 0xC216, 0xCE58, 0xE696, 0xF4C2, 0x0E1A, 0x1B35, 0x333B, 0x40B9]
    ∧ Machine.crng32 0x00400000 0 = 0xD3E07160 := by decide +kernel
theorem test_home : homeTile ⟨0, 2, 2, 0, 0, 0, 0, 3, []⟩ 0x4000000000 = 0 ∧ homeTile ⟨0, 4, 3, 0, 0, 0, 0, 3, []⟩ 0x4000000000 = 8 := by decide +kernel

/-- The table "quantising and decoding in E4M3" of 07_arith_ductus: the header's exponents and the two elements, as eighths of 12 and
1,024ths of 48. -/
def exampleRow : Nat → Nat → Machine.Num := fun i j =>
  if i = 0 ∧ j = 0 then .fin false 12 0 else if i = 5 ∧ j = 7 then .fin false 48 (-10) else if i = 5 ∧ j = 0 then .fin false 1 (-4)
  else if i = 0 ∧ j = 7 then .fin false 1 (-2) else .fin false 0 0
theorem test_ductus : let h := (headerOf 6 0 ((List.range 32).map fun i => if i = 0 then 3 + 2048 else if i = 5 then 2048 - 4 else 0)
      ((List.range 32).map fun j => if j = 0 then 3 + 2048 else if j = 7 then 2048 - 2 else 0)).1
    hdrScale h = 0x7F5 ∧ hdrRow h 0 = 3 ∧ hdrCol h 0 = 3 ∧ hdrRow h 5 = 0 ∧ hdrCol h 7 = 1
    ∧ quantElem h 0 0 0 0 (exampleRow 0 0) = (0x7C, none) ∧ quantElem h 0 0 5 7 (exampleRow 5 7) = (0x64, none) := by decide +kernel

/-- R22's example of the on-chip map. -/
theorem test_map : mapAddr 0xF0006A150000 = some (40, 3, 0x150000) := by decide +kernel

/-- The table "a seamed folio placed with a half turn" of 18_isolation_folios. -/
theorem test_placement : search 40 10 36 [(0, 0, 8, 32), (8, 0, 64, 12)] [] = some (2, 32, 12)
    ∧ (let p : Place := ⟨0, 40, 10, 36, 2, 32, 12, 0, []⟩
       p.phys 0 0 = (71, 21) ∧ p.phys 35 0 = (36, 21) ∧ p.phys 36 0 = (35, 21) ∧ p.phys 39 9 = (32, 12)) := by decide +kernel

/-- The table "where the rounding falls" of 10_arith_matrix. -/
theorem test_chunk : let one (l : List Nat) (n : Nat) : Option Machine.Num := some (if l.contains n then .fin false 1 0 else .fin false 0 0)
    (chunkElem 0 false false 0x4B800000 (one [0, 8])).1 = 0x4B800001 ∧ (chunkElem 2 false false 0x4B800000 (one [0, 8])).1 = 0x4B800000 := by
  decide +kernel

/-- The AES-256 example of FIPS 197, the GCM test case of a zero key with no data, and the SHAKE256 digest of no bytes. -/
theorem test_ciphers : aes256 0x000102030405060708090a0b0c0d0e0f101112131415161718191a1b1c1d1e1f 0x00112233445566778899aabbccddeeff
      = 0x8ea2b7ca516745bfeafc49904b496089
    ∧ gmac 0 0 [] = 0x530f8afbc74536b9a963b4f1c4cb738b
    ∧ ofBytes (toBytes 64 (shake256 0 0)).reverse = 0x46b9dd2b0ba88d13233b3feb743eeb243fcd52ea62b81b82b50c27646ed5762fd75dc4ddd8c0f200cb05019d67b592f6fc821c49479ab48640292eacb3b7c4be := by
  decide +kernel

end Sys2Proof.Tests
end

