-- ==== Sys2Proof/Tests/Witness.lean ====
section
/-! SUPPORT. Witnesses: for each statement with hypotheses, a concrete state and concrete operands that meet them. -/

namespace Sys2Proof.Tests
open Sys2Proof.Machine Sys2Proof.Witness

set_option Elab.async false

/-- FitWrapsOrClamps: a value at each bound of each clause (R226). -/
theorem witness_fit : 0 < 8 ∧ (-129 : Int) < -2 ^ (8 - 1) ∧ fit (-129) 8 true true = (0x80, some 3)
    ∧ (2 ^ (8 - 1) : Int) ≤ 128 ∧ fit 128 8 true true = (0x7F, some 3) ∧ fit (-128) 8 true true = (0x80, none)
    ∧ fit 127 8 true true = (0x7F, none) ∧ fit (-1) 8 false true = (0, some 3) ∧ fit 256 8 false true = (0xFF, some 3)
    ∧ fit 255 8 false true = (0xFF, none) ∧ fit 256 8 true false = (0, none) := by decide

/-- The short forms of ShortArithmeticCompletes, ShortDivisionCompletes, ShortLogicShiftsAndCountsComplete and
ShortClampAndGeneratorsComplete, by the descriptions that their instructions share. -/
theorem witness_short : Meets (short3Info 0 true 127 126 125) always ∧ Meets (short3Info 1 true 127 127 127) always
    ∧ Meets (short3Info 1 false 0 1 127) always ∧ Meets (short3Info 0 false 5 5 5) always ∧ Meets (short2Info true 127 126) always
    ∧ Meets (short2Info false 0 127) always :=
  ⟨meets_at .sq (tile .sq) (by decide +kernel) trivial, meets_at .xu (tile .xu) (by decide +kernel) trivial, meets_at .ap (tile .ap) (by decide +kernel) trivial,
   meets_at .mx (tile .mx) (by decide +kernel) trivial, meets_at .ce (tile .ce) (by decide +kernel) trivial, meets_at .net (tile .net) (by decide +kernel) trivial⟩

/-- w125 holds a legal control word, w126 one with bit 11 set and w127 one that only EXT takes (bit 18). -/
def controls : Tile := slices [(1000, 8, 0x0003F010), (1008, 8, 0x800), (1016, 8, 0x40000)] (tile .sq)

theorem witness_fields : Meets (short3Info 0 false 127 126 125) (fun _ t => controlOk (t.word 125) = true)
    ∧ Meets (fun t => blockInfo none [t.wSpan 127, t.wSpan 126, t.wSpan 125] [t.wSpan 127] [] [] 1 0 false)
      (fun _ t => controlOk (t.word 125) = true ∧ (t.word 125).testBit 18 = false)
    ∧ Meets (fun t => blockInfo none [] [t.wSpan 127] [] [] 1 0 false) always
    ∧ Meets (fun t => blockInfo none [t.wSpan 127] [t.wSpan 127] [] [] 1 0 false) always
    ∧ Meets (fun t => blockInfo none [t.wSpan 127, t.wSpan 0] [t.wSpan 127] [15] [] 1 0 false) always :=
  ⟨meets_at .sq controls (by decide +kernel) (by decide +kernel), meets_at .sq controls (by decide +kernel) (by decide +kernel), meets_at .sq controls (by decide +kernel) trivial,
   meets_at .sq controls (by decide +kernel) trivial, meets_at .sq controls (by decide +kernel) trivial⟩

theorem witness_reserved_control : Meets (short3Info 0 false 127 126 126) (fun _ t => controlOk (t.word 126) = false)
    ∧ (∀ b ∈ [126, 127], Meets (fun t => blockInfo none [t.wSpan 127, t.wSpan 126, t.wSpan b] [t.wSpan 127] [] [] 1 0 false)
      (fun _ t => controlOk (t.word b) = false ∨ (t.word b).testBit 18 = true)) := by
  refine ⟨meets_at .sq controls (by decide +kernel) (by decide +kernel), ?_⟩
  simp only [List.mem_cons, List.not_mem_nil, or_false, forall_eq_or_imp, forall_eq]
  exact ⟨meets_at .sq controls (by decide +kernel) (by decide +kernel), meets_at .sq controls (by decide +kernel) (by decide +kernel)⟩

theorem witness_predicates : Meets (fun t => blockInfo none [t.wSpan 127, t.wSpan 127] [] [] [] 1 0 false) always
    ∧ Meets (fun t => blockInfo none [t.wSpan 127] [] [] [] 1 0 false) always
    ∧ Meets (fun _ => blockInfo none [] [] [15, 0] [] 1 0 false) always
    ∧ Meets (fun t => blockInfo none [] [t.wSpan 127] (List.range 16) [] 1 0 false) always
    ∧ Meets (fun t => blockInfo none [] [(16 * (t.ctl.winb + 127 / 2), 16)] [] [] 1 0 false) always
    ∧ Meets (fun t => blockInfo none [(16 * (t.ctl.winb + 127 / 2), 16)] [t.wSpan 0] [] [] 1 0 false) always :=
  ⟨meets_at .sq (tile .sq) (by decide +kernel) trivial, meets_at .xu (tile .xu) (by decide +kernel) trivial, meets_at .ap (tile .ap) (by decide +kernel) trivial,
   meets_at .mx (tile .mx) (by decide +kernel) trivial, meets_at .ce (tile .ce) (by decide +kernel) trivial, meets_at .net (tile .net) (by decide +kernel) trivial⟩

/-- Long operands at the top of the slice file, and one of each description. -/
def big3 : Long3 := { l3 with wd := 9, wa := 9, wb := 9, ds := 3840, as := 3840, bs := 3840 }
def small3 : Long3 := { big3 with wd := 7, wa := 7, wb := 7 }

theorem witness_long_arithmetic :
    (∀ k ∈ [Instr.addLong, .subLong, .minLong, .maxLong, .minzLong, .maxzLong], Meets (long3Info (k big3).cause 0 true big3) always)
    ∧ (∀ k ∈ [Instr.mulLong, .mulhLong, .mulhzLong, .divLong, .divzLong, .remLong, .remzLong],
      Meets (long3Info (k small3).cause 1 true small3) always)
    ∧ (∀ k ∈ [Instr.mulLong, .mulhLong, .mulhzLong, .divLong, .divzLong, .remLong, .remzLong],
      Meets (long3Info (k small3).cause 1 false small3) always)
    ∧ ∀ k ∈ [Instr.negLong, .absLong], Meets (long2Info (k l3).cause true false l3) always :=
  ⟨meets_each .xu (tile .xu) (by decide +kernel), meets_each .xu (tile .xu) (by decide +kernel), meets_each .xu (tile .xu) (by decide +kernel),
   meets_each .sq (tile .sq) (by decide +kernel)⟩

def rng : Long3 := { l3 with wd := 5, wa := 5, wb := 5, bs := 2 }

theorem witness_long_logic :
    (∀ k ∈ [Instr.andLong, .orLong, .xorLong, .andnLong], Meets (long3Info (k big3).cause 0 false big3) always)
    ∧ (∀ k ∈ [Instr.notLong, .satnLong], Meets (long2Info (k l3).cause false false l3) always)
    ∧ (∀ k ∈ [Instr.shlLong, .shrLong, .sarLong, .rotlLong], Meets (longOwnInfo (k big3).cause true big3) always)
    ∧ (∀ k ∈ [Instr.clzLong, .ctzLong, .popcLong, .brevLong], Meets (long2Info (k l3).cause false true l3) always)
    ∧ ∀ k ∈ [Instr.crng16Long, .crng32Long], Meets (fun t => { long3Info (k rng).cause 1 false rng t with wides := [] }) always :=
  ⟨meets_each .xu (tile .xu) (by decide +kernel), meets_each .xu (tile .xu) (by decide +kernel), meets_each .xu (tile .xu) (by decide +kernel),
   meets_each .sq (tile .sq) (by decide +kernel), meets_each .ap (tile .ap) (by decide +kernel)⟩

def fld : Long3 := { l3 with wb := 5, bs := 1000 }
def cmpo : LongCmp := { ecl := 1, sxa := true, sxb := false, wa := 9, wb := 0, pd := 15, as := 3840, bs := 4095 }
def selo : LongSel := { ecl := 1, sxa := false, sxb := true, p := 15, wd := 9, wa := 9, wb := 0, ds := 3840, as := 3840, bs := 4095 }
def immo : LongImm := { ecl := 1, z := true, wd := 7, ds := 4080, imm := 0xFFFFFFFF }

theorem witness_long_moves :
    Meets (longOwnInfo (Instr.extLong fld).cause false fld) (fun _ t => controlOk (t.spanBits fld.bs.toNat 32) = true)
    ∧ Meets (fun t => { longOwnInfo (Instr.depLong fld).cause false fld t with srcs := [fld.dSpan, fld.aSpan, fld.bSpan] })
      (fun _ t => controlOk (t.spanBits fld.bs.toNat 32) = true ∧ (t.spanBits fld.bs.toNat 32).testBit 18 = false)
    ∧ Meets (long2Info (Instr.movLong l3).cause false false l3) always
    ∧ Meets (fun _ => longImmInfo (Instr.moviLong immo).cause immo false) always
    ∧ Meets (fun _ => longImmInfo (Instr.movihLong immo).cause immo true) always
    ∧ (∀ k ∈ [Instr.cmpLong .eq, .cmpLong .gez, .tstLong false, .tstLong true], Meets (fun _ => longCmpInfo (k cmpo).cause cmpo) always)
    ∧ Meets (fun _ => blockInfo none [(3840, 256), (4095, 1)] [(3840, 256)] [15] [(1024, 1024), (4, 1024)] 1 (longLeast 0 1024) false)
      always :=
  ⟨meets_at .sq controls (by decide +kernel) (by decide +kernel), meets_at .sq controls (by decide +kernel) (by decide +kernel), meets_at .sq (tile .sq) (by decide +kernel) trivial,
   meets_at .sq (tile .sq) (by decide +kernel) trivial, meets_at .sq (tile .sq) (by decide +kernel) trivial, meets_each .sq (tile .sq) (by decide +kernel),
   meets_at .sq (tile .sq) (by decide +kernel) trivial⟩

/-- A tile whose w125 a landing in cycle 20 still has to write. -/
def waiting (trap : Bool) : Tile :=
  let t := tile .sq
  { t with csr := { t.csr with sbmode := trap }
           pend := [{ land := 20, issue := 15, writer := 2, hand := false, dest := .slices 1000 8 7 0, events := [] }] }

theorem witness_pending_source : ∀ m : Bool, ∃ (s : State) (f : Folio) (t : Tile) (c : Ctx) (d a b : BitVec 7),
    let n := short3Info 0 true d a b t
    s.at? = some (f, t, c) ∧ t.queueHeld c = false ∧ c.pfx = none ∧ c.hand = false ∧ t.ctl.winb ≤ 192 ∧ t.blocked = false
    ∧ n.debit c ≤ t.avail ∧ t.violation c n = true ∧ t.csr.sbmode = m := fun m =>
  ⟨_, _, waiting m, _, 127, 125, 126, at_lab 1 1 [] _ .sq, by cases m <;> decide +kernel⟩

/-- A write that is due in cycle 16 and covers the last granule in part. -/
def due (x n v : Nat) (w : Nat) : PendWrite :=
  { land := 16, issue := 15, writer := w, hand := false, dest := .slices x n v 2, events := [] }

theorem witness_due_write : ∃ (s : State) (f : Folio) (t : Tile) (c : Ctx) (p : PendWrite) (x n v : Nat) (tag : BitVec 5),
    s.at? = some (f, t, c) ∧ (t.pend.filter fun q => q.hand == c.hand && decide (q.land ≤ c.k)) = [p] ∧ p.dest = .slices x n v tag
    ∧ 0 < n ∧ x + n ≤ 4096 ∧ v < 2 ^ (4 * n) :=
  ⟨_, _, { tile .sq with pend := [due 4070 26 (2 ^ 104 - 1) 1] }, _, due 4070 26 (2 ^ 104 - 1) 1, 4070, 26, 2 ^ 104 - 1, 2,
   at_lab 1 1 [] _ .sq, by decide +kernel⟩

theorem witness_colliding_writes : ∃ (t : Tile) (hand : Bool) (k : Nat) (p q : PendWrite) (x n v y m w : Nat) (tp tq : BitVec 5),
    (t.pend.filter fun r => r.hand == hand && decide (r.land ≤ k)) = [p, q] ∧ p.dest = .slices x n v tp ∧ q.dest = .slices y m w tq
    ∧ p.writer ≠ q.writer ∧ 0 < n ∧ 0 < m ∧ x + n ≤ 4096 ∧ y + m ≤ 4096 ∧ x < y + m ∧ y < x + n :=
  ⟨{ tile .sq with pend := [due 4080 16 5 1, due 4072 9 6 2] }, false, 16, due 4080 16 5 1, due 4072 9 6 2, 4080, 16, 5, 4072, 9, 6, 2, 2,
   by decide +kernel⟩

theorem witness_queue_frame : ∃ (i : Instr) (s s' : State), i.isQueue = true ∧ i.inQueue .sq = true ∧ i.inQueue .xu = true
    ∧ i.inQueue .ce = false ∧ exec i s = .next s' :=
  ⟨.addLong big3, lab 1 1 [tile .sq] .sq, _, by decide +kernel, by decide +kernel, by decide +kernel, by decide +kernel, rfl⟩

/-- A tile whose target registers 2 and 7 hold the lines l2 and l7, with WINB w. -/
def aimed (l2 l7 : Int) (w : Nat) : Tile :=
  let t := tile .sq
  { t with ctl := { t.ctl with btgt := vset (vset t.ctl.btgt 2 ⟨l2, 10, false⟩) 7 ⟨l7, 10, true⟩, winb := w } }

/-- The same with the entry of overlay 255 loaded. -/
def overlaid : Tile :=
  let t := aimed 4095 0 0
  { t with csr := { t.csr with ovt := vset t.csr.ovt 255 0x8000000000000FFF } }

theorem witness_redirects :
    Meets (fun _ => seqInfo none [] [] [] false) (fun c t => t.noOrphan c)
    ∧ Meets (fun _ => seqInfo none [] [] [] true) (fun c t => t.noOrphan c ∧ c.hand = true
      ∧ (∀ p ∈ t.pend, p.hand = true → p.land ≤ c.k) ∧ (∀ a ∈ t.ap.accs, a.hand = false))
    ∧ Meets (fun _ => seqInfo (Instr.br 2 15 true false).cause [] [] [15] true) (fun c t => t.noOrphan c ∧
      (false = true ∨ t.pred 15 ≠ true) ∧ t.targetValid 2)
    ∧ Meets (fun _ => seqInfo (Instr.br 2 0 false true).cause [] [] [] true) (fun c t => t.noOrphan c ∧ t.targetValid 2)
    ∧ Meets (fun _ => seqInfo (Instr.br 2 15 false false).cause [] [] [15] true) (fun _ t => false = false ∧ t.pred 15 = false)
    ∧ Meets (fun _ => seqInfo none [] [] [] false) (fun c t => t.noOrphan c ∧ t.targetValid 2 ∧ t.ctl.winb + 63 ≤ 192)
    ∧ Meets (fun _ => seqInfo none [] [] [] false) (fun c t => t.noOrphan c ∧ t.targetValid 7 ∧ 63 ≤ t.ctl.winb)
    ∧ Meets (fun _ => seqInfo none [] [] [] false) (fun c t => t.noOrphan c
      ∧ (∀ i < 6, t.trailer.testBit i = true → t.queueBusy c (i + 1) = false)
      ∧ (vget t.csr.ovt 255).getLsbD 63 = true) := by
  refine ⟨meets_at .sq (tile .sq) (by decide +kernel) (no_orphan_of_test (by decide +kernel)),
    meets_at .sq (inHand (tile .sq)) (by decide +kernel) ⟨no_orphan_of_test (by decide +kernel), by decide +kernel⟩,
    meets_at .sq (aimed 4095 0 0) (by decide +kernel) ⟨no_orphan_of_test (by decide +kernel), by decide +kernel, by decide +kernel, by decide +kernel⟩,
    meets_at .sq (aimed 0 0 0) (by decide +kernel) ⟨no_orphan_of_test (by decide +kernel), by decide +kernel, by decide +kernel⟩,
    meets_at .sq (aimed 0 0 0) (by decide +kernel) (by decide +kernel),
    meets_at .sq (aimed 4095 0 129) (by decide +kernel) ⟨no_orphan_of_test (by decide +kernel), ⟨by decide +kernel, by decide +kernel⟩, by decide +kernel⟩,
    meets_at .sq (aimed 0 4095 63) (by decide +kernel) ⟨no_orphan_of_test (by decide +kernel), ⟨by decide +kernel, by decide +kernel⟩, by decide +kernel⟩,
    meets_at .sq overlaid (by decide +kernel) ⟨no_orphan_of_test (by decide +kernel), by decide +kernel⟩⟩

theorem witness_redirect_traps :
    Meets (fun _ => seqInfo (Instr.br 2 15 true false).cause [] [] [15] true) (fun c t => t.noOrphan c ∧
      (false = true ∨ t.pred 15 ≠ true) ∧ ¬t.targetValid 2)
    ∧ Meets (fun _ => seqInfo none [] [] [] false) (fun c t => t.noOrphan c ∧ ¬t.targetValid 2)
    ∧ Meets (fun _ => seqInfo none [] [] [] false) (fun c t => t.noOrphan c ∧ t.targetValid 2 ∧ 192 < t.ctl.winb + 63)
    ∧ Meets (fun _ => seqInfo none [] [] [] false) (fun c t => t.noOrphan c ∧ ¬t.targetValid 7)
    ∧ Meets (fun _ => seqInfo none [] [] [] false) (fun c t => t.noOrphan c ∧ t.targetValid 7 ∧ t.ctl.winb < 63)
    ∧ Meets (fun _ => seqInfo none [] [] [] false) (fun c t =>
      (∀ i < 6, t.trailer.testBit i = true → t.queueBusy c (i + 1) = false) ∧ (vget t.csr.ovt 0).getLsbD 63 = false) := by
  refine ⟨meets_at .sq (aimed 4096 0 0) (by decide +kernel) ⟨no_orphan_of_test (by decide +kernel), by decide +kernel, fun h => absurd h.2 (by decide +kernel)⟩,
    meets_at .sq (aimed (-1) 0 0) (by decide +kernel) ⟨no_orphan_of_test (by decide +kernel), fun h => absurd h.1 (by decide +kernel)⟩,
    meets_at .sq (aimed 0 0 130) (by decide +kernel) ⟨no_orphan_of_test (by decide +kernel), ⟨by decide +kernel, by decide +kernel⟩, by decide +kernel⟩,
    meets_at .sq (aimed 0 4096 0) (by decide +kernel) ⟨no_orphan_of_test (by decide +kernel), fun h => absurd h.2 (by decide +kernel)⟩,
    meets_at .sq (aimed 0 0 62) (by decide +kernel) ⟨no_orphan_of_test (by decide +kernel), ⟨by decide +kernel, by decide +kernel⟩, by decide +kernel⟩,
    meets_at .sq overlaid (by decide +kernel) (by decide +kernel)⟩

/-- The tile with a PFX alone in XU. -/
def prefixed (t : Tile) : Tile := { t with ctl := t.ctl.setEntries .xu [{ noEntry with w0 := 0xBE000000 }] }

theorem meets_orphan {n : Info} {ok : Ctx → Tile → Prop} (t : Tile) (h : issuesB (ctx (prefixed t) .sq) (prefixed t) n = true)
    (h' : ok (ctx (prefixed t) .sq) (prefixed t)) (he : (prefixed t).ctl.entries .xu = [{ noEntry with w0 := 0xBE000000 }])
    (hc : (ctx (prefixed t) .sq).e.seq = 0 ∧ (prefixed t).ctl.fetch.owe = none ∧ (prefixed t).ctl.fetch.cross = []) :
    Meets (fun _ => n) (fun c t => t.orphaned c ∧ ok c t) :=
  meets_at .sq (prefixed t) h ⟨⟨.xu, { noEntry with w0 := 0xBE000000 }, by rw [he, hc.1]; rfl, rfl, by decide, by simp [hc.2.1], by simp [hc.2.2]⟩, h'⟩

theorem witness_orphans : let plain := seqInfo none [] [] [] false
    Meets (fun _ => plain) (fun c t => t.orphaned c ∧ always c t)
    ∧ Meets (fun _ => seqInfo none [] [] [] true) (fun c t => t.orphaned c ∧ c.hand = true
      ∧ (∀ p ∈ t.pend, p.hand = true → p.land ≤ c.k) ∧ ∀ a ∈ t.ap.accs, a.hand = false)
    ∧ Meets (fun _ => seqInfo (Instr.br 2 15 true false).cause [] [] [15] true) (fun c t => t.orphaned c
      ∧ (false = true ∨ t.pred 15 ≠ true) ∧ t.targetValid 2)
    ∧ Meets (fun _ => plain) (fun c t => t.orphaned c ∧ t.targetValid 7)
    ∧ Meets (fun _ => seqInfo none [] [] [15] false) (fun c t => t.orphaned c ∧ (vget t.ctl.loops 0).act = true ∧ t.pred 15 ≠ true)
    ∧ Meets (fun _ => plain) (fun c t => t.orphaned c ∧ (∀ i < 6, t.trailer.testBit i = true → t.queueBusy c (i + 1) = false)
      ∧ (vget t.csr.ovt 255).getLsbD 63 = true) :=
  ⟨meets_orphan (tile .sq) (by decide +kernel) trivial rfl ⟨rfl, rfl, rfl⟩,
   meets_orphan (inHand (tile .sq)) (by decide +kernel) (by decide +kernel) rfl ⟨rfl, rfl, rfl⟩,
   meets_orphan (aimed 4095 0 0) (by decide +kernel) ⟨by decide +kernel, by decide +kernel, by decide +kernel⟩ rfl ⟨rfl, rfl, rfl⟩,
   meets_orphan (aimed 0 4095 0) (by decide +kernel) ⟨by decide +kernel, by decide +kernel⟩ rfl ⟨rfl, rfl, rfl⟩,
   meets_orphan { tile .sq with ctl := { (tile .sq).ctl with loops := vset (tile .sq).ctl.loops 0 ⟨true, 3, 1, 4095, 2⟩ } } (by decide +kernel)
     (by decide +kernel) rfl ⟨rfl, rfl, rfl⟩,
   meets_orphan { overlaid with tables := { overlaid.tables with trailers := [(0xFFFF, 0)] } } (by decide +kernel) (by decide +kernel) rfl ⟨rfl, rfl, rfl⟩⟩

/-- A tile whose SQ entry stands in line l, with one loop open at level 0 over the lines to last, and a count in w127. -/
def looping (l last n : Nat) (act : Bool) : Tile :=
  let t := slices [(1016, 8, n)] (tile .sq)
  { t with ctl := { (t.ctl.setEntries .sq [{ noEntry with line := l }]) with
      loops := vset t.ctl.loops 0 ⟨act, 3, 1, last, 2⟩ } }

/-- What R146 asks of a LOOP at level l over a number of lines with a count. -/
def opens (l lines count : Nat) (c : Ctx) (t : Tile) : Prop :=
  count ≠ 0 ∧ (vget t.ctl.loops l).act = false ∧ c.e.line + lines ≤ 4095
  ∧ ∀ j < l, (vget t.ctl.loops j).act = true ∧ c.e.line + lines ≤ (vget t.ctl.loops j).last

theorem witness_loops :
    Meets (fun _ => seqInfo (Instr.loopImm 0 0 1023).cause [] [] [] false) (opens 0 1023 4096)
    ∧ Meets (fun t => seqInfo (Instr.loopReg 1 127 1023).cause [t.wSpan 127] [] [] false) (fun c t => opens 1 1023 (t.word 127) c t)
    ∧ Meets (fun _ => seqInfo (Instr.loopImm 0 1 1023).cause [] [] [] false) (fun c t => ¬opens 0 1023 1 c t)
    ∧ Meets (fun t => seqInfo (Instr.loopReg 0 127 1).cause [t.wSpan 127] [] [] false) (fun c t => ¬opens 0 1 (t.word 127) c t)
    ∧ Meets (fun _ => seqInfo (Instr.loopImm 0 1 1).cause [] [] [] false) (fun c t => ¬opens 0 1 1 c t)
    ∧ Meets (fun _ => seqInfo (Instr.loopImm 1 1 2).cause [] [] [] false) (fun c t => ¬opens 1 2 1 c t) :=
  ⟨meets_at .sq (looping 3072 0 0 false) (by decide +kernel) (by unfold opens; decide +kernel),
   meets_at .sq (looping 0 1023 1 true) (by decide +kernel) (by unfold opens; decide +kernel),
   meets_at .sq (looping 3073 0 0 false) (by decide +kernel) (by unfold opens; decide +kernel),
   meets_at .sq (looping 0 0 0 false) (by decide +kernel) (by unfold opens; decide +kernel),
   meets_at .sq (looping 0 9 0 true) (by decide +kernel) (by unfold opens; decide +kernel),
   meets_at .sq (looping 0 1 0 true) (by decide +kernel) (by unfold opens; decide +kernel)⟩

theorem witness_loop_breaks : let info (_ : Tile) := seqInfo none [] [] [15] false
    Meets info (fun c t => t.noOrphan c ∧ (vget t.ctl.loops 0).act = true ∧ t.pred 15 ≠ true ∧ (vget t.ctl.loops 0).last < 4095)
    ∧ Meets info (fun _ t => (vget t.ctl.loops 0).act = true ∧ t.pred 15 = false)
    ∧ Meets info (fun _ t => (vget t.ctl.loops 0).act = false)
    ∧ Meets info (fun c t => t.noOrphan c ∧ (vget t.ctl.loops 0).act = true ∧ t.pred 15 ≠ true ∧ 4095 ≤ (vget t.ctl.loops 0).last) :=
  ⟨meets_at .sq (looping 0 4094 0 true) (by decide +kernel) ⟨no_orphan_of_test (by decide +kernel), by decide +kernel⟩,
   meets_at .sq (looping 0 4094 0 true) (by decide +kernel) (by decide +kernel),
   meets_at .sq (looping 0 4094 0 false) (by decide +kernel) (by decide +kernel),
   meets_at .sq (looping 0 4095 0 true) (by decide +kernel) ⟨no_orphan_of_test (by decide +kernel), by decide +kernel⟩⟩

/-- A tile with a live map 4095 and a cycle number in w126 and w127. -/
def sequenced (n : Nat) : Tile :=
  let t := slices [(1008, 16, n)] (tile .sq)
  { t with tables := { t.tables with livemaps := [(4095, [])] } }

theorem witness_sequencer :
    Meets (fun _ => seqInfo none [] [] [] true) always ∧ Meets (fun t => seqInfo none [t.wSpan 127] [] [] true) always
    ∧ Meets (fun _ => seqInfo none [] [] [] false) (fun c t => t.penForbidden c 4095 = false)
    ∧ Meets (fun _ => seqInfo none [] [] [] false) (fun c t => t.penForbidden c 4094 = true)
    ∧ Meets (fun t => seqInfo (Instr.waitcUntil 126).cause [t.pairSpan 126] [] [] true) (fun c t => t.pair 126 ≤ c.cyc)
    ∧ Meets (fun t => seqInfo (Instr.waitcUntil 126).cause [t.pairSpan 126] [] [] true) (fun c t => c.cyc < t.pair 126) :=
  ⟨meets_at .sq (sequenced 0) (by decide +kernel) trivial, meets_at .sq (sequenced 0) (by decide +kernel) trivial,
   meets_at .sq (sequenced 0) (by decide +kernel) (by decide +kernel), meets_at .sq (sequenced 0) (by decide +kernel) (by decide +kernel),
   meets_at .sq (sequenced 16) (by decide +kernel) (by decide +kernel), meets_at .sq (sequenced 17) (by decide +kernel) (by decide +kernel)⟩

/-- A tile with a second entry behind the head of SQ. -/
def followed (w0 : Word) : Tile :=
  let t := tile .sq
  { t with ctl := t.ctl.setEntries .sq [noEntry, { noEntry with w0 := w0 }], granted := [] }

theorem witness_tokens : Meets (fun _ => tokenInfo) (fun c t => c.q ∈ t.granted) ∧ Meets (fun _ => tokenInfo) (fun c t => c.q ∉ t.granted)
    ∧ Meets (fun _ => tokenInfo) always
    ∧ ∀ w0 ∈ [(0xBE000000 : Word), 0x00000000], ∃ (s : State) (f : Folio) (t : Tile) (c : Ctx) (e : Entry), s.at? = some (f, t, c)
      ∧ t.queueHeld c = false ∧ (Instr.pfx ⟨none, none, none, none, false⟩).cause = none ∧ (t.ctl.entries c.q)[1]? = some e
      ∧ e.marker = none ∧ (major e.w0 = 0x5F ↔ w0 = 0xBE000000) := by
  refine ⟨meets_at .sq (tile .sq) (by decide +kernel) (by decide +kernel), meets_at .sq (followed 0) (by decide +kernel) (by decide +kernel),
    meets_at .sq (followed 0) (by decide +kernel) trivial, fun w0 hw => ?_⟩
  refine ⟨_, _, followed w0, _, { noEntry with w0 := w0 }, at_lab 1 1 [] _ .sq, ?_⟩
  fin_cases hw <;> decide +kernel

theorem witness_token_range : ∃ (t : Tile) (n : Nat), n < 8 ∧
    let sum := ((t.sigs.filter fun x => x.1 == n).map fun x => x.2.1).sum
    vget t.tok n + sum = 255 ∧ 255 < vget t.tok 6 + ((t.sigs.filter fun x => x.1 == 6).map fun x => x.2.1).sum :=
  ⟨{ tile .sq with tok := vset (vset (Vector.replicate 8 0) 7 250) 6 250, sigs := [(7, 3, 1), (6, 3, 1), (7, 2, 2), (6, 3, 2)] }, 7, by decide +kernel⟩

/-- A tile with a value in the pair w126. -/
def paired (v : Nat) : Tile := slices [(1008, 16, v)] (tile .sq)

theorem witness_control_registers :
    Meets (fun t => seqInfo none [] [t.wSpan 127] [] true) always
    ∧ Meets (fun t => seqInfo (Instr.rdclk 126).cause [] [t.pairSpan 126] [] true) always
    ∧ Meets (fun t => seqInfo (Instr.csrrd 0x010 126).cause [] [t.pairSpan 126] [] true) (fun c t => (t.readCsr c 0x010).isSome)
    ∧ Meets (fun t => seqInfo (Instr.csrrd 0x014 126).cause [] [t.pairSpan 126] (List.range 16) true) (fun c t => (t.readCsr c 0x014).isSome)
    ∧ Meets (fun t => seqInfo (Instr.csrrd 0xFFF 126).cause [] [t.pairSpan 126] [] true) (fun c t => t.readCsr c 0xFFF = none)
    ∧ (let info (n : BitVec 12) (t : Tile) := seqInfo (Instr.csrwr n 126).cause [t.pairSpan 126] [] [] true
       Meets (info 0x010) (fun _ t => csrRefused 0x010 (t.pair 126) = some 21)
       ∧ Meets (info 0x030) (fun _ t => csrRefused 0x030 (t.pair 126) = some 88)
       ∧ Meets (info 0x010) (fun _ t => csrRefused 0x010 (t.pair 126) = none) ∧ Meets (info 0x014) always ∧ Meets (info 0x01F) always
       ∧ Meets (info 0x09B) (fun c _ => c.hand = true) ∧ Meets (info 0x09B) (fun c _ => c.hand = false)) :=
  ⟨meets_at .sq (tile .sq) (by decide +kernel) trivial, meets_at .sq (tile .sq) (by decide +kernel) trivial,
   meets_at .sq (tile .sq) (by decide +kernel) (by decide +kernel), meets_at .sq (tile .sq) (by decide +kernel) (by decide +kernel),
   meets_at .sq (tile .sq) (by decide +kernel) (by decide +kernel),
   meets_at .sq (paired 193) (by decide +kernel) (by decide +kernel), meets_at .sq (paired 0) (by decide +kernel) (by decide +kernel),
   meets_at .sq (paired 192) (by decide +kernel) (by decide +kernel), meets_at .sq (paired 0) (by decide +kernel) trivial,
   meets_at .sq (paired 0) (by decide +kernel) trivial, meets_at .sq (inHand (paired 0)) (by decide +kernel) (by decide +kernel),
   meets_at .sq (paired 0) (by decide +kernel) (by decide +kernel)⟩

/-- A tile with a value in w125 and w126, and another in w127. -/
def based (a v : Nat) : Tile := slices [(1000, 8, a), (1008, 8, v), (16, 16, a)] (tile .ap)

/-- The base values that make an access of a form sit at the top of program SPAD, beyond it, and off its alignment. -/
def bases (a b c : Nat) : Fin 3 → Tile := fun i => based (if i = 0 then a else if i = 1 then b else c) 0

def lmb : LongMem := { lm with bas := 1000 }
def lmx : LongMem := { lmb with x := 3, hi := 3, lo := 0xF0 }
def lms : LongMem := { lm with bas := 0, hi := 0xFF, lo := 0xF8 }

/-- The stack pointers that make a slot at sp - 8 sit at the top of program SPAD, beyond it, and off its alignment. -/
def stacked : Fin 3 → Tile := fun i =>
  let t := tile .ap
  { t with csr := { t.csr with sp := if i = 0 then 0xF8000 else if i = 1 then 0xF8008 else 0x14 } }

theorem witness_loads :
    MeetsAccess (fun t => apInfo (Instr.ld 3 false 126 125 127).cause [t.wSpan 125] [t.pairSpan 126] 1 1 0 false false true) 0
      (fun t => (((t.word 125 : Int) + (127 : BitVec 8).toInt * 8) % 2 ^ 32).toNat) 8 always
    ∧ Meets (fun t => apInfo (Instr.ld 0 true 127 125 128).cause [t.wSpan 125] [t.wSpan 127] 1 1 0 false false true)
      (fun c t => t.admits c 0 (((t.word 125 : Int) + (128 : BitVec 8).toInt * 1) % 2 ^ 32).toNat 1)
    ∧ MeetsAccess (fun _ => apInfo (Instr.ldLong lmb).cause [lmb.baseSpan] [(1, 16)] 1 1 0 false false true) 0
      (fun t => (((t.slices.span 1000 8 : Int) + lmb.disp) % 2 ^ 32).toNat) 8 always
    ∧ MeetsAccess (fun _ => apInfo (Instr.ldx lmx).cause [lmx.baseSpan, (lmx.indexStart, 8)] [(1, 16)] 1 1 0 false false true) 0
      (fun t => (((t.slices.span 1000 8 : Int) + toSigned 32 (t.slices.span lmx.indexStart 8) * 2 ^ 3) % 2 ^ 32).toNat) 8 always
    ∧ MeetsAccess (fun _ => apInfo (Instr.fill lms).cause [] [(1, 16)] 1 1 0 false false true) 0
      (fun t => (((t.csr.sp.toNat : Int) + lms.disp) % 2 ^ 32).toNat) 8 always :=
  ⟨meets_access .ap (bases (0xF8000 - 1024) (0xF8000 - 1016) 0xF0004) (by decide +kernel) (by decide +kernel) (fun _ => trivial)
      (by decide +kernel) (by decide +kernel) (by decide +kernel),
   meets_at .ap (based 0xF807F 0) (by decide +kernel) ⟨no_ratom (by decide +kernel), by decide +kernel⟩,
   meets_access .ap (bases (0xF8000 - 8) 0xF8000 0xF0004) (by decide +kernel) (by decide +kernel) (fun _ => trivial)
      (by decide +kernel) (by decide +kernel) (by decide +kernel),
   meets_access .ap (bases (0xF8000 - 8) 0xF8000 0xF0004) (by decide +kernel) (by decide +kernel) (fun _ => trivial)
      (by decide +kernel) (by decide +kernel) (by decide +kernel),
   meets_access .ap stacked (by decide +kernel) (by decide +kernel) (fun _ => trivial)
      (by decide +kernel) (by decide +kernel) (by decide +kernel)⟩

/-- A tile whose stack limit lies above the slot. -/
def limited : Tile :=
  let t := stacked 0
  { t with csr := { t.csr with splim := 0xF8000 } }

theorem witness_stores :
    MeetsAccess (fun t => apInfo (Instr.st 3 126 125 127).cause [t.wSpan 125, t.pairSpan 126] [] 1 1 0 false false true) 0
      (fun t => (((t.word 125 : Int) + (127 : BitVec 8).toInt * 8) % 2 ^ 32).toNat) 8 always
    ∧ MeetsAccess (fun _ => apInfo (Instr.stLong lmb).cause [lmb.baseSpan, lmb.vSpan] [] 1 1 0 false false true) 0
      (fun t => (((t.slices.span 1000 8 : Int) + lmb.disp) % 2 ^ 32).toNat) 8 always
    ∧ MeetsAccess (fun _ => apInfo (Instr.stx lmx).cause [lmx.baseSpan, (lmx.indexStart, 8), lmx.vSpan] [] 1 1 0 false false true) 0
      (fun t => (((t.slices.span 1000 8 : Int) + toSigned 32 (t.slices.span lmx.indexStart 8) * 2 ^ 3) % 2 ^ 32).toNat) 8 always
    ∧ (let info (_ : Tile) : Info := apInfo (Instr.spill lms).cause [lms.vSpan] [] 1 1 0 false false true
       let slot (t : Tile) : Nat := (((t.csr.sp.toNat : Int) + lms.disp) % 2 ^ 32).toNat
       MeetsAccess info 0 slot 8 (fun _ t => t.csr.splim.toNat ≤ slot t)
       ∧ Meets info (fun c t => t.admits c 0 (slot t) 8 ∧ ¬t.csr.splim.toNat ≤ slot t)) :=
  ⟨meets_access .ap (bases (0xF8000 - 1024) (0xF8000 - 1016) 0xF0004) (by decide +kernel) (by decide +kernel) (fun _ => trivial)
      (by decide +kernel) (by decide +kernel) (by decide +kernel),
   meets_access .ap (bases (0xF8000 - 8) 0xF8000 0xF0004) (by decide +kernel) (by decide +kernel) (fun _ => trivial)
      (by decide +kernel) (by decide +kernel) (by decide +kernel),
   meets_access .ap (bases (0xF8000 - 8) 0xF8000 0xF0004) (by decide +kernel) (by decide +kernel) (fun _ => trivial)
      (by decide +kernel) (by decide +kernel) (by decide +kernel),
   meets_access .ap stacked (by decide +kernel) (by decide +kernel) (by decide +kernel)
      (by decide +kernel) (by decide +kernel) (by decide +kernel),
   meets_at .ap limited (by decide +kernel) ⟨⟨no_ratom (by decide +kernel), by decide +kernel⟩, by decide +kernel⟩⟩

/-- A tile with one access due in cycle 16 and, at its word, a mark where one is asked for. -/
def accessing (k : ApKind) (mark : List Nat) : Tile :=
  let t := tile .ap
  { t with ap := { t.ap with accs := [⟨16, 14, 0, 0, 1, false, k⟩] }, stores := { t.stores with poison := mark } }

theorem witness_load_performs : ∀ l ∈ [[], [0x1EFFF]], ∃ (t : Tile) (hand : Bool) (k : Nat) (a : ApAcc) (addr nb vs w : Nat) (sign : Bool),
    t.ap.accs = [a] ∧ a.hand = hand ∧ a.perf = k ∧ a.kind = .load addr nb vs w sign ∧ 0 < nb ∧ 0 < w
    ∧ t.badWord addr nb = if l = [] then none else some 0x1EFFF := fun l hl =>
  ⟨accessing (.load 0xF7FF8 8 4080 64 true) l, false, 16, ⟨16, 14, 0, 0, 1, false, .load 0xF7FF8 8 4080 64 true⟩, 0xF7FF8, 8, 4080, 64, true,
   by fin_cases hl <;> decide +kernel⟩

theorem witness_store_performs : ∀ l ∈ [[], [0]], ∃ (t : Tile) (hand : Bool) (k : Nat) (a : ApAcc) (addr nb v : Nat),
    t.ap.accs = [a] ∧ a.hand = hand ∧ a.perf = k ∧ a.kind = .store addr nb v ∧ t.partBad addr nb = l := fun l hl =>
  ⟨accessing (.store 4 4 0xFFFFFFFF) l, false, 16, ⟨16, 14, 0, 0, 1, false, .store 4 4 0xFFFFFFFF⟩, 4, 4, 0xFFFFFFFF,
   by fin_cases hl <;> decide +kernel⟩

/-- The atomics of the AP with their operations. -/
def atoms (o : LongMem) : List (Instr × AtomOp) :=
  [(Instr.atomAdd o, AtomOp.add), (.atomMin o, .min), (.atomMax o, .max), (.atomAnd o, .and), (.atomOr o, .or), (.atomXor o, .xor),
    (.atomXchg o, .xchg), (.atomCas o, .cas), (.atomFadd o, .fadd), (.atomMinZ o, .minz), (.atomMaxZ o, .maxz)]

def atomInfo (o : LongMem) (p : Instr × AtomOp) (_ : Tile) : Info :=
  let n := o.bits / 4
  apInfo p.1.cause [o.baseSpan, (o.vs.toNat, if p.2 = .cas then 2 * n else n)] [(o.vs.toNat, n)]
    o.ecl.toNat 1 o.ocl.toNat (p.2 == .fadd) (p.2 == .add || p.2 == .fadd) true

def atomTagged (o : LongMem) (p : Instr × AtomOp) (_ : Ctx) (t : Tile) : Prop :=
  p.2 = .fadd → ∀ g ∈ granules o.vs.toNat (o.bits / 4), t.slices.tag g ∈ [0, if o.bits = 64 then 1 else 2]

/-- The tile with a tag on granule g. -/
def tagged (g tag : Nat) (t : Tile) : Tile := { t with slices := t.slices.setTag g tag }

theorem witness_atomics : ∀ o ∈ [lmb, { lmb with wv := 5 }],
    (∀ p ∈ atoms o, MeetsAccess (atomInfo o p) 0 (fun t => (((t.slices.span 1000 8 : Int) + o.disp) % 2 ^ 32).toNat) (o.bits / 8) (atomTagged o p))
    ∧ Meets (atomInfo o (.atomFadd o, .fadd)) (fun c t =>
      t.noRatom c 0 (((t.slices.span 1000 8 : Int) + o.disp) % 2 ^ 32).toNat (o.bits / 8)
      ∧ t.slices.badTag o.vs.toNat (o.bits / 4) [0, if o.bits = 64 then 1 else 2] = some 0) := by
  have h : ∀ o ∈ [lmb, { lmb with wv := 5 }], ∀ p ∈ atoms o,
      let l := bases (0xF8000 - o.bits / 8) 0xF8000 0xF0002
      let a (t : Tile) : Nat := (((t.slices.span 1000 8 : Int) + o.disp) % 2 ^ 32).toNat
      (∀ i, issuesB (ctx (l i) .ap) (l i) (atomInfo o p (l i)) = true)
      ∧ (∀ i, ∀ g ∈ granules o.vs.toNat (o.bits / 4), (l i).slices.tag g ∈ [0, if o.bits = 64 then 1 else 2])
      ∧ (a (l 0) + o.bits / 8 ≤ 0xF8000 ∧ a (l 0) % alignOf (o.bits / 8) = 0) ∧ 0xF8000 < a (l 1) + o.bits / 8
      ∧ (a (l 2) + o.bits / 8 ≤ 0xF8000 ∧ a (l 2) % alignOf (o.bits / 8) ≠ 0) := by decide +kernel
  have g : ∀ o ∈ [lmb, { lmb with wv := 5 }], issuesB (ctx (tagged 0 3 (based 0 0)) .ap) (tagged 0 3 (based 0 0))
        (atomInfo o (.atomFadd o, .fadd) (tagged 0 3 (based 0 0))) = true
      ∧ (tagged 0 3 (based 0 0)).slices.badTag o.vs.toNat (o.bits / 4) [0, if o.bits = 64 then 1 else 2] = some 0 := by decide +kernel
  refine fun o ho => ⟨fun p hp => ?_, meets_at .ap (tagged 0 3 (based 0 0)) (g o ho).1 ⟨no_ratom (by decide +kernel), (g o ho).2⟩⟩
  obtain ⟨h1, h2, h3, h4, h5⟩ := h o ho p hp
  exact meets_access .ap (bases (0xF8000 - o.bits / 8) 0xF8000 0xF0002) (fun _ => rfl) h1 (fun i _ => h2 i) h3 h4 h5

theorem witness_atomic_performs : ∀ op ∈ [AtomOp.add, .min, .max, .minz, .maxz, .and, .or, .xor, .xchg, .cas, .fadd], ∀ l ∈ [[], [1]],
    ∃ (t : Tile) (hand : Bool) (k : Nat) (a : ApAcc) (addr w vs v n u : Nat) (r : Rnd),
    t.ap.accs = [a] ∧ a.hand = hand ∧ a.perf = k ∧ a.kind = .atom op addr w vs v n r u ∧ (w = 32 ∨ w = 64) ∧ v < 2 ^ w ∧ n < 2 ^ w
    ∧ t.badWord addr (w / 8) = if l = [] then none else some 1 := fun op _ l hl =>
  ⟨accessing (.atom op 8 64 0 (2 ^ 64 - 1) (2 ^ 64 - 1) ⟨0, true⟩ 0) l, false, 16,
   ⟨16, 14, 0, 0, 1, false, .atom op 8 64 0 (2 ^ 64 - 1) (2 ^ 64 - 1) ⟨0, true⟩ 0⟩, 8, 64, 0, 2 ^ 64 - 1, 2 ^ 64 - 1, 0, ⟨0, true⟩,
   rfl, rfl, rfl, rfl, by decide, by decide, by decide, by
     cases op <;> fin_cases hl <;> decide +kernel⟩

/-- The remote atomics with their operations. -/
def ratoms (o : LongMem) : List (Instr × AtomOp) :=
  [(Instr.ratomAdd o, AtomOp.add), (.ratomMin o, .min), (.ratomMax o, .max), (.ratomAnd o, .and), (.ratomOr o, .or), (.ratomXor o, .xor),
    (.ratomXchg o, .xchg), (.ratomCas o, .cas), (.ratomFadd o, .fadd), (.ratomMinZ o, .minz), (.ratomMaxZ o, .maxz)]

def ratomInfo (o : LongMem) (p : Instr × AtomOp) (_ : Tile) : Info :=
  let n := o.bits / 4
  apInfo p.1.cause [(o.bas.toNat, 16), (o.vs.toNat, if p.2 = .cas then 2 * n else n)] [(o.vs.toNat, n)]
    o.ecl.toNat 1 o.ocl.toNat (p.2 == .fadd) (p.2 == .add || p.2 == .fadd) false

/-- What R349 asks of the address of a RATOM that goes to tile (x, 0), without the RATOM still to land. -/
def goesTo (o : LongMem) (x : Nat) (c : Ctx) (t : Tile) : Prop :=
  let b := t.slices.span o.bas.toNat 16
  let off := (((b % 2 ^ 22 : Nat) : Int) + o.disp) % 2 ^ 22 |>.toNat
  (∀ g ∈ granules o.vs.toNat (o.bits / 4), t.slices.tag g ∈ [0, if o.bits = 64 then 1 else 2])
  ∧ b / 2 ^ 40 = 0 ∧ b / 2 ^ 22 % 4 = 0 ∧ (x : Int) = c.fx + toSigned 8 (b / 2 ^ 32 % 256) ∧ x < c.place.w
  ∧ (0 : Int) = c.fy + toSigned 8 (b / 2 ^ 24 % 256) ∧ 0 < c.place.h ∧ off + o.bits / 8 ≤ 0xF8000 ∧ off % (o.bits / 8) = 0

/-- A tile with a window address in its base span and a RALAT. -/
def remote (a lat : Nat) : Tile :=
  let t := slices [(1000, 16, a)] (tile .ap)
  { t with csr := { t.csr with ralat := lat } }

theorem witness_remote_atomics : ∀ p ∈ ratoms lmb,
    Meets (ratomInfo lmb p) (fun c t => (t.noRatom c 0 0xF7FF8 8 ∧ goesTo lmb 0 c t) ∧ 2 * hops c.place c.fx c.fy 0 0 ≤ t.csr.ralat)
    ∧ Meets (ratomInfo lmb p) (fun c t => (t.noRatom c 0 0 0 ∧ goesTo lmb 1 c t) ∧ 2 * hops c.place c.fx c.fy 1 0 ≤ t.csr.ralat)
    ∧ Meets (ratomInfo lmb p) (fun c t => (t.noRatom c 0 0 0 ∧ goesTo lmb 1 c t) ∧ t.csr.ralat < 2 * hops c.place c.fx c.fy 1 0) := by
  have h : ∀ p ∈ ratoms lmb, ∀ x ∈ [(0xF7FF8, 4), (2 ^ 32, 6), (2 ^ 32, 5)],
      issuesB (ctxIn 2 1 [tile .ap] (remote x.1 x.2) .ap) (remote x.1 x.2) (ratomInfo lmb p (remote x.1 x.2)) = true := by decide +kernel
  refine fun p hp => ⟨meets_in 2 1 [tile .ap] .ap (remote 0xF7FF8 4) (h p hp (0xF7FF8, 4) (by decide)) ⟨⟨no_ratom (by decide +kernel), ?_⟩, ?_⟩,
    meets_in 2 1 [tile .ap] .ap (remote (2 ^ 32) 6) (h p hp (2 ^ 32, 6) (by decide)) ⟨⟨no_ratom (by decide +kernel), ?_⟩, ?_⟩,
    meets_in 2 1 [tile .ap] .ap (remote (2 ^ 32) 5) (h p hp (2 ^ 32, 5) (by decide)) ⟨⟨no_ratom (by decide +kernel), ?_⟩, ?_⟩⟩
  all_goals first | (unfold goesTo; decide +kernel) | decide +kernel

/-- A tile whose fences may or may not issue, whose slot 31 may be in use and whose pair w126 holds an address. -/
def fenced (go v : Bool) (a : Nat) : Tile :=
  let t := slices [(1008, 16, a)] (tile .ap)
  { t with apGo := go, wins := vset t.wins 31 ⟨v, false, 0, false, 0, 0⟩ }

/-- A tile with one word at the head of AP, inside a handler or not, and an access of class 2 that it issued. -/
def heads (w : Word) (hand : Bool) (perf : Nat) : Tile :=
  let t := tile .ap
  let t := if hand then inHand t else t
  { t with ctl := (t.ctl.setEntries .ap [{ noEntry with w0 := w }]), ap := { t.ap with accs := [⟨perf, 4, 2, 0, 1, hand, .load 0 4 0 32 false⟩] } }

/-- WaitsFencesAndProbesComplete: the words at the head of AP are those of R354, R355 and R358. -/
theorem witness_fences : (∀ x ∈ [(0x44000006#32, Instr.fence 6, false), (0x46038000#32, .sfence 3 0x8000, false), (0x44000006#32, .fence 6, true),
      (0x4A400000#32, .unpin 4, false)], ∃ (t : Tile) (c : Ctx), t.headReady c .ap = true ∧ t.headInstr .ap = some x.2.1 ∧ c.hand = x.2.2)
    ∧ (∀ x ∈ [(15, true), (16, false)], ∃ (t : Tile) (c : Ctx), t.headReady c .ap = true ∧ t.headInstr .ap = some (.fence 6) ∧ c.hand = false
      ∧ (t.grant c).apGo = x.2)
    ∧ (∃ m ∈ [6, 2 ^ 15], Selects m 2) ∧ CountsAfter none true 5 0 ∧ CountsAfter (some 3) true 5 5 ∧ CountsAfter (some 1) false 5 2 ∧ CountsAfter (some 2) false 5 240 :=
  ⟨fun x hx => ⟨heads x.1 x.2.2 6, ctx (heads x.1 x.2.2 6) .ap, by fin_cases hx <;> decide +kernel⟩,
   fun x hx => ⟨heads 0x44000006 false x.1, ctx (heads 0x44000006 false x.1) .ap, by fin_cases hx <;> decide +kernel⟩,
   ⟨6, by simp, by decide, .inl (by decide)⟩, rfl, ⟨rfl, rfl⟩, rfl, rfl⟩

/-- A tile in which a fence of class 0 has reached the head of AP and a SEND stands at the head of NET. -/
def fencing : Tile :=
  let t := tile .net
  let t := { t with ctl := (t.ctl.setEntries .ap [{ noEntry with w0 := 0x44000001 }]) }
  { t with ctl := { t.ctl with headAt := vset t.ctl.headAt 1 (some 12) } }
def fenced_send : NetSend := { ecl := 1, ocl := 0, wv := 13, ch := 15, dx := 1, dy := 0, vs := 3968 }

theorem witness_fence_holds : ∃ (s : State) (f : Folio) (t : Tile) (c : Ctx),
    let n : Info := netInfo (Instr.send fenced_send).cause [spanOf 3968 512] [] 1 0
    s.at? = some (f, t, c) ∧ c.q = .net ∧ c.hand = false ∧ t.queueHeld c = false ∧ n.cause = none ∧ t.violation c n = false
      ∧ t.ctl.since .ap ≠ none ∧ t.headFence = some 1 ∧ Selects 1 (c.cls 0) :=
  ⟨_, _, fencing, _, at_lab 1 1 [] _ .net, by simp only [Selects]; decide +kernel⟩

theorem witness_waits :
    (let info (_ : Tile) := apInfo (Instr.waita .gez lmb).cause [lmb.baseSpan, lmb.vSpan] [] 1 1 0 false false false
     let a (t : Tile) : Nat := (((t.slices.span 1000 8 : Int) + lmb.disp) % 2 ^ 32).toNat
     Meets info (fun c t => t.admits c 0 (a t) 8) ∧ Meets info (fun c t => t.noRatom c 0 (a t) 8 ∧ 0xF8000 < a t + 8)
     ∧ Meets info (fun c t => t.noRatom c 0 (a t) 8 ∧ a t + 8 ≤ 0xF8000 ∧ a t % 8 ≠ 0))
    ∧ Meets (fun _ => fenceInfoOf none [] [] true) (fun _ t => t.apGo = true)
    ∧ Meets (fun _ => fenceInfoOf none [] [] true) (fun _ t => t.apGo = false)
    ∧ Meets (fun _ => fenceInfoOf none [] [] false) (fun _ t => t.apGo = true)
    ∧ (let info (t : Tile) := fenceInfoOf (Instr.probe 31 126 127).cause [t.pairSpan 126] [t.wSpan 127] false
       Meets info (fun _ t => (vget t.wins 31).v = false ∧ t.pair 126 < 2 ^ 54) ∧ Meets info (fun _ t => (vget t.wins 31).v = true)
       ∧ Meets info (fun _ t => (vget t.wins 31).v = false ∧ 2 ^ 54 ≤ t.pair 126))
    ∧ ∀ x ∈ [(15, []), (14, []), (14, [1])], ∃ (s : State) (f : Folio) (t : Tile) (c : Ctx) (w : Sleep), s.at? = some (f, t, c)
      ∧ t.ap.sleep = some w ∧ (w.issue + 2 ≤ c.cyc ↔ x.1 = 14) ∧ (t.badWord w.addr 8 = none ↔ x.2 = [])
      ∧ condHolds w.cond 64 (t.littleEndian w.addr 8) w.cmp = true :=
  ⟨⟨meets_at .ap (based 0xF7FF8 0) (by decide +kernel) ⟨no_ratom (by decide +kernel), by decide +kernel⟩,
    meets_at .ap (based 0xF8000 0) (by decide +kernel) ⟨no_ratom (by decide +kernel), by decide +kernel⟩,
    meets_at .ap (based 0xF7FF4 0) (by decide +kernel) ⟨no_ratom (by decide +kernel), by decide +kernel⟩⟩,
   meets_at .ap (fenced true false 0) (by decide +kernel) (by decide +kernel), meets_at .ap (fenced false false 0) (by decide +kernel) (by decide +kernel),
   meets_at .ap (fenced true false 0) (by decide +kernel) (by decide +kernel),
   ⟨meets_at .ap (fenced true false (2 ^ 54 - 1)) (by decide +kernel) (by decide +kernel),
    meets_at .ap (fenced true true 0) (by decide +kernel) (by decide +kernel),
    meets_at .ap (fenced true false (2 ^ 54)) (by decide +kernel) (by decide +kernel)⟩,
   fun x hx => ⟨_, _, { tile .ap with
      ap := { (tile .ap).ap with sleep := some ⟨0, 1, 0, 0, x.1, .eq, 8, 0, 0⟩ }, stores := { (tile .ap).stores with poison := x.2 } },
     _, ⟨0, 1, 0, 0, x.1, .eq, 8, 0, 0⟩, at_lab 1 1 [] _ .ap, by fin_cases hx <;> decide +kernel⟩⟩

/-- RoundingFollowsTheMode: ties, the first value beyond the format, the smallest magnitudes, each direction (R191, R192). -/
theorem witness_rounding : (∃ (f : Nat) (r : Rnd) (u m : Nat), f ≤ 15 ∧ r.rm ≤ 5 ∧ u < 2 ^ 32 ∧ m ≠ 0)
    ∧ roundFin 2 ⟨0, false⟩ 0 false false (2 ^ 24 + 1) 0 = (0x4B800000, none) ∧ roundFin 2 ⟨0, false⟩ 0 false false (2 ^ 24 + 3) 0 = (0x4B800002, none)
    ∧ roundFin 2 ⟨4, false⟩ 0 false false (2 ^ 24 + 1) 0 = (0x4B800001, none) ∧ roundFin 2 ⟨1, false⟩ 0 false true (2 ^ 24 + 3) 0 = (0xCB800001, none)
    ∧ roundFin 2 ⟨2, false⟩ 0 false false (2 ^ 24 + 1) 0 = (0x4B800001, none) ∧ roundFin 2 ⟨3, false⟩ 0 false true (2 ^ 24 + 1) 0 = (0xCB800001, none)
    ∧ roundFin 2 ⟨0, false⟩ 0 false false 1 128 = (0x7F800000, some 1) ∧ roundFin 2 ⟨0, true⟩ 0 false false 1 128 = (0x7F7FFFFF, some 3)
    ∧ roundFin 2 ⟨0, false⟩ 0 false false 1 (-150) = (0, some 2) ∧ roundFin 2 ⟨0, false⟩ 0 false false 1 (-149) = (1, none) :=
  ⟨⟨15, ⟨5, true⟩, 2 ^ 32 - 1, 1, by decide⟩, by decide +kernel⟩

/-- SumsAreExactAndRoundOnce: lists that meet each clause. -/
theorem witness_sums : (∃ ts : List Machine.Num, ts.all Machine.Num.isFinite = true ∧ (ts.map Machine.Num.rat).sum ≠ 0)
    ∧ (∃ ts : List Machine.Num, ts ≠ [] ∧ ts.all Machine.Num.isFinite = true ∧ (ts.map Machine.Num.rat).sum = 0)
    ∧ (∃ ts : List Machine.Num, Machine.Num.nan ∈ ts)
    ∧ (∃ ts : List Machine.Num, Machine.Num.nan ∉ ts ∧ Machine.Num.inf true ∈ ts ∧ Machine.Num.inf false ∈ ts)
    ∧ ∃ (ts : List Machine.Num) (s : Bool), Machine.Num.nan ∉ ts ∧ Machine.Num.inf s ∈ ts ∧ Machine.Num.inf (!s) ∉ ts :=
  ⟨⟨[.fin false 1 0], by simp [Machine.Num.isFinite, Machine.Num.rat, ratOf]⟩,
   ⟨[.fin false 1 0, .fin true 1 0], by simp [Machine.Num.isFinite, Machine.Num.rat, ratOf]⟩, ⟨[.nan], by decide⟩,
   ⟨[.inf true, .inf false], by decide⟩, ⟨[.inf true, .fin true 0 0], true, by decide⟩⟩

/-- Vector operands: elements of FP32 in 128 bits, d and a in one granule each. -/
def one (o : LongVec) : LongVec := { o with wb := 0, bs := 0 }
def scl : LongVec := { lv with wb := 5 }
def red : LongVec := one { lv with wd := 5 }
def dot : LongVec := { lv with wd := 5 }
def ilv : LongVec := { lv with ef := 0 }

/-- Instructions of a description complete on cleared tags, and trap on a tag of another format in granule 0. -/
def MeetsVector (l : List Instr) (o : LongVec) (least : Nat) (rv sv : Bool) (srcs : List (Nat × Nat)) (needs : List TagNeed) : Prop :=
  ∀ i ∈ l, Meets (fun _ => vecInfo i o least rv sv srcs) (fun _ t => t.tagsFit needs)
    ∧ ∀ p ∈ needs.head?, Meets (fun _ => vecInfo i o least rv sv srcs)
      (fun _ t => t.tagsFit [] ∧ t.slices.badTag p.1.1 p.1.2 p.2 = some 0)

theorem meets_vector {l : List Instr} {o : LongVec} {least : Nat} {rv sv : Bool} {srcs : List (Nat × Nat)} {needs : List TagNeed}
    (h : ∀ i ∈ l, issuesB (ctx (tile .xu) .xu) (tile .xu) (vecInfo i o least rv sv srcs) = true
      ∧ issuesB (ctx (tagged 0 3 (tile .xu)) .xu) (tagged 0 3 (tile .xu)) (vecInfo i o least rv sv srcs) = true)
    (h' : ∀ p ∈ needs, ∀ g ∈ granules p.1.1 p.1.2, (tile .xu).slices.tag g ∈ p.2)
    (h'' : ∀ p ∈ needs.head?, (tagged 0 3 (tile .xu)).slices.badTag p.1.1 p.1.2 p.2 = some 0) :
    MeetsVector l o least rv sv srcs needs := fun i hi =>
  ⟨meets_at .xu (tile .xu) (h i hi).1 h', fun p hp => meets_at .xu (tagged 0 3 (tile .xu)) (h i hi).2 ⟨fun _ hp => by simp at hp, h'' p hp⟩⟩

theorem witness_vector_arithmetic :
    let need (s : Nat × Nat) : List TagNeed := [(s, [0, 2])]
    MeetsVector [.vadd lv, .vsub lv, .vmul lv] lv 1 true true [lv.aSpan, lv.bSpan] (need lv.aSpan ++ need lv.bSpan)
    ∧ MeetsVector [.vfma lv, .vfms lv] lv 1 true true [lv.dSpan, lv.aSpan, lv.bSpan] (need lv.aSpan ++ need lv.bSpan ++ need lv.dSpan)
    ∧ MeetsVector [.vscl scl] scl 1 true true [scl.aSpan, scl.bSpan] (need scl.aSpan)
    ∧ MeetsVector [.vsum red] red 2 true true [red.aSpan] (need red.aSpan)
    ∧ MeetsVector [.vdot dot] dot 2 true true [dot.dSpan, dot.aSpan, dot.bSpan] (need dot.aSpan ++ need dot.bSpan ++ need dot.dSpan) :=
  ⟨meets_vector (by decide +kernel) (by decide +kernel) (by decide +kernel), meets_vector (by decide +kernel) (by decide +kernel) (by decide +kernel),
   meets_vector (by decide +kernel) (by decide +kernel) (by decide +kernel), meets_vector (by decide +kernel) (by decide +kernel) (by decide +kernel),
   meets_vector (by decide +kernel) (by decide +kernel) (by decide +kernel)⟩

def cvt : LongVec := one { lv with x := 2 }

theorem witness_vector_functions :
    MeetsVector [.vcvt (one lv)] (one lv) 1 true true [(one lv).aSpan] []
    ∧ MeetsVector [.vrcp (one lv), .vrsq (one lv), .vsqrt (one lv), .vexp2 (one lv), .vlog2 (one lv)] (one lv) 2 true true [(one lv).aSpan]
      [((one lv).aSpan, [0, 2])]
    ∧ decodeElem 2 0x7FC00000 = .nan ∧ (∃ e, decodeElem 2 0 = .fin false 0 e) ∧ (∃ e, decodeElem 2 0x80000000 = .fin true 0 e)
    ∧ decodeElem 2 0x7F800000 = .inf false ∧ decodeElem 2 0xFF800000 = .inf true
    ∧ (∃ m e, m ≠ 0 ∧ decodeElem 2 0x80000001 = .fin true m e) ∧ inI 0 = true ∧ inI 12 = true
    ∧ (∃ m e, m ≠ 0 ∧ decodeElem 2 0x40000000 = .fin false m e ∧ ratOf (m, e) = 2) ∧ transcElem .exp2 2 ⟨0, false⟩ 0 0x40000000 = (0x40800000, none)
    ∧ transcElem .log2 2 ⟨0, false⟩ 0 0x3E000000 = (0xC0400000, none) ∧ transcElem .sqrt 2 ⟨0, false⟩ 0 0x40000000 = (0x3FB504F3, none)
    ∧ transcElem .rcp 2 ⟨0, false⟩ 0 0x40400000 = (0x3EAAAAAB, none) ∧ transcElem .rsq 2 ⟨0, false⟩ 0 0x40000000 = (0x3F3504F3, none) :=
  ⟨meets_vector (by decide +kernel) (by decide +kernel) (by decide +kernel), meets_vector (by decide +kernel) (by decide +kernel) (by decide +kernel),
   by decide +kernel, ⟨_, rfl⟩, ⟨_, rfl⟩, by decide +kernel, by decide +kernel, ⟨1, _, by decide, rfl⟩, by decide, by decide,
   ⟨2 ^ 23, -22, by decide, by decide +kernel, by norm_num [ratOf]⟩, by decide +kernel⟩

def clampo : LongVec := { lv with wb := 7 }

theorem witness_vector_picks :
    let need (s : Nat × Nat) : List TagNeed := [(s, [0, 2])]
    MeetsVector [.vneg (one lv), .vabs (one lv)] (one lv) 1 false false [lv.aSpan] (need lv.aSpan)
    ∧ MeetsVector [.vmin lv, .vmax lv, .vcmp lv] lv 1 false false [lv.aSpan, lv.bSpan] (need lv.aSpan ++ need lv.bSpan)
    ∧ MeetsVector [.vclamp clampo] clampo 1 false false [clampo.aSpan, clampo.bSpan] (need clampo.aSpan ++ need clampo.bSpan)
    ∧ MeetsVector [.vsel lv] lv 1 false false [lv.dSpan, lv.aSpan, lv.bSpan] []
    ∧ MeetsVector [.vmaxr red, .vminr red] red 2 false false [red.aSpan] (need red.aSpan) ∧ 0 < red.aBits / red.w
    ∧ decodeElem 2 0x7F7FFFFF ≠ .nan ∧ inN 2 = true ∧ inI 2 = false ∧ (∃ s m e, decodeElem 2 1 = .fin s m e) ∧ decodeElem 2 0x7FC00000 = .nan
    ∧ (Machine.Num.fin true 1 0).rat < (Machine.Num.fin false 1 0).rat :=
  ⟨meets_vector (by decide +kernel) (by decide +kernel) (by decide +kernel), meets_vector (by decide +kernel) (by decide +kernel) (by decide +kernel),
   meets_vector (by decide +kernel) (by decide +kernel) (by decide +kernel), meets_vector (by decide +kernel) (by decide +kernel) (by decide +kernel),
   meets_vector (by decide +kernel) (by decide +kernel) (by decide +kernel), by decide +kernel, by decide +kernel, by decide, by decide,
   ⟨false, 1, _, rfl⟩, by decide +kernel, by simp [Machine.Num.rat, ratOf]⟩

def zipo : LongVec := { lv with wa := 7, wb := 7 }

theorem witness_vector_lanes : MeetsVector [.viadd ilv, .visub ilv, .vimul ilv] ilv 1 false true [ilv.aSpan, ilv.bSpan] []
    ∧ MeetsVector [.vshl ilv, .vshr ilv, .vand ilv, .vor ilv, .vxor ilv] ilv 1 false false [ilv.aSpan, ilv.bSpan] []
    ∧ MeetsVector [.vshuf scl] scl 1 false false [scl.aSpan, scl.bSpan] []
    ∧ MeetsVector [.vbcast (one { lv with wa := 5 })] (one { lv with wa := 5 }) 1 false false [(one { lv with wa := 5 }).aSpan] []
    ∧ MeetsVector [.vslide lv] lv 1 false false [lv.aSpan, lv.bSpan] [] ∧ MeetsVector [.vzip zipo] zipo 1 false false [zipo.aSpan, zipo.bSpan] []
    ∧ MeetsVector [.vunzip (one lv)] (one lv) 1 false false [(one lv).aSpan] [] :=
  ⟨meets_vector (by decide +kernel) (by decide +kernel) (by decide +kernel), meets_vector (by decide +kernel) (by decide +kernel) (by decide +kernel),
   meets_vector (by decide +kernel) (by decide +kernel) (by decide +kernel), meets_vector (by decide +kernel) (by decide +kernel) (by decide +kernel),
   meets_vector (by decide +kernel) (by decide +kernel) (by decide +kernel), meets_vector (by decide +kernel) (by decide +kernel) (by decide +kernel),
   meets_vector (by decide +kernel) (by decide +kernel) (by decide +kernel)⟩

/-- Ductus operands: b at slice 200 holds a cursor, or a header with a cursor above it; a header stands at slice 8. -/
def dqs : LongVec := { lv with ef := 9, wd := 15, wb := 5, ds := 200, bs := 50 }
def dqh : LongVec := one { lv with ef := 9, wd := 10, wa := 15, x := 1 }
def dqq : LongVec := { lv with ef := 9, wd := 5, wa := 13, wb := 11, x := 2, bs := 50 }
def ddqo : LongVec := { lv with wa := 5, wb := 11, bs := 50 }
def dsc : LongVec := { ilv with wd := 10, wa := 10, wb := 5 }
def ductus (cur hdr : Nat) : Tile := slices [(200, 64, hdr + cur * 2 ^ 192), (8, 48, hdr)] (tile .xu)
def surveyed (cur : Nat) : Tile := slices [(200, 8, cur)] (tile .xu)

theorem witness_ductus :
    (let n (_ : Tile) := vecInfo (.dqntSurvey dqs) dqs 1 true false [dqs.dSpan, dqs.aSpan, dqs.bSpan]
     Meets n (fun _ t => curBad (dqs.bVal t % 2 ^ 32) 2 = false ∧ t.tagsFit [(dqs.aSpan, [0, 1])])
     ∧ Meets n (fun _ t => curBad (dqs.bVal t % 2 ^ 32) 2 = true))
    ∧ Meets (fun _ => vecInfo (.dqntHead dqh) dqh 1 true false [dqh.aSpan]) always
    ∧ (let n (_ : Tile) := vecInfo (.dqntQ dqq) dqq 2 true false [dqq.aSpan, dqq.bSpan]
       Meets n (fun _ t => curBad (dqq.bVal t / 2 ^ 192) 8 = false ∧ hdrBad (dqq.bVal t % 2 ^ 192) (some 9) = false ∧ t.tagsFit [(dqq.aSpan, [0, 1])])
       ∧ Meets n (fun _ t => curBad (dqq.bVal t / 2 ^ 192) 8 = true)
       ∧ Meets n (fun _ t => curBad (dqq.bVal t / 2 ^ 192) 8 = false ∧ hdrBad (dqq.bVal t % 2 ^ 192) (some 9) = true ∧ t.tagsFit [(dqq.aSpan, [0, 1])]))
    ∧ (let n (_ : Tile) := vecInfo (.ddq ddqo) ddqo 2 true false [ddqo.aSpan, ddqo.bSpan]
       let fits (t : Tile) : Prop := curBad (ddqo.bVal t / 2 ^ 192) 4 = false ∧ hdrBad (ddqo.bVal t % 2 ^ 192) none = false
         ∧ ddqo.aBits = 4 * elemBits (hdrFmt (ddqo.bVal t % 2 ^ 192)) ∧ t.tagsFit [(ddqo.aSpan, [0, 16 + hdrFmt (ddqo.bVal t % 2 ^ 192)])]
       Meets n (fun _ t => fits t ∧ hdrScale (ddqo.bVal t % 2 ^ 192) = 0xFFF) ∧ Meets n (fun _ t => fits t ∧ hdrScale (ddqo.bVal t % 2 ^ 192) ≠ 0xFFF)
       ∧ Meets n (fun _ t => curBad (ddqo.bVal t / 2 ^ 192) 4 = true)
       ∧ Meets n (fun _ t => curBad (ddqo.bVal t / 2 ^ 192) 4 = false ∧ inB (hdrFmt (ddqo.bVal t % 2 ^ 192)) = true
         ∧ ddqo.aBits ≠ 4 * elemBits (hdrFmt (ddqo.bVal t % 2 ^ 192)))
       ∧ ∀ x ∈ [true, false], Meets n (fun _ t => curBad (ddqo.bVal t / 2 ^ 192) 4 = false ∧ hdrBad (ddqo.bVal t % 2 ^ 192) none = true
         ∧ inB (hdrFmt (ddqo.bVal t % 2 ^ 192)) = x ∧ (x = true → ddqo.aBits = 4 * elemBits (hdrFmt (ddqo.bVal t % 2 ^ 192))
           ∧ t.tagsFit [(ddqo.aSpan, [0, 16 + hdrFmt (ddqo.bVal t % 2 ^ 192)])])))
    ∧ (let n (_ : Tile) := vecInfo (.dscale dsc) dsc 1 false false [dsc.aSpan, dsc.bSpan]
       Meets n (fun _ t => hdrBad (dsc.aVal t) none = false) ∧ Meets n (fun _ t => hdrBad (dsc.aVal t) none = true)) := by
  refine ⟨⟨meets_at .xu (surveyed 0x1E1F) ?_ ?_, meets_at .xu (surveyed 0x1F1F) ?_ ?_⟩, meets_at .xu (tile .xu) ?_ trivial,
    ⟨meets_at .xu (ductus 0x181F 0x9FFE) ?_ ?_, meets_at .xu (ductus 0x191F 0x9FFE) ?_ ?_, meets_at .xu (ductus 0x181F 0x8FFE) ?_ ?_⟩,
    ⟨meets_at .xu (ductus 0x1C1F 0x5FFF) ?_ ?_, meets_at .xu (ductus 0x1C1F 0x5FFE) ?_ ?_, meets_at .xu (ductus 0x1D1F 0x5FFE) ?_ ?_,
      meets_at .xu (ductus 0x1C1F 0x9FFE) ?_ ?_, fun x hx => meets_at .xu (ductus 0x1C1F (if x then 0x205FFE else 0x4FFE)) ?_ ?_⟩,
    meets_at .xu (ductus 0 0x5FFE) ?_ ?_, meets_at .xu (ductus 0 0x4FFE) ?_ ?_⟩
  all_goals first | decide +kernel | (simp only [Tile.tagsFit]; decide +kernel) | (fin_cases hx <;> (try simp only [Tile.tagsFit]) <;> decide +kernel)

/-- DuctusTransposes: the last row and column of the block formats, and the last generator number. -/
theorem witness_transposes : (∀ f ∈ [5, 6, 7, 8, 9, 11, 12, 13, 14, 15], inB f = true) ∧ (∃ gen : Nat, gen < 16 ∧ gen = 15)
    ∧ ∃ i j w : Nat, 0 < w ∧ i < 32 ∧ j < 32 ∧ i = 31 ∧ j = 0 := ⟨by decide, ⟨15, by decide⟩, 31, 0, 1, by decide⟩

/-- A tile with MXCTL at a value. -/
def matrix (ctl : BitVec 12) : Tile :=
  let t := tile .mx
  { t with csr := { t.csr with mxctl := ctl } }

def wld (sp : BitVec 12) (wb : BitVec 10) (n : BitVec 8) : Mat := { ma with fa := 0, sp := sp, wb := wb, n := n }
def acco (fa : BitVec 4) (sp : BitVec 12) : Mat := { ma with fa := fa, fb := 0, n := 0, sp := sp, acc := 2 }

theorem witness_matrix :
    Meets (mmaInfo ma) (fun c t => mxHold arrayFree true (accSet true 0) (mmaExtents ma) c t = none ∧ mmaCause ma t = none
      ∧ 0 + 1 * aChunkBytes 1 (t.csr.mxctl.getLsbD 0) ≤ 0xF8000 ∧ ∀ r ∈ (locate t 1 0 0 1).1, r.start + r.size ≤ 0x40000)
    ∧ (∃ t : Tile, issuesB (ctx t .mx) t (mmaInfo ma t) = true ∧ t.mx.mma.isSome)
    ∧ (let info (o : Mat) (_ : Tile) := mxInfo (Instr.wld o).cause o 1 false false true
       let free (o : Mat) (c : Ctx) (t : Tile) : Prop := mxHold wportFree true []
         (fun _ => [(256 * o.sp.toNat, 256 * o.n.toNat), (0x100000 + 256 * o.wb.toNat, 256 * o.n.toNat)]) c t = none
       Meets (info (wld 0xF7F 0x3FF 1)) (fun c t => free (wld 0xF7F 0x3FF 1) c t ∧ t.badWord 0xF7F00 256 = none)
       ∧ Meets (info (wld 0xF80 0 1)) (free (wld 0xF80 0 1)) ∧ Meets (info (wld 0 0x3FF 2)) (free (wld 0 0x3FF 2)))
    ∧ Meets (fun _ => mxInfo (Instr.accz (acco 0 0)).cause (acco 0 0) 1 false false false)
      (fun c t => mxHold aportFree false [2] (fun _ => []) c t = none)
    ∧ (let info (o : Mat) (t : Tile) := mxInfo (Instr.accrd o).cause o 2 true (!t.csr.mxctl.getLsbD 1) true
       let ok (k n : Nat) (fa : BitVec 4) (blk : Bool) (c : Ctx) (t : Tile) : Prop :=
         mxHold aportFree true (accSet (k == 2) 2) (fun t => [(0, accrdBytes fa.toNat t)]) c t = none
         ∧ t.csr.mxctl.toNat / 16 % 4 = k ∧ t.csr.mxctl.getLsbD 1 = blk ∧ n ≤ 0xF8000
       Meets (info (acco 0 0)) (ok 2 (512 * 64) 0 false) ∧ Meets (info (acco 2 0)) (ok 1 (512 * 32) 2 false)
       ∧ Meets (info (acco 6 0)) (ok 1 (4 * blockBytes 6) 6 true))
    ∧ (let info (o : Mat) (_ : Tile) := mxInfo (Instr.accwr o).cause o 2 true true true
       Meets (info (acco 0 0)) (fun c t => mxHold aportFree true (accSet true 2) (fun _ => [(0, 512 * 64)]) c t = none ∧ t.badWord 0 (512 * 64) = none)
       ∧ Meets (info (acco 0 0xFFF)) (fun c t => mxHold aportFree true (accSet true 2) (fun _ => [(0xFFF00, 512 * 64)]) c t = none))
    ∧ Meets (fun _ => mxInfo (Instr.accadd (acco 0 0)).cause (acco 0 0) 2 true true false)
      (fun c t => mxHold aportFree true (accSet true 2 ++ accSet true 0) (fun _ => []) c t = none)
    ∧ Meets (fun _ => mxInfo (Instr.accsc { acco 0 0 with n := 128 }).cause { acco 0 0 with n := 128 } 1 true true false)
      (fun c t => mxHold aportFree true (accSet true 2) (fun _ => []) c t = none) := by
  refine ⟨meets_at .mx (matrix 0) ?_ ?_, ⟨{ matrix 0 with mx := { (matrix 0).mx with mma := some default } }, ?_⟩,
    ⟨meets_at .mx (matrix 0) ?_ ?_, meets_at .mx (matrix 0) ?_ ?_, meets_at .mx (matrix 0) ?_ ?_⟩, meets_at .mx (matrix 0) ?_ ?_,
    ⟨meets_at .mx (matrix 0x20) ?_ ?_, meets_at .mx (matrix 0x10) ?_ ?_, meets_at .mx (matrix 0x12) ?_ ?_⟩,
    ⟨meets_at .mx (matrix 0x20) ?_ ?_, meets_at .mx (matrix 0x20) ?_ ?_⟩, meets_at .mx (matrix 0x20) ?_ ?_, meets_at .mx (matrix 0x20) ?_ ?_⟩
  all_goals decide +kernel

/-- A running MMA of n chunks, of which one has started, in cycle 8. -/
def running (n debit : Nat) (fault : Option (Nat × Nat × Nat)) : Mma :=
  { line := 0, lane := 1, w0 := 0, w1 := 0, issue := 8, cls := 0, debit := debit, acc := 3, fa := 6, fb := 6, n := n, sp := 0, wb := 0
    ablk := false, path := 0, sat := false, t := 8, recs := [⟨0, 512, 0⟩], noSize := none, chunks := [⟨0, 0, 0, fault⟩], lastStart := 8 }

def multiplying (m : Mma) (blocked : Bool) : Tile :=
  let t := tile .mx
  { t with mx := { t.mx with mma := some m }, blocked := blocked }

/-- A finished MMA on the last FP64 pair, and a tile on which the pair's last word is poisoned. -/
def pairMma : Mma := { running 1 0 none with acc := 2, path := 3, fa := 1, fb := 1 }

def marked : Tile :=
  let t := multiplying pairMma false
  { t with stores := { t.stores with poison := [(0x140000 + 0xFFF8) / 8] } }

theorem witness_matrix_runs :
    (∀ b ∈ [(0, false), (256, false), (256, true)], ∃ (s : State) (f : Folio) (t : Tile) (c : Ctx) (m : Mma), s.at? = some (f, t, c)
      ∧ t.mx.mma = some m ∧ m.chunks.length < m.n ∧ m.lastStart + m.t ≤ c.cyc
      ∧ (if b.2 then m.debit ≠ 0 ∧ t.blocked = true else m.debit = 0 ∨ t.blocked = false ∧ m.debit ≤ t.avail))
    ∧ (∀ x ∈ [none, some (74, 0, 0)], ∃ (s : State) (f : Folio) (t : Tile) (c : Ctx) (m : Mma), s.at? = some (f, t, c) ∧ t.mx.mma = some m
      ∧ m.n ≤ m.chunks.length ∧ m.lastStart + m.t ≤ c.cyc ∧ m.acc < 4 ∧ m.chunks.findSome? Chunk.fault = x ∧ m.path ≠ 3
      ∧ t.accBad false m.acc = none)
    ∧ (∃ (s : State) (f : Folio) (t : Tile) (c : Ctx) (m : Mma), s.at? = some (f, t, c) ∧ t.mx.mma = some m
      ∧ m.n ≤ m.chunks.length ∧ m.lastStart + m.t ≤ c.cyc ∧ m.acc < 3 ∧ m.chunks.findSome? Chunk.fault = none ∧ m.path = 3
      ∧ t.accBad true m.acc = none ∧ ∀ p ∈ t.mx.pend, p.land ≠ c.cyc)
    ∧ ∃ (s : State) (f : Folio) (t : Tile) (c : Ctx) (m : Mma), s.at? = some (f, t, c) ∧ t.mx.mma = some m
      ∧ m.n ≤ m.chunks.length ∧ m.lastStart + m.t ≤ c.cyc ∧ m.acc < 4 ∧ m.chunks.findSome? Chunk.fault = none
      ∧ t.accBad (m.path == 3) m.acc = some 0xFFF8 :=
  ⟨fun b hb => ⟨_, _, multiplying (running 2 b.1 none) b.2, _, running 2 b.1 none, at_lab 1 1 [] _ .mx, by fin_cases hb <;> decide +kernel⟩,
   fun x hx => ⟨_, _, multiplying (running 1 0 x) false, _, running 1 0 x, at_lab 1 1 [] _ .mx, by fin_cases hx <;> decide +kernel⟩,
   ⟨_, _, multiplying pairMma false, _, pairMma, at_lab 1 1 [] _ .mx, by decide +kernel⟩,
   ⟨_, _, marked, _, pairMma, at_lab 1 1 [] _ .mx, by decide +kernel⟩⟩

/-- The last instruction of each queue's table, and a nonzero field at its greatest value, among the well-formed ones. -/
theorem witness_encoded : ([(Instr.addi 127 127 (-1024), Queue.sq), (.addLong big3, .ap), (.recv ⟨3, 15, 13, 15, 0xFFFF, 3968⟩, .net),
    (.inkf { cx with ocl := 15, rmask := 0xFFFF, dsc := 0 }, .ce), (.accsc { acco 0 0 with n := 128 }, .mx), (.spill lms, .ap), (.vdot dot, .xu)] :
    List (Instr × Queue)).all (fun p => p.1.inQueue p.2 && p.1.cause == none) = true := by decide +kernel

/-- A state whose next slot issues the head of a queue, which is e. -/
def heading (q : Queue) (e : Entry) (hand : Bool) : State :=
  let t := tile q
  let t := { t with ctl := t.ctl.setEntries q [e, noEntry] }
  { lab 1 1 [if hand then inHand t else t] q with agenda := [.issue ⟨0, 0, q, 0⟩], cursor := ⟨0, 0, .sq, 0⟩ }

theorem witness_step : (∃ (s : State) (cu : Cursor) (r : List Slot) (i : Instr), s.agenda = .act cu i :: r)
    ∧ (∀ x ∈ [(Queue.sq, { noEntry with marker := some ⟨3, 0⟩ }, false), (Queue.ce, noEntry, true), (Queue.sq, { noEntry with w0 := 0x3E000000 }, false),
        (Queue.ce, { noEntry with w0 := 0xC0142400, w1 := 0x00010000 }, true),
        (Queue.sq, { noEntry with w0 := 0x0000C082 }, false), (Queue.sq, { noEntry with w0 := 0xBE000000 }, false)],
      (heading x.1 x.2.1 x.2.2).agenda = [.issue ⟨0, 0, x.1, 0⟩]
        ∧ (({ heading x.1 x.2.1 x.2.2 with agenda := [], cursor := ⟨0, 0, x.1, 0⟩ } : State).at?.any fun y =>
          decide (y.2.1.ctl.entries x.1 ≠ [] ∧ y.2.2.e = x.2.1 ∧ y.2.2.hand = x.2.2 ∧ y.2.2.pfx = none)) = true)
    ∧ decode .sq 0x3E000000 0 = .error 3 ∧ decode .sq 0x0000C082 0 = .ok (.add 3 1 2)
    ∧ decode .ce 0xC0142400 0x00010000 = .ok (.cpyh { ecl := 1, ocl := 0, f := true, dsc := 1024, rmask := 1, mod := 0 })
    ∧ decode .sq 0xBE000000 0 = .ok (.pfx ⟨none, none, none, none, false⟩)
    ∧ (∃ (s s' : State) (t' : Tile), exec (.add 3 1 2) s = .next s' ∧ s'.folios.head?.bind (fun (g : Folio) => g.tiles[0]?) = some t') :=
  ⟨⟨{ State.reset with agenda := [.act ⟨0, 0, .sq, 0⟩ .hostSlotAccess] }, _, _, .hostSlotAccess, rfl⟩, by decide +kernel, by decide, by decide, by decide, by decide,
   heading .sq { noEntry with w0 := 0x0000C082 } false, _, _, rfl, rfl⟩

/-- A folio in which breakpoints are armed. -/
def armed : State := { lab 1 1 [tile .sq] .sq with folios := [{ folio 1 1 [tile .sq] with dbg := { (folio 1 1 []).dbg with brkArmed := true } }] }

theorem witness_trap_instructions : Meets (fun _ => seqInfo none [] [] [] true) always
    ∧ Meets (fun _ => seqInfo none [] [] [] true) (fun c _ => c.brk = false)
    ∧ Meets (fun _ => seqInfo none [] [] [] true) (fun c _ => c.brk = true ∧ c.hand = false)
    ∧ Meets (fun _ => seqInfo none [] [] [] true) (fun c _ => c.hand = false) :=
  ⟨meets_at .sq (tile .sq) (by decide +kernel) trivial, meets_at .sq (inHand (tile .sq)) (by decide +kernel) (by decide +kernel),
   ⟨armed, _, tile .sq, _, issues_of rfl (by decide +kernel), by decide +kernel⟩, meets_at .sq (tile .sq) (by decide +kernel) (by decide +kernel)⟩

theorem witness_trap_state : (∃ l : List Raise, l ≠ [] ∧ (∀ x ∈ l, x.cause < 128) ∧ ∃ x ∈ l, x.inst = true)
    ∧ ∃ (t : Tile) (c : Control) (q : Queue) (e : Entry) (rest : List Entry), t.shadow = some c ∧ t.trap.skip = true
      ∧ t.trap.tpos.getLsbD 7 = true ∧ t.trap.posQueue = some q ∧ c.entries q = e :: rest ∧ e.line = t.trap.tpos.toNat / 4096 % 4096
      ∧ e.lane = t.trap.tpos.toNat / 256 % 8 ∧ major e.w0 ≠ 0x5F :=
  ⟨⟨[⟨91, true, 0, 1, 2, 0, 0, 0, 0⟩, ⟨91, true, 0, 1, 1, 0, 0, 0, 0⟩], by decide⟩,
   { inHand (tile .sq) with trap := { (inHand (tile .sq)).trap with skip := true, tpos := 0x181 } }, (tile .sq).ctl, .sq, noEntry, [],
   rfl, by decide +kernel⟩

end Sys2Proof.Tests
end

