-- ==== Sys2Proof/Tests/WitnessHub.lean ====
section
/-! SUPPORT. Witnesses for the statements about folios, launches and the hub: a concrete state that meets each hypothesis. -/

namespace Sys2Proof.Tests
open Sys2Proof.Machine Sys2Proof.Witness

set_option Elab.async false

/-- The machine in service, with channels 0 to 2 leased to job 7 of function 0, and then with its page tables: they map its second gigabyte to
host memory and the next two to channels 1 and 2. -/
def leasedTo (a b c : Chan) : Vector Chan 256 := vset (vset (vset State.reset.dram.chans 2 c) 1 b) 0 a
def leasedChan (i : Nat) : Chan := { Chan.reset with v := true, job := 7, index := i }
def fitted (b c : Chan) : State :=
  let s := lab 1 1 [tile .sq] .sq
  { s with dev := { s.dev with devstate := 5, hdmOn := true, hdmCtl := 2, hdmSize := 2 ^ 39 }
           funcs := vset s.funcs 0 { s.func 0 with ptroot := 1 }
           dram := { s.dram with chans := leasedTo (leasedChan 0) b c } }
def served (b c : Chan) : State := (fitted b c).seal 0 0 tableLine false
def machine : State := served (leasedChan 1) (leasedChan 2)

theorem fitted_zero (b c : Chan) : vget (leasedTo (leasedChan 0) b c) 0 = leasedChan 0 := vget_vset_eq _ _ _ (by decide)

theorem served_tables (b c : Chan) {s : State} (hd : s.dram = (served b c).dram) (hf : s.funcs = (served b c).funcs) : Tables (fitted b c) s := by
  have f0 : s.func 0 = (fitted b c).func 0 := by simp only [State.func, hf]; rfl
  refine ⟨?_, ?_, ?_, hd, congrArg FuncRegs.keys f0, ?_⟩
  · simp only [State.lineKeys, fitted, show chanNum 0 = 0 from rfl, fitted_zero]
    rfl
  · rw [f0]; rfl
  · simp only [State.leased, hd, served, State.seal, State.onChan, fitted, show chanNum 0 = 0 from rfl]
    rw [vget_vset_eq _ _ _ (by decide), fitted_zero]
    rfl
  · simp only [fitted, fitted_zero]; rfl

theorem machine_tables {s : State} (hd : s.dram = machine.dram) (hf : s.funcs = machine.funcs) : Tables (fitted (leasedChan 1) (leasedChan 2)) s :=
  served_tables _ _ hd hf

/-- Bytes of a memory. -/
def mem (l : List (Nat × Nat)) : Memory := (l.filter fun x => x.2 != 0).map fun x => (x.1, BitVec.ofNat 8 x.2)

/-- The machine with queue 0 granted, whose head is a record of a type and a job; a launch record's image of some tiles and channels, whose
one section plans nothing, begins with the byte m. -/
def granted (ty job m w h chans : Nat) : State :=
  { machine with
    hostMem := mem [(0x1000, ty), (0x1002, 255), (0x1003, 255), (0x100A, 2), (0x100B, 0x40), (0x1010, 80), (0x1014, job), (0x1026, 1), (0x1029, 1), (0x102D, 4),
      (0x1033, 0x40), (0x20000, m), (0x20001, 0x53), (0x20002, 0x5A), (0x20003, 0x4B), (0x20004, 1), (0x20008, w), (0x20009, h), (0x2000C, chans),
      (0x2000E, 1), (0x20010, 64), (0x20040, 9), (0x20048, 80)]
    queues := [{ LaunchQueue.zero 0 0 with base := 0x1000, log := 4, tail := 1, en := true, cbase := 0x3000 }]
    arb := { State.reset.arb with granted := some 0 } }

/-- The image's bytes as a number. -/
def imageOf (m w h chans : Nat) : Nat :=
  0x4B5A5300 + m + 2 ^ 32 + w * 2 ^ 64 + h * 2 ^ 72 + chans * 2 ^ 96 + 2 ^ 112 + 64 * 2 ^ 128 + 9 * 2 ^ 512 + 80 * 2 ^ 576

/-- What every clause about a record assumes of queue 0. -/
def Granted (s : State) (ty : Nat) : Prop :=
  s.arb.granted = some 0 ∧ s.eligible 0 = true ∧ (s.queue 0).inOrder (s.queue 0).head.toNat
  ∧ s.malformed 0 (s.record 0 (s.queue 0).head.toNat) = false ∧ recType (s.record 0 (s.queue 0).head.toNat) = ty

theorem witness_malformed : let s := granted 0 7 0 0 0 0
    s.arb.granted = some 0 ∧ s.eligible 0 = true ∧ (s.queue 0).inOrder (s.queue 0).head.toNat
    ∧ s.malformed 0 (s.record 0 (s.queue 0).head.toNat) = true := by
  simp only [LaunchQueue.inOrder]
  decide +kernel

/-- The image is read, and its checks 1 to 12 give k. -/
def Read (s : State) (k : Nat) (m : Image) : Prop :=
  let v := s.record 0 0
  ∃ b : Nat, (s.countMembers 0 v).readVirt 0 (field v 8 8) (field v 16 4) (field v 16 4 / 65536 + 2) = (some b, s.countMembers 0 v)
    ∧ m = Image.ofBytes b (field v 16 4) ∧ m.check (BitVec.ofNat 32 (field v 32 4)) (field v 38 2) (field v 40 4) (field v 44 2) = k

theorem read_of {s : State} {k : Nat} (b : Nat) (h : s.dram = machine.dram ∧ s.funcs = machine.funcs)
    (hd : recDomain (s.record 0 0) = 0 ∧ field (s.record 0 0) 8 8 = 0x40020000 ∧ field (s.record 0 0) 16 4 = 80)
    (hb : s.hostMem.readN (s.hostAddr 0 (2 ^ 47 + 0x20000)) 80 = b)
    (hk : (Image.ofBytes b 80).check (BitVec.ofNat 32 (field (s.record 0 0) 32 4)) (field (s.record 0 0) 38 2)
      (field (s.record 0 0) 40 4) (field (s.record 0 0) 44 2) = k) : Read s k (Image.ofBytes b 80) := by
  obtain ⟨d, a, n⟩ := hd
  refine ⟨b, ?_, by rw [n], hk⟩
  simp only [State.countMembers, d, if_true, a, n]
  subst hb
  exact (machine_tables h.1 h.2).readVirt 0x40020000 80 1 (by decide) (by decide) (by decide) (by decide)

theorem witness_launch_check : Granted (granted 1 7 0x48 1 1 0) 1 ∧ ∃ m : Image, Read (granted 1 7 0x48 1 1 0) 1 m :=
  ⟨by simp only [Granted, LaunchQueue.inOrder]; decide +kernel, _,
   read_of (imageOf 0x48 1 1 0) ⟨rfl, rfl⟩ (by decide +kernel) (by decide +kernel) (by decide +kernel)⟩

theorem witness_launch_unbound : Granted (granted 1 8 0x49 1 1 1) 1 ∧ ∃ m : Image, Read (granted 1 8 0x49 1 1 1) 0 m
    ∧ (granted 1 8 0x49 1 1 1).binding 0 (recJob ((granted 1 8 0x49 1 1 1).record 0 0)) m.chans = none :=
  ⟨by simp only [Granted, LaunchQueue.inOrder]; decide +kernel, _,
   read_of (imageOf 0x49 1 1 1) ⟨rfl, rfl⟩ (by decide +kernel) (by decide +kernel) (by decide +kernel), by decide +kernel⟩

/-- The same, of a machine with a defective tile in each row. -/
def holed : State :=
  { granted 1 7 0x49 72 1 0 with dev := { machine.dev with defects := (List.range 32).map fun y => (71, y) } }

theorem witness_launch_unplaceable : Granted holed 1 ∧ ∃ m : Image, Read holed 0 m
    ∧ holed.binding 0 (recJob (holed.record 0 0)) m.chans = some [] ∧ search m.w m.h m.seam [] holed.unusable = none :=
  ⟨by simp only [Granted, LaunchQueue.inOrder]; decide +kernel, _,
   read_of (imageOf 0x49 72 1 0) ⟨rfl, rfl⟩ (by decide +kernel) (by decide +kernel) (by decide +kernel), by decide +kernel⟩

/-- The same, of a machine with an energy budget. -/
def budgeted (n : Nat) : State := { granted 1 7 0x49 2 1 0 with dev := { machine.dev with ebud := BitVec.ofNat 32 n } }

theorem witness_launch_starts : ∀ n ∈ [0, 0xFFFFFFFF], Granted (budgeted n) 1 ∧ ∃ m : Image, Read (budgeted n) 0 m
    ∧ (budgeted n).binding 0 (recJob ((budgeted n).record 0 0)) m.chans = some [] ∧ search m.w m.h m.seam [] (budgeted n).unusable ≠ none
    ∧ (((budgeted n).fit 0 [⟨m.w, m.h, m.seam, 1, []⟩]).map List.length = if n = 0 then none else some 1) :=
  fun n hn => ⟨by fin_cases hn <;> (simp only [Granted, LaunchQueue.inOrder]; decide +kernel), _,
   read_of (imageOf 0x49 2 1 0) ⟨rfl, rfl⟩ (by fin_cases hn <;> decide +kernel)
     (by fin_cases hn <;> decide +kernel) (by fin_cases hn <;> decide +kernel), by fin_cases hn <;> decide +kernel⟩

theorem witness_preempt : ∀ j ∈ [0, 7], let s := granted 2 j 0 0 0 0
    Granted s 2 ∧ (∀ g ∈ s.folios, g.trapped = false)
    ∧ ((∃ g ∈ s.folios, g.place.func = 0 ∧ g.launch.job = recJob (s.record 0 0) ∧ g.held = false) ↔ j = 0) := fun j hj => by
  refine ⟨?_, by fin_cases hj <;> decide +kernel, by fin_cases hj <;> decide +kernel⟩
  fin_cases hj <;> (simp only [Granted, LaunchQueue.inOrder]; decide +kernel)

/-- The machine's folio held in place. -/
def heldIn (j : BitVec 32) (s : State) : State :=
  { s with folios := [{ folio 1 1 [tile .sq] with held := true, launch := { launchOf 0 0 0 with job := j } }] }

theorem witness_resume : (let s := heldIn 7 (granted 3 7 0 0 0 0)
      Granted s 3 ∧ s.heldOf 0 (recJob (s.record 0 0)) ≠ [] ∧ s.evictedOf 0 (recJob (s.record 0 0)) = [] ∧ (s.folios.map fun g => g.place.idx).Nodup
      ∧ ∀ g ∈ s.heldOf 0 (recJob (s.record 0 0)), (s.shapeOf 0 g).isSome = true)
    ∧ (let s := heldIn 9 (granted 3 9 0 0 0 0)
      Granted s 3 ∧ (∃ g ∈ s.heldOf 0 (recJob (s.record 0 0)), s.shapeOf 0 g = none) ∧ s.evictedOf 0 (recJob (s.record 0 0)) = []) := by
  refine ⟨?_, ?_⟩ <;> (simp only [Granted, LaunchQueue.inOrder]; decide +kernel)

/-- A folio of n tiles that was evicted, its region's header with a digest, and the machine with that region in host memory and a resume
record that names the region or the memory behind it. -/
def gone (n : Nat) : Folio :=
  { folio 1 1 (List.replicate n Tile.cleared) with
    place := { (folio 1 1 []).place with chans := [] }, launch := { launchOf 0 0 0 with job := 7, save := 0x40100000 } }
def header (f : Folio) (digest : Nat) : Nat :=
  saveMagic + f.cycle * 2 ^ 128 + 2 ^ 192 + 2 ^ 200 + f.recordBytes.length * 2 ^ 256 + digest * 2 ^ (8 * 4032)
def savedAt (n digest off : Nat) (ev : List Saved) : State :=
  let s := granted 3 7 0 0 0 0
  { s with folios := [], saved := ev
           hostMem := ((s.hostMem.writeN 0x1030 8 (0x40100000 + off)).writeN 0x100000 4096 (header (gone n) digest)).writeN 0x101000
             (gone n).recordBytes.length (ofBytes (gone n).recordBytes) }

/-- The same once Signet knows the record's job. -/
def knows (s : State) : State := s.knowJob 0 (recJob (s.record 0 0)) none 0

theorem readSave_of {b s : State} (t : Tables b s) (va h n v : Nat) (check : Bool) (ha : bitsAt va 43 11 = 0 ∧ bitsAt va 30 13 = 1 ∧ va % 2 ^ 30 + 4096 ≤ 2 ^ 30)
    (hb : bitsAt (va + 4096) 43 11 = 0 ∧ bitsAt (va + 4096) 30 13 = 1 ∧ (va + 4096) % 2 ^ 30 + n ≤ 2 ^ 30)
    (hh : s.hostMem.readN (s.hostAddr 0 (2 ^ 47 + va % 2 ^ 30)) 4096 = h) (hm : field h 0 8 = saveMagic) (hn : field h 32 8 = n ∧ n ≠ 0)
    (hv : s.hostMem.readN (s.hostAddr 0 (2 ^ 47 + (va + 4096) % 2 ^ 30)) n = v) :
    s.readSave 0 va check = (if check = true ∧ shake256 v n ≠ field h 4032 64 then .unsound else folioOfRegion h (toBytes n v), s) := by
  unfold State.readSave
  simp only [t.readVirt va 4096 1 ha.1 ha.2.1 (by decide) ha.2.2, hh, hm, hn.1, t.readVirt (va + 4096) n (n / 65536 + 1) hb.1 hb.2.1 hn.2 hb.2.2, hv]
  simp only [ne_eq, not_true_eq_false, if_false]
  split <;> rfl

theorem folioOfRegion_of (h : Nat) (l : List Byte) (f : Folio) (e : l = f.recordBytes) (w : field h 24 1 = 1 ∧ field h 25 1 = 1 ∧ field h 26 1 = 0)
    (n : field h 28 2 = 0) (k : field h 16 8 = f.cycle) :
    folioOfRegion h l = .sound (f.record.folio ⟨0, 1, 1, 0, 0, 0, 0, 0, []⟩ f.cycle) := by
  have g := codecFolioRec.law f.record []
  rw [List.append_nil] at g
  subst e
  unfold folioOfRegion Folio.recordBytes
  simp only [g, w, n, k]
  rfl

theorem rewalk_idle (s : State) (p : Place) (l : List Window) (h : ∀ w ∈ l, w.v = false) : s.rewalkAll p l = (some l, s) := by
  induction l with
  | nil => rfl
  | cons w r ih =>
    simp [State.rewalkAll, State.rewalk, h w (by simp), ih fun x hx => h x (by simp [hx])]

theorem rewalk_tiles_idle (s : State) (p : Place) (l : List Tile) (h : ∀ t ∈ l, ∀ w ∈ t.wins.toList, w.v = false) :
    s.rewalkTiles p l = (some (l.map fun t => { t with wins := Vector.ofFn fun i => t.wins.toList.getD i.val default }), s) := by
  induction l with
  | nil => rfl
  | cons t r ih =>
    simp [State.rewalkTiles, rewalk_idle s p _ (h t (by simp)), ih fun x hx => h x (by simp [hx])]

/-- Where the evicted folios are entered again, and what the region gives back. -/
def again : Place := ⟨0, 1, 1, 0, 0, 0, 0, 0, []⟩
def back (n : Nat) : Folio := (gone n).record.folio again (gone n).cycle

theorem witness_resume_evicted : Granted (savedAt 1 0 0 [⟨0, 7, 0x40100000⟩]) 3
    ∧ ∃ (x : Saved) (g : Folio) (z : Shape) (p : Place) (l : List Tile), let s := savedAt 1 0 0 [⟨0, 7, 0x40100000⟩]
      s.heldOf 0 (recJob (s.record 0 0)) = [] ∧ s.evictedOf 0 (recJob (s.record 0 0)) = [x]
        ∧ (knows s).readSave 0 x.save.toNat false = (.sound g, knows s) ∧ s.shapeOf 0 g = some z ∧ s.fit 0 [z] = some [p]
        ∧ (knows s).rewalkTiles p g.tiles = (some l, knows s) := by
  have t : Tables (fitted (leasedChan 1) (leasedChan 2)) (knows (savedAt 1 0 0 [⟨0, 7, 0x40100000⟩])) := machine_tables rfl rfl
  refine ⟨by simp only [Granted, LaunchQueue.inOrder]; decide +kernel, ⟨0, 7, 0x40100000⟩, back 1, _, again, _, by decide +kernel, by decide +kernel,
    ?_, rfl, by decide +kernel, rewalk_tiles_idle _ again _ (by decide +kernel)⟩
  show State.readSave _ 0 0x40100000 false = _
  rw [readSave_of t 0x40100000 (header (gone 1) 0) (gone 1).recordBytes.length (ofBytes (gone 1).recordBytes) false (by decide +kernel)
    (by decide +kernel) (by decide +kernel) (by decide +kernel) (by decide +kernel) (by decide +kernel), if_neg (by simp)]
  have r := folioOfRegion_of (header (gone 1) 0) (toBytes (gone 1).recordBytes.length (ofBytes (gone 1).recordBytes)) (gone 1)
    (by decide +kernel) (by decide +kernel) (by decide +kernel) (by decide +kernel)
  rw [r, back, again]

/-- The SHAKE256 digest of the records of a folio without tiles, which the witness below checks. -/
def digest : Nat :=
  0x6d58ebaee7e3b5ad1bf65beb5e94c14734c484536f1b7c05f66dc054959610ee15113f0653ad660d11b386429c8a47e97aee43e7cb2283af7939f4fc62a00978

/-- The record asks for what stands at va, with nothing held or evicted. -/
def Names (s : State) (va : Nat) : Prop :=
  Granted s 3 ∧ s.heldOf 0 (recJob (s.record 0 0)) = [] ∧ s.evictedOf 0 (recJob (s.record 0 0)) = [] ∧ field (s.record 0 0) 48 8 = va

theorem saved_tables (d o : Nat) : Tables (fitted (leasedChan 1) (leasedChan 2)) (knows (savedAt 0 d o [])) := machine_tables rfl rfl

theorem witness_resume_unsound : let s := savedAt 0 0 0 []
    Names s 0x40100000 ∧ (knows s).readSave 0 0x40100000 true = (.unsound, knows s) := by
  refine ⟨by simp only [Names, Granted, LaunchQueue.inOrder]; decide +kernel, ?_⟩
  rw [readSave_of (saved_tables 0 0) 0x40100000 (header (gone 0) 0) (gone 0).recordBytes.length (ofBytes (gone 0).recordBytes) true
    (by decide +kernel) (by decide +kernel) (by decide +kernel) (by decide +kernel) (by decide +kernel) (by decide +kernel), if_pos (by decide +kernel)]

theorem witness_resume_absent : let s := savedAt 0 0 4096 []
    Names s 0x40101000 ∧ (knows s).readSave 0 0x40101000 true = (.absent, knows s) := by
  refine ⟨by simp only [Names, Granted, LaunchQueue.inOrder]; decide +kernel, ?_⟩
  have h := (saved_tables 0 4096).readVirt 0x40101000 4096 1 (by decide) (by decide) (by decide) (by decide)
  unfold State.readSave
  simp only [h]
  rw [if_pos (by decide +kernel)]

theorem witness_resume_named : Names (savedAt 0 digest 0 []) 0x40100000
    ∧ ∃ (g : Folio) (z : Shape) (p : Place) (l : List Tile), let s := savedAt 0 digest 0 []
      (knows s).readSave 0 0x40100000 true = (.sound g, knows s) ∧ s.shapeOf 0 { g with launch := { g.launch with job := 7 } } = some z
        ∧ s.fit 0 [z] = some [p] ∧ (knows s).rewalkTiles p g.tiles = (some l, knows s) := by
  refine ⟨by simp only [Names, Granted, LaunchQueue.inOrder]; decide +kernel, back 0, _, again, _, ?_, rfl, by decide +kernel,
    rewalk_tiles_idle _ again _ (by decide +kernel)⟩
  rw [readSave_of (saved_tables digest 0) 0x40100000 (header (gone 0) digest) (gone 0).recordBytes.length (ofBytes (gone 0).recordBytes) true
    (by decide +kernel) (by decide +kernel) (by decide +kernel) (by decide +kernel) (by decide +kernel) (by decide +kernel), if_neg (by decide +kernel)]
  have r := folioOfRegion_of (header (gone 0) digest) (toBytes (gone 0).recordBytes.length (ofBytes (gone 0).recordBytes)) (gone 0)
    (by decide +kernel) (by decide +kernel) (by decide +kernel) (by decide +kernel)
  rw [r, back, again]

theorem witness_queue_registers : machine.ready = true ∧ ((granted 0 0 0 0 0 0).queue 0).en = true ∧ (machine.queue 16383).en = false
    ∧ (machine.queue 16383).owner ≠ (63#6).toNat := by decide +kernel

theorem witness_lease : machine.chanBusy 0 = true ∧ (∀ ch ∈ [1, 255], machine.chanBusy ch = false)
    ∧ (let s := served { Chan.reset with ret := true } Chan.reset
       s.chanBusy 1 = false ∧ (vget s.dram.chans 1).ret = true) := by decide +kernel

/-- A tile that probes the address va for slot 31, with or without its entry in the tile's slice of the TLB. -/
def probing (l : List Tlb) : Tile :=
  { tile .sq with probe := some (31, 2 ^ 54 - 1, 4088, 16), tlb := l
                  pend := [⟨17, 16, 2, false, .slices 4088 8 0 0, [], 0⟩, ⟨17, 16, 2, false, .nothing, [], 0⟩] }

theorem witness_probe : (∀ l ∈ [[], [⟨2 ^ 38 - 1, 2 ^ 31, 0, true, false⟩]], ∃ (s : State) (f : Folio) (t : Tile) (c : Ctx), s.at? = some (f, t, c)
    ∧ t.probe = some (31, 2 ^ 54 - 1, 4088, 16) ∧ s.awaitsHost f.place.idx s.cursor.tile = false ∧ s.migHolds f.place.func (2 ^ 54 - 1) = false
    ∧ (∃ h : Tile, f.tiles[homeTile f.place (2 ^ 54 - 1)]? = some h ∧ h.tlb.find? (fun e => e.vpn == bitsAt (2 ^ 54 - 1) 16 38) = l.head?)
    ∧ s.walk f.place.func (2 ^ 54 - 1) = (.absent, s) ∧ s.faults = [] ∧ ringOn (s.func f.place.func).frbase = false)
    ∧ ∃ (s : State) (f : Folio) (t : Tile) (c : Ctx), s.at? = some (f, t, c) ∧ t.probe = some (31, 2 ^ 54 - 1, 4088, 16)
      ∧ s.awaitsHost f.place.idx s.cursor.tile = false ∧ s.migHolds f.place.func (2 ^ 54 - 1) = true :=
  ⟨fun l hl => ⟨_, _, probing l, _, at_lab 1 1 [] _ .sq, rfl, rfl, by fin_cases hl <;> decide +kernel, by fin_cases hl <;> exact ⟨_, rfl, by decide +kernel⟩,
     if_pos (by fin_cases hl <;> decide +kernel), by fin_cases hl <;> decide +kernel⟩,
   { lab 1 1 [probing []] .sq with mig := ⟨2 ^ 57 + 2 ^ 38 - 1, 0, 0, 1, 0, 0, 2 ^ 24⟩ }, _, _, _, rfl, rfl, rfl, by decide +kernel⟩

theorem witness_fack_tlbinv : (let s := { lab 1 1 [probing []] .sq with faults := [⟨0, 5, 0, 0, false⟩] }
      ∃ (f : Folio) (t : Tile), s.faults.find? (fun y => y.func == 0 && y.seq == (0x100000005#64).toNat % 2 ^ 32 && !y.again) = some ⟨0, 5, 0, 0, false⟩
        ∧ s.folio? 0 = some f ∧ f.tiles[0]? = some t ∧ t.probe.isSome = true ∧ (0x100000005#64).getLsbD 32 = true)
    ∧ ∃ (f : Folio) (t : Tile), (lab 1 1 [probing [⟨5, 2 ^ 31, 0, true, false⟩]] .sq).folios[0]? = some f ∧ f.place.func = 0 ∧ f.tiles[0]? = some t ∧ t.tlb ≠ [] :=
  ⟨⟨_, _, by decide +kernel, rfl, rfl, rfl, by decide⟩, _, _, rfl, rfl, rfl, by decide +kernel⟩

/-- The machine with a migration of its second gigabyte, of a size code, to channel 2. -/
def migrating (m : Mig) (c : Chan) : State := { served c (leasedChan 2) with mig := m }
def migOf (size state src : Nat) : Mig := ⟨BitVec.ofNat 64 (size * 2 ^ 56 + 0x4000), 0x100000000, 0, state, src, 8, 2 ^ 24⟩

theorem fst_ex {α β : Type} {a : α × β} {x : α} (h : a.1 = x) : ∃ y : β, a = (x, y) := ⟨a.2, Prod.ext h rfl⟩

theorem witness_migration : (∀ z ∈ [1, 2], ∃ (g : Page) (leaf : Nat), let s := migrating (migOf z 0 0) (leasedChan 1)
      s.mig.state ≠ 1 ∧ s.walk s.mig.func s.mig.vaddr = (.mapped g leaf, s) ∧ (s.migRefused g = true ↔ z = 1))
    ∧ (let s := migrating (migOf 2 1 (2 ^ 47)) (leasedChan 1)
      s.mig.state = 1 ∧ s.leased (chanNum s.mig.dest) s.mig.func = true ∧ s.unguarded s.mig.dest ∧ s.mig.line + 1 < s.mig.lines
        ∧ ∃ v : Nat, s.migRead (s.mig.srcPa + 64 * s.mig.line) = (some (v, false), s))
    ∧ (let s := migrating (migOf 2 1 (2 ^ 31)) { leasedChan 1 with bad := [0] }
      s.mig.state = 1 ∧ ∃ s₁ : State, s.migRead (s.mig.srcPa + 64 * s.mig.line) = (none, s₁)) := by
  have w (s : State) (hf : s.mig.func = 0) (hv : s.mig.vaddr = 0x40000000) (t : Tables (fitted (leasedChan 1) (leasedChan 2)) s) :
      s.walk s.mig.func s.mig.vaddr = (.mapped ⟨2 ^ 47, 2, true, true⟩ 8, s) := by
    rw [hf, hv]
    exact t.walkHost 0x40000000 (by decide) (by decide)
  refine ⟨fun z hz => ⟨⟨2 ^ 47, 2, true, true⟩, 8, ?_, ?_, ?_⟩, ⟨?_, ?_, ?_, ?_, ?_⟩, rfl, fst_ex ?_⟩
  · fin_cases hz <;> decide +kernel
  · have t := served_tables (leasedChan 1) (leasedChan 2) (s := migrating (migOf z 0 0) (leasedChan 1)) rfl rfl
    have f : (migrating (migOf z 0 0) (leasedChan 1)).mig.func = 0 := by fin_cases hz <;> decide +kernel
    have v : (migrating (migOf z 0 0) (leasedChan 1)).mig.vaddr = 0x40000000 := by fin_cases hz <;> decide +kernel
    exact w _ f v t
  · fin_cases hz <;> decide +kernel
  · rfl
  · decide +kernel
  · simp only [State.unguarded]; decide +kernel
  · decide +kernel
  · exact ⟨_, if_pos (by decide +kernel)⟩
  · decide +kernel

/-- The machine with channel 255 in some state. -/
def lastChan (c : Chan) : State := { machine with dram := { machine.dram with chans := vset machine.dram.chans 255 c } }

theorem sealed_sweeps (s : State) (pa ver v : Nat) (poison : Bool) (h : ∀ j : Nat, (vget s.dram.chans j).clr = false) (ch : Nat) :
    (vget (s.seal pa ver v poison).dram.chans ch).clr = false := by
  exact vget_each (p := fun c : Chan => c.clr = false) (i := chanNum pa)
    (a := (vget s.dram.chans (chanNum pa)).wrote (chanLine pa) ver
      (lineTag (s.lineKeys pa ver).mac pa ver (v % 2 ^ 512 ^^^ lineStream (s.lineKeys pa ver).enc pa ver)) poison) h (by simp [Chan.wrote, Chan.settleClr, h (chanNum pa)]) ch

theorem machine_sweeps (ch : Nat) : (vget machine.dram.chans ch).clr = false := by
  have r : ∀ j : Nat, (fun c : Chan => c.clr = false) (vget State.reset.dram.chans j) := vget_replicate (p := fun c : Chan => c.clr = false) rfl rfl
  refine sealed_sweeps (fitted (leasedChan 1) (leasedChan 2)) 0 0 tableLine false (fun j => ?_) ch
  unfold fitted leasedTo
  refine vget_each (p := fun c : Chan => c.clr = false) ?_ rfl j
  refine vget_each (p := fun c : Chan => c.clr = false) ?_ rfl
  exact vget_each (p := fun c : Chan => c.clr = false) r rfl

theorem witness_sweep : ∀ l ∈ [[], [0x17FFFFF]], l.Nodup ∧ (∀ x ∈ l, x < 0x1800000) ∧ let s := lastChan { Chan.reset with clr := true, clearFrom := 0x17FFFFF, cleared := l }
    (∀ x < 255, s.sweeps x = false) ∧ s.sweeps 255 = true ∧ (vget s.dram.chans 255).clearFrom < 0x1800000
    ∧ ((vget s.dram.chans 255).clearFrom ∈ (vget s.dram.chans 255).cleared ↔ l ≠ []) := fun l hl =>
  ⟨by fin_cases hl <;> decide, by fin_cases hl <;> decide, fun x hx => by
    have h : (vget (vset machine.dram.chans 255 { Chan.reset with clr := true, clearFrom := 0x17FFFFF, cleared := l }) x).clr = false := by
      rw [vget_vset_ne _ _ _ _ (Nat.ne_of_lt hx)]
      exact machine_sweeps x
    simp only [State.sweeps, lastChan, h, Bool.false_and], by fin_cases hl <;> decide +kernel⟩

/-- The machine with channel 255 in some state and its last line sealed under function 0's first key. -/
def lastLine (c : Chan) : State := (lastChan c).seal (255 * 2 ^ 31 + 64 * 0x17FFFFF) 0 5 false

theorem last_sound (c : Chan) (h : c.func = 0) : (lastLine c).soundLine (255 * 2 ^ 31 + 64 * 0x17FFFFF) := by
  refine (seal_line (lastChan c) _ 0 5 false).2 ?_ rfl
  have z : chanNum (255 * 2 ^ 31 + 64 * 0x17FFFFF) = 255 := by decide
  have e : vget (lastChan c).dram.chans 255 = c := vget_vset_eq _ _ _ (by decide)
  simp only [State.lineKeys, z, e, h]
  have f : (lastChan c).func 0 = (fitted (leasedChan 1) (leasedChan 2)).func 0 := by
    simp only [State.func, lastChan, machine, served, State.seal_funcs]
  rw [f]
  decide +kernel

/-- The key registers of a function whose rotation to version 1 is armed. -/
def rotating (s : State) : State := { s with funcs := vset s.funcs 0 { s.func 0 with keynext := 1, keyarmed := true } }

theorem witness_scrub : (let s := lastLine { Chan.reset with scrubAt := 0x17FFFFF }
      (vget s.dram.chans 255).ret = false ∧ (vget s.dram.chans 255).scrubAt = 0x17FFFFF ∧ s.soundLine (255 * 2 ^ 31 + 64 * 0x17FFFFF)
        ∧ (vget s.dram.chans 255).rot ≠ 2)
    ∧ (let s := rotating (lastLine { Chan.reset with scrubAt := 0x17FFFFF, rot := 2 })
      (vget s.dram.chans 255).ret = false ∧ s.soundLine (255 * 2 ^ 31 + 64 * 0x17FFFFF) ∧ (vget s.dram.chans 255).rot = 2
        ∧ (vget s.dram.chans 255).version 0x17FFFFF ≠ (s.func 0).keynext ∧ (vget (s.func 0).keys (s.func 0).keynext).loaded = true
        ∧ s.unguarded (255 * 2 ^ 31 + 64 * 0x17FFFFF))
    ∧ (let s := lastChan { Chan.reset with scrubAt := 0x17FFFFF, bad := [0x17FFFFF] }
      let c := vget s.dram.chans 255
      c.ret = false ∧ c.pendingClear c.scrubAt = false ∧ c.scrubAt ∈ c.bad) := by
  refine ⟨⟨by decide +kernel, by decide +kernel, last_sound _ rfl, by decide +kernel⟩, ⟨by decide +kernel, ?_, by decide +kernel, by decide +kernel, by decide +kernel,
    by simp only [State.unguarded]; decide +kernel⟩, by decide +kernel⟩
  have h := last_sound { Chan.reset with scrubAt := 0x17FFFFF, rot := 2 } rfl
  have f : (vget (lastLine { Chan.reset with scrubAt := 0x17FFFFF, rot := 2 }).dram.chans (chanNum (255 * 2 ^ 31 + 64 * 0x17FFFFF))).func = 0 := by decide +kernel
  generalize lastLine { Chan.reset with scrubAt := 0x17FFFFF, rot := 2 } = s at h f ⊢
  have d : (rotating s).dram = s.dram := rfl
  have k : (rotating s).func 0 = { s.func 0 with keynext := 1, keyarmed := true } := vget_vset_eq _ _ _ (by decide)
  have l (v) : (rotating s).lineKeys (255 * 2 ^ 31 + 64 * 0x17FFFFF) v = s.lineKeys (255 * 2 ^ 31 + 64 * 0x17FFFFF) v := by
    simp only [State.lineKeys, d, f, k]
  have g : (rotating s).tagFails (255 * 2 ^ 31 + 64 * 0x17FFFFF) = s.tagFails (255 * 2 ^ 31 + 64 * 0x17FFFFF) := by
    simp only [State.tagFails, State.cipher, l, d]
  simp only [State.soundLine, State.lineFails, g, d] at h ⊢
  exact h

theorem witness_rotation : (let r := machine.func 0
      (0x70#64).getLsbD 6 = true ∧ r.keybusy = false ∧ (0x70#64).toNat / 16 % 4 ≠ r.keycur ∧ (vget r.keys ((0x70#64).toNat / 16 % 4)).loaded = true)
    ∧ (0x30#64).getLsbD 6 = false
    ∧ ∀ g < 64, { machine with funcs := vset machine.funcs 63 { FuncRegs.reset 63 with keyarmed := true } }.rotationOver g = decide (g = 63) := by
  decide +kernel

theorem witness_map_write : (mapAddr (0xF00000000000 + 31 * 2 ^ 29 + 71 * 2 ^ 22 + 0xFFFFF) = some (71, 31, 0xFFFFF) ∧ mapStore 0xFFFFF 1 = 1
      ∧ (71, 31) ∉ machine.dev.defects ∧ machine.holder 71 31 = none)
    ∧ mapAddr (0xF00000000000 + 0x19FFF8) = some (0, 0, 0x19FFF8) ∧ mapStore 0x19FFF8 8 = 1 ∧ (machine.holder 0 0).map (fun x => x.2) = some 0 := by
  decide +kernel

theorem witness_profcnt : ∃ f : Folio, machine.folio? 0 = some f ∧ f.place.func = 0 := ⟨_, rfl, rfl⟩

/-- The machine with an insecure or a secure stream n. -/
def streaming (n : Nat) (secure : Bool) : State := { machine with trust := { machine.trust with ide := [(n, secure)] } }

theorem witness_streams : ∀ n ∈ [0, 64], machine.insecure n = false ∧ (streaming n true).insecure n = false ∧ (streaming n false).insecure n = true := by
  decide +kernel

theorem witness_cxl : machine.hdm (2 ^ 39 - 1) = some (2 ^ 39 - 1) ∧ machine.cxlReaches (2 ^ 39 - 1) = false ∧ machine.hdm 0x3F = some 0x3F
    ∧ machine.cxlReaches 0x3F = true ∧ machine.soundLine 0 ∧ machine.unguarded 0 ∧ machine.insecure 64 = false :=
  ⟨by decide +kernel, by decide +kernel, by decide +kernel, by decide +kernel, (seal_line (fitted (leasedChan 1) (leasedChan 2)) 0 0 tableLine false).2
    (machine_tables (s := machine) rfl rfl).loaded rfl, by simp only [State.unguarded]; decide +kernel, by decide +kernel⟩

/-- The machine with a host read of folio 0 under way, for a line of its tile, in whose landing buffer n parts of contributions wait. -/
def awaiting (n : Nat) : State :=
  let t := tile .ce
  let t := { t with ce := { t.ce with lines := [{ (default : CeLine) with outside := some 7 }], parts := List.replicate n (0, 0, 0, 0) } }
  { machine with folios := [folio 1 1 [t]], hostReads := [⟨7, 0, 0, 64, some 5, none, none⟩] }

theorem witness_completions : (∀ g : Folio, (awaiting 511).folio? 0 = some g → (awaiting 511).fullFor g (toRead 7) = false)
    ∧ (awaiting 511).insecure 0 = false ∧ (∃ g : Folio, (awaiting 512).folio? 0 = some g
      ∧ (awaiting 512).insecure g.place.func = false ∧ (awaiting 512).fullFor g (toRead 7) = true) :=
  ⟨fun g hg => by cases hg; decide +kernel, by decide +kernel, _, rfl, by decide +kernel⟩

/-- The machine with a link to package 0 and one to package 5. -/
def linked : State :=
  { machine with links := vset (vset machine.links 17 { Link.reset with state := 2, v := true }) 16 { Link.reset with state := 2, v := true, peer := 5 } }

theorem witness_arrivals : let s := linked
    ∃ f : Folio, s.folio? (farFolio 511) = some f ∧ (∀ x ∈ s.far, x.id ≠ 511) ∧ s.hostReads = [] ∧ s.fullFor f (toMember 511) = false
      ∧ s.linksTo f (farPkg 511) = [17] ∧ s.linksTo f (farPkg (6 * 2 ^ 28)) = []
      ∧ (vget s.links 17).state = 2 ∧ (vget s.links 17).v = true ∧ (vget s.links 17).func = f.place.func ∧ (vget s.links 17).job = f.launch.job
      ∧ (vget s.links 17).peer.toNat = farPkg 511 ∧ (vget s.links 16).peer.toNat ≠ farPkg 511 ∧ (vget s.links 0).state ≠ 2 :=
  ⟨_, by rfl, by decide +kernel⟩

/-- The machine with a service command and retired or defective tiles. -/
def serviced (cmd : BitVec 64) (defects : List (Nat × Nat)) : State := { machine with dev := { machine.dev with svccmd := cmd, svcstat := 1, defects := defects } }

theorem witness_service : (let s := serviced (71 * 256 + 31) []
      s.dev.svcstat = 1 ∧ (∀ r ∈ s.footprints, r.has (71, 31) = false) ∧ (71, 31) ∉ s.dev.defects)
    ∧ (∃ r ∈ (serviced 0 []).footprints, r.has (0, 0) = true) ∧ (0, 0) ∈ (serviced 0 [(0, 0)]).dev.defects
    ∧ (vget (serviced 255 []).dram.chans 255).v = false ∧ (serviced 17 []).linkHeld 17 = false ∧ (vget (serviced 17 []).links 17).state ≠ 3 := by
  decide +kernel

/-- The folio of a tile that issues HALT and is done, or still has an entry. -/
theorem witness_tile_halts : ∀ n ∈ [0, 1], ∃ (s : State) (f : Folio) (t : Tile) (c : Ctx), s.at? = some (f, t, c) ∧ t.halting = true ∧ t.halted = false
    ∧ ((∀ q : Queue, t.ctl.entries q = []) ↔ n = 0) ∧ t.ctl.fetch.cross = [] ∧ t.pend = [] ∧ t.ap.accs = [] ∧ t.ap.ratoms = [] ∧ t.ap.sleep = none
    ∧ t.mx.mma = none ∧ t.mx.pend = [] ∧ t.net.recvs = [] ∧ t.ceBusy c.cyc = false := fun n hn =>
  ⟨_, _, { tile .sq with halting := true, ctl := (tile .sq).ctl.setEntries .sq (List.replicate n noEntry) }, _, at_lab 1 1 [] _ .sq, rfl, rfl, by
    fin_cases hn
    · exact ⟨fun _ => rfl, fun _ q => by cases q <;> rfl⟩
    · exact ⟨fun h => absurd (h .sq) (by decide +kernel), fun h => absurd h (by decide)⟩, by fin_cases hn <;> decide +kernel⟩

theorem witness_folio_ends : ∃ (s : State) (f : Folio), s.folio? s.cursor.folio = some f ∧ f.allHalted = false ∧ f.lastPen + 2 ^ 22 ≤ f.cycle
    ∧ f.launch.timeout = 64 ∧ 65536 * f.launch.timeout ≤ f.cycle + 1 :=
  ⟨{ lab 1 1 [tile .sq] .sq with folios := [{ folio 1 1 [tile .sq] with cycle := 2 ^ 22, launch := { launchOf 0 0 0 with timeout := 64 } }] }, _, rfl,
   by decide +kernel⟩

/-- A tile that trapped with a cause, in a machine whose event ring and policy are set or not. -/
def trapped (cause : Nat) : Tile :=
  { tile .sq with raises := [raiseEnd cause 0 0], trap := { (tile .sq).trap with tcause := BitVec.ofNat 64 (cause + 2 ^ 63), act := true } }
def posting (cause : Nat) (ring : Dword) (ctl : BitVec 2) : State :=
  let s := lab 1 1 [trapped cause] .sq
  { s with funcs := vset s.funcs 0 { s.func 0 with evbase := ring, evctl := ctl } }

theorem witness_trap_post : ∀ x ∈ [(16, 0x40004#64, 0#2), (94, 0x40004#64, 0#2), (16, 0#64, 1#2), (94, 0x40004#64, 1#2)],
    let s := posting x.1 x.2.1 x.2.2
    ∃ (f : Folio) (i : Nat) (t : Tile), s.folio? s.cursor.folio = some f ∧ f.trapping = [(i, t)] ∧ (∀ u ∈ f.tiles, u.note = none) ∧ f.place.func < 64
      ∧ t.trap.cause = x.1 ∧ (ringOn (s.func f.place.func).evbase = true ↔ x.2.1 ≠ 0) ∧ ((s.func f.place.func).evctl.getLsbD 0 = true ↔ x.2.2 = 1)
      ∧ (causeFatal t.trap.cause = true ↔ x.1 = 94) := fun x hx =>
  ⟨_, 0, trapped x.1, rfl, by fin_cases hx <;> rfl, by simp [folio, folioAt, trapped, tile, Tile.cleared], by simp [folio, folioAt], by
    fin_cases hx <;> decide +kernel⟩

theorem witness_release : (∃ (s : State) (r : Release) (d : Done), s.releasing = [r] ∧ r.done = some (0, 0, d) ∧ r.stops = []
      ∧ (s.queue 0).epoch = d.epoch ∧ (s.queue 0).inOrder 0 ∧ 0 < (s.queue 0).head.toNat ∧ s.hostReads = [])
    ∧ ∀ b ∈ [true, false], ∃ (s : State) (r : Release) (x : Stop), s.releasing = [r] ∧ r.done = none ∧ r.stops = [x] ∧ x.acted = b
      ∧ (∀ g ∈ s.folios, ∀ y ∈ g.stops, x.same y = false) ∧ (s.queue x.queue).epoch = x.epoch ∧ (s.queue x.queue).inOrder x.recNo
      ∧ x.recNo < (s.queue x.queue).head.toNat ∧ s.hostReads = [] :=
  ⟨⟨{ granted 0 0 0 0 0 0 with
      releasing := [⟨(folio 1 1 []).place, 0, 9, some (0, 0, ⟨0, 0, 0, 0, 9, true, 0, 0⟩), [], 0⟩]
      queues := [{ LaunchQueue.zero 0 0 with base := 0x1000, log := 16, tail := 1, head := 1, en := true, cbase := 0x3000 }] }, _, _, rfl, rfl, rfl, by
    simp only [LaunchQueue.inOrder]; decide +kernel⟩, fun b hb =>
   ⟨{ granted 0 0 0 0 0 0 with
      folios := [{ folio 1 1 [tile .sq] with stops := [⟨false, 0, 1, true, 0, 0, false⟩] }]
      releasing := [⟨(folio 1 1 []).place, 0, 9, none, [⟨true, 0, 0, true, 5, 0, b⟩], 0⟩]
      queues := [{ LaunchQueue.zero 0 0 with base := 0x1000, log := 16, tail := 2, head := 2, en := true, cbase := 0x3000 }] }, _, _, rfl, rfl, rfl, rfl, by
    simp only [LaunchQueue.inOrder]; fin_cases hb <;> decide +kernel⟩⟩

/-- A folio bound to a channel, saved to the gigabyte of host memory. -/
def bound : Folio := { gone 1 with place := { (gone 1).place with chans := [(0, 1)] } }

theorem witness_save_region : machine.walk bound.place.func 0x40100000 = (.mapped ⟨2 ^ 47, 2, true, true⟩ 8, machine)
    ∧ 0x40100000 % pageBytes 2 + bound.region.2 ≤ pageBytes 2 ∧ bound.recordBytes.length < 2 ^ 64 ∧ bound.cycle < 2 ^ 64 ∧ bound.place.w < 256
    ∧ bound.place.h < 256 ∧ bound.place.seam < 256 ∧ bound.place.chans.length ≤ 256 ∧ bound.place.chans.map Prod.fst = List.range bound.place.chans.length
    ∧ ∀ x ∈ bound.place.chans, x.2 < 2 ^ 16 :=
  ⟨(machine_tables rfl rfl).walkHost 0x40100000 (by decide) (by decide), by decide +kernel, by decide +kernel, by decide +kernel, by decide +kernel,
   by decide +kernel, by decide +kernel, by decide +kernel, by decide +kernel, by decide +kernel⟩

/-- The machine's folio in another state. -/
def debugged (h : Folio → Folio) : State := { machine with folios := [h (folio 1 1 [tile .sq])] }

theorem witness_debug : (∃ f : Folio, machine.folio? machine.cursor.folio = some f ∧ f.freeze.debug = false)
    ∧ (∃ f : Folio, (debugged fun f => { f with freeze := { f.freeze with debug := true } }).folio? 0 = some f ∧ f.freeze.debug = true)
    ∧ (∃ f : Folio, (debugged fun f => { f with cap := { f.cap with trbase := 8, trsel := 1 } }).folio? 0 = some f ∧ f.cap.tracing = true ∧ f.cap.left = none)
    ∧ (machine.folios.map fun f => f.place.idx).Nodup :=
  ⟨⟨_, rfl, rfl⟩, ⟨_, rfl, rfl⟩, ⟨_, rfl, by decide +kernel⟩, by decide +kernel⟩

/-- Function 0 with a checkpoint of job 7, whose list names one shard of 64 bytes, from channel 1 to channel 2. -/
def checkpointing (state : Nat) (go : Option (BitVec 32)) (list : Dword) (k : Option Ckpt) (folios : List Folio) : State :=
  let s := machine
  { s with folios := folios
           funcs := vset s.funcs 0 { s.func 0 with ckstate := state, ckgo := go, cklist := list, ckpt := k, ckcmd := 7, cksave := 0x40100000 }
           hostMem := mem [(0x8000, 1), (0x8023, 0x80), (0x8028, 64), (0x8033, 0xC0)] }
def ckOf (shards : List (Nat × Nat × Nat)) (segs : List Seg) : Ckpt := ⟨7, shards, 0, 0, 0, 0, [], segs, 0, 0, [], 0, []⟩
def stoppedFolio : Folio :=
  { folio 1 1 [tile .sq] with launch := { launchOf 0 0 0 with job := 7 }, ckStop := true, freeze := { (folio 1 1 []).freeze with preempt := true } }

theorem checking_tables {s : State} (hd : s.dram = machine.dram) (hr : (s.func 0).ptroot = 1) (hk : (s.func 0).keys = (machine.func 0).keys) :
    Tables (fitted (leasedChan 1) (leasedChan 2)) s := by
  have m := machine_tables (s := machine) rfl rfl
  exact ⟨m.loaded, hr, by simpa only [State.leased, hd] using m.own, hd.trans m.dram, hk.trans m.keys, m.lessee⟩

theorem runs_of {b s : State} (t : Tables b s) (h1 : s.leased 1 0 = true) (h2 : s.leased 2 0 = true) :
    s.allRuns 0 [(0x80000000, 64, 0xC0000000)] 0 = (some [⟨0, 0, 2 ^ 31, 2 ^ 32, 64⟩], s) := by
  have a : s.walk 0 0x80000000 = (.mapped ⟨2147483648, 2, true, false⟩ 16, s) := t.walkChan 1 0x80000000 (by decide) (by decide) (by decide)
  have c : s.walk 0 0xC0000000 = (.mapped ⟨4294967296, 2, true, false⟩ 24, s) := t.walkChan 2 0xC0000000 (by decide) (by decide) (by decide)
  have r : s.runs 0 0 0x80000000 0xC0000000 64 0 (3 + 1) = (some [⟨0, 0, 2 ^ 31, 2 ^ 32, 64⟩], s) := by
    simp [State.runs, a, c, show chanNum 2147483648 = 1 by decide, show chanNum 4294967296 = 2 by decide, h1, h2, pageBytes]
  simp only [State.allRuns, show 64 / 2 ^ 15 + 4 = 3 + 1 by decide, r, List.append_nil]

/-- Function 0 once the start of its checkpoint is taken up. -/
def starting : State :=
  (checkpointing 0 (some 7) 0x8000 none [stoppedFolio]).onFunc 0 fun r => { r with ckgo := none }

theorem witness_checkpoint_start : (checkpointing 0 (some 7) 0 none []).shardList 0 = none
    ∧ ((checkpointing 0 (some 7) 0 none []).func 0).ckgo = some 7
    ∧ (let s := checkpointing 0 (some 7) 0x8000 none [stoppedFolio]
       s.shardList 0 = some (0, 0, [(0x80000000, 64, 0xC0000000)]) ∧ (s.func 0).ckgo = some 7
        ∧ ∀ h ∈ s.folios, ∀ p ∈ h.place.chans, p.2 ≠ chanNum (2 ^ 32))
    ∧ starting.allRuns 0 [(0x80000000, 64, 0xC0000000)] 0 = (some [⟨0, 0, 2 ^ 31, 2 ^ 32, 64⟩], starting) :=
  ⟨by decide +kernel, by decide +kernel, by decide +kernel, runs_of (checking_tables rfl (by decide +kernel) (by decide +kernel)) (by decide +kernel)
    (by decide +kernel)⟩

theorem witness_checkpoint_snapshot : let s := checkpointing 1 none 0 (some (ckOf [] [])) [stoppedFolio]
    (s.func 0).ckpt = some (ckOf [] []) ∧ (s.func 0).ckstate = 1 ∧ s.ckFolios 0 7 = [stoppedFolio] ∧ stoppedFolio.atPoint = true
      ∧ stoppedFolio.stops = [] ∧ stoppedFolio.held = false ∧ (∀ h ∈ s.folios, h.place.idx = stoppedFolio.place.idx → h = stoppedFolio)
      ∧ (s.func 0).cksave.toNat / 64 * 64 = 0x40100000
      ∧ (s.saveFolio stoppedFolio 0x40100000).funcs = s.funcs ∧ (s.saveFolio stoppedFolio 0x40100000).folios = s.folios := by
  have t : Tables _ (checkpointing 1 none 0 (some (ckOf [] [])) [stoppedFolio]) := checking_tables rfl (by decide +kernel) (by decide +kernel)
  have w := t.writeVirt 0x40100000 stoppedFolio.region.2 stoppedFolio.region.1 (stoppedFolio.region.2 / 65536 + 1) (by decide) (by decide)
    (by decide +kernel) (by decide +kernel)
  refine ⟨by decide +kernel, by decide +kernel, by simp [State.ckFolios, State.jobFolios, checkpointing, stoppedFolio, folio, folioAt], by decide +kernel,
    by decide +kernel, by decide +kernel, fun h hh _ => by simpa [checkpointing] using hh, by decide +kernel, ?_, ?_⟩
  · exact (congrArg State.funcs w : _)
  · exact (congrArg State.folios w : _)

theorem shard_sound (s : State) (h : (vget s.dram.chans 1).func = 0) (k : (vget (s.func 0).keys 0).loaded = true) :
    (s.seal (2 ^ 31) 0 5 false).soundLine (2 ^ 31) := by
  refine (seal_line s _ 0 5 false).2 ?_ rfl
  simp only [State.lineKeys, show chanNum (2 ^ 31) = 1 by decide, h]
  exact k

theorem witness_checkpoint_runs : (∀ n ∈ [1, 2], ((checkpointing n none 0 none []).func 0).ckstate = n)
    ∧ (let k := ckOf [(0, 0, 0), (0x80000000, 64, 0xC0000000)] []
       let s := checkpointing 2 none 0 (some k) []
       (s.func 0).ckpt = some k ∧ (s.func 0).ckstate = 2 ∧ k.shard + 1 < k.shards.length)
    ∧ (let g : Seg := ⟨0, 0, 2 ^ 31, 2 ^ 32, 64⟩
       let k := ckOf [(0x80000000, 64, 0xC0000000)] [g]
       let s := (checkpointing 2 none 0 (some k) []).seal (2 ^ 31) 0 5 false
       (s.func 0).ckpt = some k ∧ (s.func 0).ckstate = 2
        ∧ k.segs.find? (fun g => g.shard == k.shard && decide (g.base ≤ k.line) && decide (k.line < g.base + g.len / 64)) = some g
        ∧ k.kept.find? (fun x => x.1 == 2 ^ 31) = none ∧ s.soundLine (2 ^ 31)) :=
  ⟨by decide +kernel, by decide +kernel, by decide +kernel, by decide +kernel, by decide +kernel, by decide +kernel,
   shard_sound _ (by decide +kernel) (by decide +kernel)⟩

/-- The machine with a Signet command of job 7 on slot 3 or on the current slot, Signet knowing the job or not. -/
def signet (slot : Nat) (jobs : List Job) : State :=
  { machine with funcs := vset machine.funcs 0 { machine.func 0 with sgncmd := BitVec.ofNat 64 (7 + slot * 2 ^ 32), sgnbuf := 0x9000 }
                 trust := { machine.trust with jobs := jobs }
                 hostMem := mem [(0x9000, 7), (0x9008, 1)] }

/-- The conditions on Config.importedKey, a constant without a body, are left out. -/
theorem witness_signet : (signet 3 []).cursor.func < 64 ∧ (signet 3 []).jobOf 0 ((signet 3 []).func 0).sgnJob = none
    ∧ (let s := signet 3 [⟨0, 7, 1, []⟩]
       s.jobOf 0 (s.func 0).sgnJob = some ⟨0, 7, 1, []⟩ ∧ field (s.hostMem.readN 0x9000 128) 0 4 = (7#32).toNat
        ∧ field (s.hostMem.readN 0x9000 128) 8 8 = 1 ∧ (s.func 0).sgnbuf.toNat / 64 * 64 = 0x9000 ∧ (s.func 0).slotFree = true)
    ∧ ((signet 0 [⟨0, 7, 1, []⟩]).func 0).slotFree = false := by decide +kernel

theorem witness_firmware : (let s := { machine with trust := { machine.trust with staged := some [] } }
      s.trust.staged.isSome = true ∧ s.fwWaits = false)
    ∧ (let s := { machine with trust := { machine.trust with staged := some [] }, mig := migOf 2 1 (2 ^ 47) }
      s.trust.staged.isSome = true ∧ s.fwWaits = true) := by decide +kernel

/-- The condition on Config.firmwareSigned, a constant without a body, is left out. -/
theorem witness_device : (∃ s : State, s.trust.staged = none) ∧ (∀ n < 5, ∃ s : State, s.dev.devstate = n)
    ∧ (∃ s : State, s.dev.steps = 8) ∧ (∃ s : State, 0 < s.dev.steps ∧ s.dev.steps ≤ 8 ∧ s.dev.droop = false ∧ s.dev.hot = []) :=
  ⟨⟨machine, rfl⟩, fun n _ => ⟨{ machine with dev := { machine.dev with devstate := n } }, rfl⟩, ⟨{ machine with dev := { machine.dev with steps := 8 } }, rfl⟩,
   { machine with dev := { machine.dev with steps := 8 } }, by decide +kernel⟩

/-- A state that the invariant of StepKeepsMemoryForm holds of, and whose step goes on. -/
theorem witness_memory_form : State.reset.allWf ∧ ∃ s : State, step State.reset = .next s := ⟨State.reset_allWf, _, rfl⟩

end Sys2Proof.Tests
end

