-- ==== Sys2Proof/Tests/WitnessUnits.lean ====
section
/-! SUPPORT. Witnesses for the statements about the copy engine, the Inkwells, the network and the fetch: a concrete state that meets each hypothesis. -/

namespace Sys2Proof.Tests
open Sys2Proof.Machine Sys2Proof.Witness

set_option Elab.async false

/-- A tile with a descriptor at its place in the slice file, a window over page 0 of virtual memory, and at 0x1000 the first word of a block
header. -/
def copying (d : Nat) : Tile :=
  let t := slices [(16, 64, d)] (tile .ce)
  { t with wins := vset t.wins 0 ⟨true, true, 0, false, 0, 0⟩, stores := { t.stores with mem := t.stores.mem.writeN 0x1000 8 0x5FFE } }

/-- The copy instructions with their function numbers, operands and legal descriptors: sources and destinations at their places, lengths
and latencies as R371 asks, one with a signal word. -/
def copies : List (Instr × CopyOp × Nat × Nat × Nat) :=
  [(.cpy cx, cx, 0, 1, 0x2000 * 2 ^ 64 + 65528 * 2 ^ 128 + 5 * 2 ^ 144),
   (.cpy cx, cx, 0, 1, 0x2000 * 2 ^ 64 + 8 * 2 ^ 128 + 5 * 2 ^ 144 + 9 * 2 ^ 192 + 0x3000 * 2 ^ 219 + 2 ^ 255),
   (.cpyh cx, cx, 1, 1, 0x2000 * 2 ^ 64 + 64 * 2 ^ 128), (.cpyw cx, cx, 2, 1, 0x2000 + 64 * 2 ^ 128),
   (.cpyt { cx with mod := 1 }, { cx with mod := 1 }, 3, 1, 0x1000 + 0x4000 * 2 ^ 64 + 1 * 2 ^ 128 + 5 * 2 ^ 144),
   (.gath cx, cx, 4, 1, 0x2000 * 2 ^ 64 + 1 * 2 ^ 128), (.scat cx, cx, 5, 1, 0x2000 * 2 ^ 64 + 1 * 2 ^ 128),
   (.cpysf cx, cx, 6, 1, 0x150000 * 2 ^ 64 + 4096 * 2 ^ 128 + 5 * 2 ^ 144), (.bcst cx, cx, 8, 2, 0x2000 * 2 ^ 64 + 8 * 2 ^ 128 + 5 * 2 ^ 144)]

theorem witness_copies : ∀ x ∈ copies,
    let n (_ : Tile) : Info := ceInfo x.1.cause x.2.1 x.2.2.2.1 true false
    let free (c : Ctx) (t : Tile) : Prop := ceHold x.2.1 (fun c t => t.copyExts c x.2.2.1 x.2.1.mod.toNat (t.desc x.2.1)) c t = none
    Meets n (fun c t => free c t ∧ lowestFault (t.copyFaults c x.2.2.1 x.2.1.mod.toNat (t.desc x.2.1)) = none)
    ∧ Meets n (fun c t => free c t ∧ lowestFault (t.copyFaults c x.2.2.1 x.2.1.mod.toNat (t.desc x.2.1)) = some (75, none)) := by
  have h : ∀ x ∈ copies, ∀ bad ∈ [0, 2 ^ 161],
      let t := copying (x.2.2.2.2 + bad)
      let c := ctx t .ce
      issuesB c t (ceInfo x.1.cause x.2.1 x.2.2.2.1 true false) = true
      ∧ ceHold x.2.1 (fun c t => t.copyExts c x.2.2.1 x.2.1.mod.toNat (t.desc x.2.1)) c t = none
      ∧ lowestFault (t.copyFaults c x.2.2.1 x.2.1.mod.toNat (t.desc x.2.1)) = if bad = 0 then none else some (75, none) := by decide +kernel
  exact fun x hx => ⟨meets_at .ce (copying (x.2.2.2.2 + 0)) (h x hx 0 (by decide)).1 (h x hx 0 (by decide)).2,
    meets_at .ce (copying (x.2.2.2.2 + 2 ^ 161)) (h x hx (2 ^ 161) (by decide)).1 (h x hx (2 ^ 161) (by decide)).2⟩

theorem witness_engine_commands :
    (let info (_ : Tile) := ceInfo (Instr.sigw cx).cause cx 1 true false
     let bad (c : Ctx) (t : Tile) : List CeFault := (if bitsAt (t.desc cx) 128 128 = 0 then [] else [(75, none)])
       ++ windowFaults c (dDst (t.desc cx)) 8 [spadRange] ++ (if dDst (t.desc cx) % 8 = 0 then [] else [(46, some (dDst (t.desc cx)))])
     let free (c : Ctx) (t : Tile) : Prop := ceHold cx (fun c t => [winExt c (dDst (t.desc cx)) 8]) c t = none
       ∧ ∀ m ∈ t.ce.cmds, m.issue < c.k → m.completed c.k = true
     Meets info (fun c t => free c t ∧ lowestFault (bad c t) = none) ∧ Meets info (fun c t => free c t ∧ lowestFault (bad c t) = some (46, some 4)))
    ∧ (let info (_ : Tile) := ceInfo (Instr.timld cx).cause cx 1 true false
       let free (c : Ctx) (t : Tile) : Prop := ceHold cx (fun c t => t.timldExts c (t.desc cx)) c t = none
       Meets info (fun c t => free c t ∧ lowestFault (t.timldFaults c (t.desc cx)) = none)
       ∧ Meets info (fun c t => free c t ∧ lowestFault (t.timldFaults c (t.desc cx)) = some (75, none)))
    ∧ (let info (_ : Tile) := ceInfo (Instr.coll cx).cause cx 2 true true
       let free (c : Ctx) (t : Tile) : Prop := ceHold cx (fun c t => collExts c (t.desc cx)) c t = none
       Meets info (fun c t => free c t ∧ lowestFault (collFaults c (t.desc cx)) = none)
       ∧ Meets info (fun c t => free c t ∧ lowestFault (collFaults c (t.desc cx)) = some (75, none)))
    ∧ (let info (_ : Tile) := ceInfo (Instr.inkc cx).cause cx 1 true false
       let free (c : Ctx) (t : Tile) : Prop := ceHold cx (fun c t => t.ikExts c (t.desc cx)) c t = none
       Meets info (fun c t => free c t ∧ lowestFault (t.ikFaults c (t.desc cx)) = none)
       ∧ Meets info (fun c t => free c t ∧ lowestFault (t.ikFaults c (t.desc cx)) = some (76, none)))
    ∧ Meets (fun _ => ceInfo (Instr.inkf { cx with dsc := 0 }).cause { cx with dsc := 0 } 1 false false)
      (fun c t => ceHold { cx with dsc := 0 } (fun _ _ => []) c t = none ∧ ∀ m ∈ t.ce.cmds, m.fn = 10 → m.cls = 0 → m.issue < c.k → m.completed c.k = true)
    ∧ ∃ (c : Ctx) (t : Tile), t.ce.cmds = [] ∧ t.writesPending c.k c.k 0xFFFF = false ∧ t.ctl.entries .ap = [] := by
  refine ⟨⟨meets_at .ce (copying (0xF7FF8 * 2 ^ 64 + 7)) ?_ ?_, meets_at .ce (copying (4 * 2 ^ 64 + 7)) ?_ ?_⟩,
    ⟨meets_at .ce (copying (255 * 2 ^ 64 + 4095 * 2 ^ 72 + 1 * 2 ^ 96 + 4095 * 2 ^ 128)) ?_ ?_, meets_at .ce (copying (255 * 2 ^ 64 + 4095 * 2 ^ 72 + 2 * 2 ^ 96 + 4095 * 2 ^ 128)) ?_ ?_⟩,
    ⟨meets_at .ce (copying (0x100 * 2 ^ 64 + 16384 * 2 ^ 128 + 9 * 2 ^ 144 + 2 * 2 ^ 160)) ?_ ?_, meets_at .ce (copying (0x100 * 2 ^ 64 + 16385 * 2 ^ 128 + 9 * 2 ^ 144 + 2 * 2 ^ 160)) ?_ ?_⟩,
    ⟨meets_at .ce (copying (1 + 2 * 2 ^ 8 + 1 * 2 ^ 32)) ?_ ?_, meets_at .ce (copying (8 + 2 * 2 ^ 8 + 1 * 2 ^ 32)) ?_ ?_⟩,
    meets_at .ce (copying 0) ?_ ?_, ⟨ctx (copying 0) .ce, copying 0, ?_⟩⟩
  all_goals decide +kernel

/-- A command of a tile with number 0, under way with what it moves. -/
def command (fn d total : Nat) (kind : CeKind) (e : Option Nat) : CeCmd :=
  { id := 0, seq := 0, line := 0, lane := 1, issue := 10, fn := fn, cls := 0, mod := 0, desc := d, q0 := 16, total := total, own := false
    sig := none, targets := [(0, 0)], exts := [], left := total, perf := 10, fin := 10, e := e, stop := none, fault := [], kind := kind }

/-- A tile with that command, and with lines. -/
def engine (m : CeCmd) (l : List CeLine) : Tile :=
  let t := copying 0
  { t with ce := { t.ce with cmds := [m], lines := l } }

/-- A line of command 0 with its slot and its landing in cycle 16, or later. -/
def line (r : Route) (pa land : Nat) : CeLine :=
  { cmd := 0, idx := 0, route := r, start := 16, land := land, pa := pa, off := 0, len := 64, data := 5, poison := 0, targets := [(0, 0)], got := []
    outside := none }

theorem witness_line_requests : ∀ x ∈ [(0, 1, 16), (1, 1, 16), (0, 0, 16)], ∃ (s : State) (f : Folio) (t : Tile) (c : Ctx) (m : CeCmd),
    s.at? = some (f, t, c) ∧ t.ce.cmds = [m] ∧ m.kind = .plain ∧ m.stop = none ∧ m.fn = x.1
    ∧ (m.q0 ≤ c.k ∧ c.k < m.q0 + m.total ↔ x.2.1 = 1) := fun x hx =>
  ⟨_, _, engine (command x.1 (0x2000 * 2 ^ 64 + 8 * 2 ^ 128 + 5 * 2 ^ 144) x.2.1 .plain none) [], _, command x.1 (0x2000 * 2 ^ 64 + 8 * 2 ^ 128 + 5 * 2 ^ 144) x.2.1 .plain none,
   at_lab 1 1 [] _ .ce, by fin_cases hx <;> decide +kernel⟩

/-- Line 1 of channel 0, sealed with the value 5 under function 0's first key. -/
def sealed (t : Tile) : State := (lab 1 1 [t] .ce).seal 64 0 5 false

theorem at_sealed (t : Tile) : (sealed t).at? = some (folio 1 1 [t], t, ctxOf (sealed t) (folio 1 1 [t]) 0 t .ce) := rfl

theorem sealed_sound (t : Tile) : (sealed t).soundLine 64 ∧ (sealed t).plain 64 = 5 :=
  ⟨(seal_line (lab 1 1 [t] .ce) 64 0 5 false).2 rfl rfl, (seal_line (lab 1 1 [t] .ce) 64 0 5 false).1.trans (by decide +kernel)⟩

/-- A tile with a line in its slot. -/
def slotted (r : Route) (pa poison : Nat) : Tile := engine (command 1 0 1 .plain none) [{ line r pa 30 with poison := poison }]

theorem witness_line_writes : ∀ x ∈ [(0, 0), (0, 1), (2 ^ 47, 0), (2 ^ 47, 1)],
    ∃ (s : State) (f : Folio) (t : Tile) (c : Ctx) (l : CeLine), s.at? = some (f, t, c) ∧ t.ce.lines = [l] ∧ l.startsAt c.cyc = true
      ∧ (t.cmdOf l).isSome = true ∧ l.route = .write ∧ inHostWindow l.pa = decide (x.1 = 2 ^ 47) ∧ (l.poison = 0 ↔ x.2 = 0)
      ∧ (s.func (vget s.dram.chans (chanNum l.pa)).func).ckpt = none
      ∧ (s.lineKeys l.pa (s.func (vget s.dram.chans (chanNum l.pa)).func).writeVersion).loaded = true := fun x hx =>
  ⟨_, _, slotted .write x.1 x.2, _, { line .write x.1 30 with poison := x.2 }, at_lab 1 1 [] _ .ce, by fin_cases hx <;> decide +kernel⟩

theorem witness_line_reads : (∃ (s : State) (f : Folio) (t : Tile) (c : Ctx) (l : CeLine), s.at? = some (f, t, c) ∧ t.ce.lines = [l]
      ∧ l.startsAt c.cyc = true ∧ (t.cmdOf l).isSome = true ∧ l.route ≠ .write ∧ inHostWindow l.pa = false ∧ s.soundLine l.pa)
    ∧ (∃ (s : State) (f : Folio) (t : Tile) (c : Ctx) (l : CeLine), s.at? = some (f, t, c) ∧ t.ce.lines = [l] ∧ l.startsAt c.cyc = true
      ∧ (t.cmdOf l).isSome = true ∧ l.route ≠ .write ∧ inHostWindow l.pa = false
      ∧ (vget s.dram.chans (chanNum l.pa)).pendingClear (chanLine l.pa) = true)
    ∧ ∃ (s : State) (f : Folio) (t : Tile) (c : Ctx) (l : CeLine), s.at? = some (f, t, c) ∧ t.ce.lines = [l] ∧ l.startsAt c.cyc = true
      ∧ (t.cmdOf l).isSome = true ∧ l.route ≠ .write ∧ inHostWindow l.pa = true ∧ ∀ r ∈ s.hostReads, r.got.isSome = true :=
  ⟨⟨_, _, slotted .read 64 0, _, { line .read 64 30 with poison := 0 }, at_sealed _, rfl, by decide +kernel, by decide +kernel, by decide, by decide +kernel,
    (sealed_sound _).1⟩,
   ⟨{ lab 1 1 [slotted .read 64 0] .ce with dram := { State.reset.dram with chans := vset State.reset.dram.chans 0 { Chan.reset with clearFrom := 0 } } }, _,
    slotted .read 64 0, _, { line .read 64 30 with poison := 0 }, rfl, by decide +kernel⟩,
   ⟨_, _, slotted .read (2 ^ 47) 0, _, { line .read (2 ^ 47) 30 with poison := 0 }, at_lab 1 1 [] _ .ce, by decide +kernel⟩⟩

/-- Behind a host read of another world a request waits. -/
theorem witness_held_request : ∀ x ∈ [Route.read, .write], ∃ (s : State) (f : Folio) (t : Tile) (c : Ctx) (l : CeLine) (r : HostRead),
    s.at? = some (f, t, c) ∧ t.ce.lines = [l] ∧ l.startsAt c.cyc = true ∧ (t.cmdOf l).isSome = true ∧ inHostWindow l.pa = true
      ∧ (l.route = .write ↔ x = .write) ∧ s.hostReads = [r] ∧ r.got = none ∧ r.data.isSome = true ∧ r.write = none
      ∧ r.world ≠ f.place.func := fun x hx =>
  ⟨{ lab 1 1 [slotted x (2 ^ 47) 0] .ce with hostReads := [⟨3, 9, 5, 0, some 0, none, none⟩] }, _, slotted x (2 ^ 47) 0, _,
    { line x (2 ^ 47) 30 with poison := 0 }, ⟨3, 9, 5, 0, some 0, none, none⟩, rfl, by fin_cases hx <;> decide +kernel⟩

theorem witness_pending_clear : ∃ (c : Chan) (l : Nat), c.pendingClear l = true :=
  ⟨{ Chan.reset with clearFrom := 0 }, 0x17FFFFF, by decide +kernel⟩

/-- A tile in a COLL's completion cycle, its share read or not. -/
def collecting (read : Bool) : Tile :=
  let t := engine (command 9 0 1 (.coll 2) (some 16)) []
  { t with ce := { t.ce with shares := [⟨2, 0, 10, 16, 11, 0, 0, [], read, ⟨0, false⟩, false, 0⟩] } }

theorem witness_lines_land : (∀ x ∈ [(Route.read, 17, []), (.read, 16, [(0, 0)]), (.read, 16, []), (.mesh, 16, [])],
      ∃ (s : State) (f : Folio) (t : Tile) (c : Ctx) (l : CeLine) (m : CeCmd), s.at? = some (f, t, c) ∧ t.ce.lines = [l] ∧ t.cmdOf l = some m ∧ m.fn ≠ 6
      ∧ l.route = x.1 ∧ l.land = x.2.1 ∧ c.cyc = 16 ∧ l.outside = none ∧ l.targets = [(0, 0)] ∧ l.bad = x.2.2 ∧ (c.fx, c.fy) = (0, 0))
    ∧ (∀ x ∈ [none, some 3], ∃ (s : State) (f : Folio) (t : Tile), s.folio? s.cursor.folio = some f
      ∧ f.tiles = [t] ∧ s.lateTile f 0 t = x.isSome)
    ∧ (∀ x ∈ [16, 17], ∃ (s : State) (f : Folio) (g : SignalFlight), s.folio? s.cursor.folio = some f ∧ f.signals = [g] ∧ f.cycle = 16 ∧ g.land = x)
    ∧ ∀ b ∈ [true, false], ∃ (s : State) (f : Folio) (t : Tile) (c : Ctx) (m : CeCmd) (n : Nat) (sh : Share), s.at? = some (f, t, c) ∧ t.ce.cmds = [m]
      ∧ m.kind = .coll n ∧ m.e = some c.cyc ∧ m.stop = none ∧ t.ce.shares.find? (fun x => x.num == n) = some sh
      ∧ (f.collResult s.far 0 0 m sh c.cyc).toOption.isSome = b := by
  refine ⟨fun x hx => ⟨_, _, engine (command 1 0 1 .plain none) [{ line x.1 0 x.2.1 with bad := x.2.2 }], _, { line x.1 0 x.2.1 with bad := x.2.2 },
      command 1 0 1 .plain none, at_lab 1 1 [] _ .ce, by fin_cases hx <;> decide +kernel⟩, fun x hx => ?_, fun x hx => ?_, fun b hb => ?_⟩
  · exact ⟨{ lab 1 1 [engine (command 1 0 1 .plain none) [{ line .read (2 ^ 47) 16 with outside := x }]] .ce with hostReads := [⟨3, 0, 0, 0, some 0, none, none⟩] }, _,
      _, rfl, rfl, by fin_cases hx <;> decide +kernel⟩
  · exact ⟨{ lab 1 1 [tile .ce] .ce with folios := [{ folio 1 1 [tile .ce] with signals := [⟨x, ⟨0, 0, 8, 9⟩, 0, 0, 5⟩] }] }, _, _, rfl, rfl, rfl, rfl⟩
  · exact ⟨_, _, collecting b, _, command 9 0 1 (.coll 2) (some 16), 2, ⟨2, 0, 10, 16, 11, 0, 0, [], b, ⟨0, false⟩, false, 0⟩, at_lab 1 1 [] _ .ce,
      by fin_cases hb <;> decide +kernel⟩

/-- An Inkwell command of an op with one item under way, of which line 0 has been read. -/
def ink (fail : Option (Nat × Nat)) (items : List InkItem) : Ink := { items := items, fail := fail, lastRead := none, lastWrite := none, ev := [] }
def inkwell (op : Nat) (i : Ink) (e : Option Nat) : CeCmd := command 10 (op + 2 * 2 ^ 8 + 1 * 2 ^ 32) 1 (.ink i) e
def item : InkItem := { item := 0, got := [(0, 5), (1, 6), (2, 7)], latest := 0, left := 0 }

theorem witness_inkwell_lanes : ∀ op ∈ [1, 2, 3, 4, 5, 6, 7], ∀ x ∈ [(Route.inkRead, []), (.inkWrite, []), (.inkWrite, [item])],
    ∃ (s : State) (f : Folio) (t : Tile) (c : Ctx) (l : CeLine) (m : CeCmd) (i : Ink), s.at? = some (f, t, c)
      ∧ s.soundLine l.pa ∧ t.ce.lines.filter (t.inkStarts op c.cyc) = [l] ∧ t.cmdOf l = some m ∧ m.kind = .ink i ∧ l.route = x.1 ∧ l.idx < ikLimit m.desc i
      ∧ (m.inkStore l).isSome = (x.2 != []) ∧ (s.func (vget s.dram.chans (chanNum l.pa)).func).ckpt = none := fun op ho x hx =>
  ⟨_, _, engine (inkwell op (ink none x.2) none) [line x.1 64 30], _, line x.1 64 30, inkwell op (ink none x.2) none, ink none x.2,
   at_sealed _, (sealed_sound _).1, by fin_cases ho <;> fin_cases hx <;> decide +kernel⟩

theorem witness_inkwell : (∃ (s : State) (f : Folio) (t : Tile) (c : Ctx), s.at? = some (f, t, c) ∧ ∀ op ∈ [1, 2, 3, 4, 5, 6, 7],
      t.ce.lines.filter (t.inkStarts op c.cyc) = [])
    ∧ (∃ (t : Tile) (l : CeLine) (m : CeCmd) (i : Ink), t.ce.cmds = [m] ∧ m.id = l.cmd ∧ m.kind = .ink i ∧ l.idx < ikLimit m.desc i ∧ i.fail = none
      ∧ ikOp m.desc ≠ 7)
    ∧ (∀ op ∈ [1, 2, 3, 4, 5, 6, 7], ikOp (inkwell op (ink none []) none).desc = op)
    ∧ ∀ x ∈ [(none, some 16), (some (0, 1), none)], ∃ (s : State) (f : Folio) (t : Tile) (c : Ctx) (m : CeCmd) (i : Ink), s.at? = some (f, t, c)
      ∧ t.ce.cmds = [m] ∧ m.kind = .ink i ∧ (m.e = some c.cyc ↔ x.2.isSome) ∧ i.fail = x.1 ∧ i.ev = [] :=
  ⟨⟨_, _, tile .ce, _, at_lab 1 1 [] _ .ce, by decide +kernel⟩,
   ⟨engine (inkwell 1 (ink none []) none) [], line .inkRead 0 30, inkwell 1 (ink none []) none, ink none [], by decide +kernel⟩, by decide +kernel,
   fun x hx => ⟨_, _, engine (inkwell 3 (ink x.1 []) x.2) [], _, inkwell 3 (ink x.1 []) x.2, ink x.1 [], at_lab 1 1 [] _ .ce, by fin_cases hx <;> decide +kernel⟩⟩

/-- Network operands to the next column, and the receives of channel 15. -/
def sendo : NetSend := { ecl := 1, ocl := 0, wv := 13, ch := 15, dx := 1, dy := 0, vs := 3968 }
def sendio : NetSendi := { ecl := 1, ocl := 0, wv := 3, ch := 15, dx := 1, dy := 0, imm := 0xFFFF }
def recvo : NetRecv := { ecl := 1, ocl := 0, wv := 13, ch := 15, lat := 1, vs := 3968 }

/-- A tile whose channel 15 has had a number of arrivals, with barrier 31 arrived at or not. -/
def netted (arrived : Nat) (bar : Option Nat) : Tile :=
  let t := tile .net
  { t with net := { t.net with chans := vset t.net.chans 15 ⟨arrived, 0, [], 0⟩, bars := vset t.net.bars 31 bar } }

theorem witness_net :
    (let n (_ : Tile) := netInfo (Instr.send sendo).cause [spanOf 3968 512] [] 1 0
     Meets n (fun c _ => c.place.target c.fx c.fy 1 0 = some (1, 0)) ∧ Meets n (fun c _ => c.place.target c.fx c.fy 1 0 = none))
    ∧ (let n (_ : Tile) := netInfo (Instr.sendi sendio).cause [] [] 1 0
       Meets n (fun c _ => c.place.target c.fx c.fy 1 0 = some (1, 0)) ∧ Meets n (fun c _ => c.place.target c.fx c.fy 1 0 = none))
    ∧ Meets (fun _ => recvInfo (Instr.recv recvo).cause recvo) always
    ∧ Meets (fun _ => recvInfo (Instr.recvw recvo).cause recvo) (fun _ t => (t.chan 15).taken < (t.chan 15).arrived)
    ∧ Meets (fun _ => recvInfo (Instr.recvw recvo).cause recvo) (fun _ t => (t.chan 15).arrived ≤ (t.chan 15).taken)
    ∧ Meets (fun _ => barInfo) (fun _ t => vget t.net.bars 31 = none) ∧ Meets (fun _ => barInfo) (fun _ t => (vget t.net.bars 31).isSome = true) := by
  refine ⟨⟨meets_in 2 1 [tile .net] .net (tile .net) ?_ ?_, meets_at .net (tile .net) ?_ ?_⟩,
    ⟨meets_in 2 1 [tile .net] .net (tile .net) ?_ ?_, meets_at .net (tile .net) ?_ ?_⟩, meets_at .net (tile .net) ?_ trivial,
    meets_at .net (netted 1 none) ?_ ?_, meets_at .net (netted 0 none) ?_ ?_, meets_at .net (netted 0 none) ?_ ?_, meets_at .net (netted 0 (some 9)) ?_ ?_⟩
  all_goals decide +kernel

/-- A tile with a flit in its injection queue or at its ejection output. -/
def flit (tgt : Nat × Nat) (p : Payload) : Flit := { srcX := 0, srcY := 0, tgts := [tgt], born := 16, pay := p, bad := false }
def routing (i o : List Flit) : Tile :=
  let t := tile .net
  { t with net := { t.net with router := { t.net.router with inj := i, out := o } } }

theorem witness_flit_hop : ∀ d ∈ [(0, 0), (1, 0)], ∃ (s : State) (f : Folio) (i : Nat) (t : Tile) (g : Flit), s.folio? s.cursor.folio = some f
    ∧ f.tiles[i]? = some t ∧ f.seams = [] ∧ f.place.seam = 0 ∧ f.tiles.length = f.place.w * f.place.h ∧ d.1 < f.place.w ∧ d.2 < f.place.h
    ∧ t.net.router = ⟨[], [], [], [], [g], []⟩ ∧ (∀ (j : Nat) (u : Tile), j ≠ i → f.tiles[j]? = some u → u.net.router = ⟨[], [], [], [], [], []⟩)
    ∧ g.tgts = [d] ∧ g.bad = false ∧ g.born ≤ f.cycle ∧ ∀ (ch w v k z : Nat), g.pay ≠ .message ch w v k z := fun d hd =>
  ⟨lab 2 1 [routing [flit d (.line 0 0)] [], tile .net] .net, _, 0, _, flit d (.line 0 0), rfl, rfl, rfl, rfl, rfl, by fin_cases hd <;> decide,
   by fin_cases hd <;> decide, rfl, fun j u hj hu => by
    match j with
    | 0 => exact absurd rfl hj
    | 1 => cases hu; rfl
    | j + 2 => simp [folio, folioAt] at hu, rfl, rfl, Nat.le_refl _, by simp [flit]⟩

/-- A tile with a receive of channel 15 due in cycle 16, and a flit at its ejection output. -/
def receiving (o : List Flit) : Tile :=
  let t := routing [] o
  { t with net := { t.net with recvs := [⟨15, 0, 4080, 64, 0, 10, 16⟩] } }

theorem witness_mesh : (∀ l ∈ [[], [flit (0, 0) (.message 15 64 7 9 0)], [{ flit (0, 0) (.message 15 64 7 9 0) with bad := true }]],
      ∃ (s : State) (f : Folio) (t : Tile) (c : Ctx) (r : Recv), s.at? = some (f, t, c)
      ∧ t.net.recvs = [r] ∧ r.land = c.cyc ∧ r.ch < 16 ∧ t.net.router.out = l ∧ (vget t.net.chans r.ch).msgs = [] ∧ r.ord = (vget t.net.chans r.ch).arrived)
    ∧ (∃ (s : State) (f : Folio) (t : Tile) (c : Ctx) (g : Flit) (id addr w a b u : Nat) (op : AtomOp) (rnd : Rnd), s.at? = some (f, t, c)
      ∧ t.net.router.out = [g] ∧ g.pay = .request id op addr w a b u rnd ∧ t.badWord addr (w / 8) = none)
    ∧ (∀ x ∈ [(17, none), (16, none), (16, some ⟨7, false, [], false⟩), (16, some ⟨7, true, [], false⟩), (16, some ⟨7, false, [], true⟩)],
      ∃ (s : State) (f : Folio) (t : Tile) (c : Ctx) (r : Ratom),
      s.at? = some (f, t, c) ∧ t.ap.ratoms = [r] ∧ r.land = x.1 ∧ c.cyc = 16 ∧ r.reply = x.2)
    ∧ ∀ x ∈ [none, some 9], ∃ (s : State) (f : Folio), s.folio? s.cursor.folio = some f
      ∧ ∀ m < 32, f.barDone m f.cycle = decide (m = 31 ∧ x = some 9) := by
  refine ⟨fun l hl => ⟨_, _, receiving l, _, ⟨15, 0, 4080, 64, 0, 10, 16⟩, at_lab 1 1 [] _ .net, by fin_cases hl <;> decide +kernel⟩,
    ⟨_, _, routing [] [flit (0, 0) (.request 1 .add 0xF7FF8 64 5 0 0 ⟨0, false⟩)], _, flit (0, 0) (.request 1 .add 0xF7FF8 64 5 0 0 ⟨0, false⟩), 1, 0xF7FF8, 64,
      5, 0, 0, .add, ⟨0, false⟩, at_lab 1 1 [] _ .net, by decide +kernel⟩,
    fun x hx => ⟨_, _, { tile .ap with ap := { (tile .ap).ap with ratoms := [⟨10, 10, x.1, 0, true, 0, 64, 0, x.2, none⟩] } }, _, ⟨10, 10, x.1, 0, true, 0, 64, 0, x.2, none⟩,
      at_lab 1 1 [] _ .ap, by fin_cases hx <;> decide +kernel⟩, fun x hx => ⟨lab 1 1 [netted 0 x] .net, _, rfl, by fin_cases hx <;> decide +kernel⟩⟩

theorem witness_parse : ∃ l : Line, (lane l 0).toNat < 2 ^ 28 ∧ (∀ n, 1 ≤ n → n ≤ 7 → nibble (lane l 0) n < 7)
    ∧ (∀ n, 1 ≤ n → n ≤ 7 → nibble (lane l 0) n ≠ 0 → isLong (lane l n) = false)
    ∧ ∀ n, 1 ≤ n → n ≤ 7 → nibble (lane l 0) n = 1 → major (lane l n) ≠ 0x2C :=
  ⟨0x6654321, by decide, fun n h h' => by interval_cases n <;> decide, fun n h h' => by interval_cases n <;> decide,
   fun n h h' => by interval_cases n <;> decide⟩

/-- A tile whose line 4095 holds a NOP for SQ and dispatches next, with n entries in SQ. -/
def fetching (n : Nat) : Tile :=
  let t := tile .sq
  { t with ctl := { (t.ctl.setEntries .sq (List.replicate n noEntry)) with fetch := { t.ctl.fetch with direct := [4095] } }
           stores := { t.stores with mem := t.stores.mem.writeN (0x180000 + 32 * 4095) 4 1 } }

/-- The same with a loop open over lines 5 to 4095, and w in lane 1 of line 4095. -/
def turning (w : Nat) : Tile :=
  let t := fetching 0
  { t with ctl := { t.ctl with loops := vset t.ctl.loops 3 ⟨true, 2, 5, 4095, 1⟩ }
           stores := { t.stores with mem := t.stores.mem.writeN (0x180000 + 32 * 4095 + 4) 4 w } }

/-- LoopsComplete: the last line of a body dispatches with an orphan PFX and without. -/
theorem witness_back_edge : ∀ x ∈ [0, 0xBE000000], ∃ (s : State) (f : Folio) (t : Tile) (c : Ctx), s.at? = some (f, t, c)
      ∧ ((t.nextLine c.k).any fun p => decide (p.line = 4095 ∧ t.ctl.loopWaits p.line = false)
        && (let r := parseLine p.bits p.line t.ctl.fetch.seqCtr c.k none p.bad
            r.2.isNone && roomFor t.ctl r.1
            && (match (t.ctl.entries .sq ++ (r.1.filter fun x => x.1 == .sq).map fun x => x.2).getLast? with
              | some e => e.marker.isNone && (major e.w0 == 0x5F) == (x != 0)
              | none => false))) = true
      ∧ t.ctl.fetch.owe = none ∧ t.ctl.fetch.cross = [] ∧ vget t.ctl.loops 3 = ⟨true, 2, 5, 4095, 1⟩ :=
  fun x hx => ⟨_, _, turning x, _, at_lab 1 1 [] _ .sq, by fin_cases hx <;> decide +kernel⟩

/-- A tile that awaits lane 1 of line l + 1 for a word of queue XU, from cycle k on, where line 1 holds such a lane. -/
def crossing (l k : Nat) (got : Bool) : Tile :=
  let t := tile .xu
  let m := t.stores.mem.writeN (0x180000 + 32) 4 3
  { t with ctl := { t.ctl with fetch := { t.ctl.fetch with
             cross := [⟨⟨.xu, l, 7, 3, 0xC0000000, []⟩, k, if got then some ⟨l + 1, if l = 0 then 3 else 0, k, false⟩ else none⟩] } }
           stores := { t.stores with mem := m } }

theorem witness_fetch : (∀ n ∈ [15, 16], ∃ (s : State) (f : Folio) (t : Tile) (c : Ctx), s.at? = some (f, t, c)
      ∧ ((t.nextLine c.k).any fun p => decide (p.line < 4096 ∧ t.ctl.loopWaits p.line = false)
        && (let r := parseLine p.bits p.line t.ctl.fetch.seqCtr c.k none p.bad
            r.2.isNone && roomFor t.ctl r.1 == (n == 15))) = true
      ∧ (∀ l < 4, (vget t.ctl.loops l).act = false) ∧ t.ctl.fetch.owe = none)
    ∧ (∀ x ∈ [(0, 17), (0, 16)], ∃ (t : Tile) (y : Cross), t.ctl.fetch.cross = [y] ∧ y.got = none ∧ y.from_ = x.2
      ∧ ((t.fetchReads 16).ctl.fetch.cross.map fun (z : Cross) => z.got.isSome) = [decide (x.2 = 16)])
    ∧ (∃ (s : State) (f : Folio) (t : Tile) (c : Ctx) (y : Cross), s.at? = some (f, t, c) ∧ t.ctl.fetch.cross = [y] ∧ y.got = none)
    ∧ (∀ x ∈ [0, 1, 4095], ∃ (s : State) (f : Folio) (t : Tile) (c : Ctx) (y : Cross) (p : PreLine), s.at? = some (f, t, c) ∧ t.ctl.fetch.cross = [y]
      ∧ y.got = some p ∧ p.bad = false ∧ (t.ctl.entries y.owe.q).length < 16 ∧ (∀ q ∈ allQueues, (t.ctl.entries q).length ≤ 16) ∧ p.line = x + 1
      ∧ (lane p.bits 0).toNat < 2 ^ 28 ∧ (∀ n < 8, 1 ≤ n → nibble (lane p.bits 0) n < 7) ∧ (nibble (lane p.bits 0) 1 = queueNum y.owe.q ↔ x = 0)
      ∧ ∀ n < 8, 2 ≤ n → nibble (lane p.bits 0) n = 1 → major (lane p.bits n) ≠ 0x2C)
    ∧ ∃ (s : State) (f : Folio) (t : Tile) (c : Ctx), s.at? = some (f, t, c) ∧ t.pend = [] :=
  ⟨fun n hn => ⟨_, _, fetching n, _, at_lab 1 1 [] _ .sq, by fin_cases hn <;> decide +kernel⟩,
   fun x hx => ⟨crossing x.1 x.2 false, ⟨⟨.xu, x.1, 7, 3, 0xC0000000, []⟩, x.2, none⟩, by fin_cases hx <;> decide +kernel⟩,
   ⟨_, _, crossing 0 17 false, _, ⟨⟨.xu, 0, 7, 3, 0xC0000000, []⟩, 17, none⟩, at_lab 1 1 [] _ .xu, by decide +kernel⟩,
   fun x hx => ⟨_, _, crossing x 16 true, _, ⟨⟨.xu, x, 7, 3, 0xC0000000, []⟩, 16, some ⟨x + 1, if x = 0 then 3 else 0, 16, false⟩⟩,
     ⟨x + 1, if x = 0 then 3 else 0, 16, false⟩, at_lab 1 1 [] _ .xu, by fin_cases hx <;> decide +kernel⟩,
   ⟨_, _, tile .sq, _, at_lab 1 1 [] _ .sq, rfl⟩⟩

end Sys2Proof.Tests
end

/-! PROOFS of the family 08_arith_scalar: what fit delivers (R226), and what the short field operations and moves land
(R234 to R238, R242). -/

namespace Sys2Proof.Machine

/-! ### The low bits of an integer -/

/-- An integer that w bits hold is its own low w bits. -/
theorem ofSigned_of_fits {x : Int} {w : Nat} (h0 : 0 ≤ x) (h : x < 2 ^ w) : ofSigned w x = x.toNat := by
  rw [ofSigned, Int.emod_eq_of_lt h0 h]

/-- A multiple of 2^w does not reach the low w bits. -/
theorem ofSigned_sub_of_dvd {w : Nat} {y : Int} (x : Int) (h : (2 ^ w : Int) ∣ y) : ofSigned w (x - y) = ofSigned w x := by
  obtain ⟨k, rfl⟩ := h
  rw [ofSigned, ofSigned, Int.sub_mul_emod_self_left]

theorem ofSigned_natCast (w x : Nat) : ofSigned w (x : Int) = x % 2 ^ w := by
  rw [ofSigned, ← Int.toNat_natCast (x % 2 ^ w)]
  norm_cast

/-- The least signed integer of w bits has only its sign bit. -/
theorem ofSigned_signedMin {w : Nat} (hw : 0 < w) : ofSigned w (-(2 ^ (w - 1) : Int)) = 2 ^ (w - 1) := by
  have hsplit : (2 ^ (w - 1) : Int) - 2 ^ w = -2 ^ (w - 1) := by
    rw [← Nat.sub_add_cancel hw, Nat.add_sub_cancel, pow_succ]; omega
  have hfits : 2 ^ (w - 1) < 2 ^ w := Nat.pow_lt_pow_right (by omega) (by omega)
  rw [← hsplit, ofSigned_sub_of_dvd _ (dvd_refl _)]
  simpa [Nat.mod_eq_of_lt hfits] using ofSigned_natCast w (2 ^ (w - 1))

/-- One below a power of two that w bits hold. -/
theorem ofSigned_pow_sub_one {w n : Nat} (h : n ≤ w) : ofSigned w (2 ^ n - 1) = 2 ^ n - 1 := by
  have hpos : 0 < 2 ^ n := Nat.two_pow_pos n
  have hle : 2 ^ n ≤ 2 ^ w := Nat.pow_le_pow_right (by omega) h
  have hcast : ((2 ^ n - 1 : Nat) : Int) = 2 ^ n - 1 := by push_cast [hpos]; rfl
  rw [← hcast, ofSigned_natCast, Nat.mod_eq_of_lt (by omega)]

/-! ### fit (R226) -/

/-- The least integer that w bits hold. -/
def fitLow (w : Nat) (signed : Bool) : Int := if signed then -(2 ^ (w - 1) : Int) else 0

/-- The greatest integer that w bits hold. -/
def fitHigh (w : Nat) (signed : Bool) : Int := if signed then 2 ^ (w - 1) - 1 else 2 ^ w - 1

theorem fitLow_le_fitHigh (w : Nat) (signed : Bool) : fitLow w signed ≤ fitHigh w signed := by
  have hpos (n : Nat) : (0 : Int) < 2 ^ n := by positivity
  have hhalf := hpos (w - 1)
  have hwhole := hpos w
  cases signed <;> simp only [fitLow, fitHigh, Bool.false_eq_true, if_true, if_false] <;> omega

theorem fit_unsaturated (x : Int) (w : Nat) (signed : Bool) : fit x w signed false = (ofSigned w x, none) := by
  simp [fit]

theorem fit_below {x : Int} {w : Nat} {signed : Bool} (h : x < fitLow w signed) :
    fit x w signed true = (ofSigned w (fitLow w signed), some 3) := by
  rw [fit, ← fitLow, ← fitHigh, decide_eq_true h]
  rfl

theorem fit_above {x : Int} {w : Nat} {signed : Bool} (h : fitHigh w signed < x) :
    fit x w signed true = (ofSigned w (fitHigh w signed), some 3) := by
  have hlow : ¬ x < fitLow w signed := by have := fitLow_le_fitHigh w signed; omega
  rw [fit, ← fitLow, ← fitHigh, decide_eq_false hlow, decide_eq_true h]
  rfl

theorem fit_within {x : Int} {w : Nat} {signed : Bool} (hlow : fitLow w signed ≤ x) (hhigh : x ≤ fitHigh w signed) :
    fit x w signed true = (ofSigned w x, none) := by
  rw [fit, ← fitLow, ← fitHigh, decide_eq_false (not_lt.2 hlow), decide_eq_false (not_lt.2 hhigh)]
  rfl

/-- Settles O1: fit below, above and within its range, and the low bits of the two ends of each range. -/
theorem fitWrapsOrClamps : Obligations.FitWrapsOrClamps := by
  intro x w hw
  refine ⟨fit_unsaturated x w, fun h => ?signedBelow, fun h => ?signedAbove, fun hlow h => ?signedWithin,
    fun h => ?unsignedBelow, fun h => ?unsignedAbove, fun hlow h => ?unsignedWithin⟩
  case signedBelow => exact (fit_below (signed := true) h).trans (congrArg (·, some 3) (ofSigned_signedMin hw))
  case signedAbove =>
    exact (fit_above (signed := true) (Int.sub_one_lt_of_le h)).trans
      (congrArg (·, some 3) (ofSigned_pow_sub_one (Nat.sub_le w 1)))
  case signedWithin => exact fit_within (signed := true) hlow (Int.le_sub_one_of_lt h)
  case unsignedBelow => exact (fit_below (signed := false) h).trans (congrArg (·, some 3) (ofSigned_natCast w 0))
  case unsignedAbove =>
    exact (fit_above (signed := false) (Int.sub_one_lt_of_le h)).trans
      (congrArg (·, some 3) (ofSigned_pow_sub_one (Nat.le_refl w)))
  case unsignedWithin =>
    rw [fit_within (signed := false) hlow (Int.le_sub_one_of_lt h), ofSigned_of_fits hlow h]

/-! ### Control words and fields (R234 to R236) -/

theorem badControl_ext_of_controlOk {w : Nat} (h : controlOk w = true) : badControl w false = false := by
  simp only [controlOk, Bool.and_eq_true, decide_eq_true_eq, Bool.not_eq_true'] at h
  obtain ⟨hsize, hbit⟩ := h
  rw [badControl, Nat.div_eq_of_lt hsize, hbit]
  rfl

theorem badControl_dep_of_controlOk {w : Nat} (h : controlOk w = true) (hz : w.testBit 18 = false) :
    badControl w true = false := by
  simpa [badControl, hz] using badControl_ext_of_controlOk h

/-- Zero extension keeps a value of its source's width, up to the bits that the destination has no room for. -/
theorem extendTo_zero {sw w v : Nat} (hv : v < 2 ^ sw) : extendTo sw w true v = v % 2 ^ w := by
  unfold extendTo
  split
  · rfl
  case isFalse hw =>
    have hle : 2 ^ sw ≤ 2 ^ w := Nat.pow_le_pow_right (by omega) (by omega)
    rw [if_pos rfl, Nat.mod_eq_of_lt hv, Nat.mod_eq_of_lt (by omega)]

/-- A number of w bits reads as negative where its top bit is set. -/
theorem toSigned_of_lt {w v : Nat} (hv : v < 2 ^ w) :
    toSigned w v = if v.testBit (w - 1) then (v : Int) - 2 ^ w else (v : Int) := by
  have hmod : (v : Int) % 2 ^ w = v := by exact_mod_cast Nat.mod_eq_of_lt hv
  rw [toSigned, hmod]

/-- Sign extension takes the low bits of the two's complement reading, into a narrower destination too. -/
theorem extendTo_sign {sw w v : Nat} (hv : v < 2 ^ sw) : extendTo sw w false v = ofSigned w (toSigned sw v) := by
  unfold extendTo
  split
  case isTrue hw =>
    rw [toSigned_of_lt hv]
    split
    · rw [ofSigned_sub_of_dvd _ (pow_dvd_pow 2 hw), ofSigned_natCast]
    · rw [ofSigned_natCast]
  · rfl

/-- A field read as a quotient and a remainder. -/
theorem bitsAt_eq_div_mod (v pos w : Nat) : bitsAt v pos w = v / 2 ^ pos % 2 ^ w := by
  rw [bitsAt, Nat.shiftRight_eq_div_pow]

theorem intExt_eq_extField (w a ctl : Nat) : intExt w a ctl = extField w a ctl := by
  simp only [intExt, extField, bitsAt_eq_div_mod, pow_zero, Nat.div_one]
  have hx := Nat.mod_lt (a / 2 ^ (ctl % 2 ^ 11)) (Nat.two_pow_pos (ctl / 2 ^ 12 % 2 ^ 6 + 1))
  generalize a / 2 ^ (ctl % 2 ^ 11) % 2 ^ (ctl / 2 ^ 12 % 2 ^ 6 + 1) = x at hx ⊢
  generalize ctl / 2 ^ 12 % 2 ^ 6 + 1 = len at hx ⊢
  cases ctl.testBit 18 with
  | true => simp [extendTo_zero hx]
  | false =>
    rw [extendTo_sign hx, toSigned_of_lt hx]
    cases x.testBit (len - 1) <;> simp [ofSigned_natCast]

/-- Replacing a field exchanges its old share of the number for the new one. -/
theorem putBits_eq_sub_add (v pos w x : Nat) :
    putBits v pos w x = v - v / 2 ^ pos % 2 ^ w * 2 ^ pos + x % 2 ^ w * 2 ^ pos := by
  have hlow : 2 ^ pos * (v / 2 ^ pos) + v % 2 ^ pos = v := Nat.div_add_mod v (2 ^ pos)
  have hhigh : 2 ^ pos * (v / 2 ^ pos)
      = v / 2 ^ (pos + w) * 2 ^ (pos + w) + v / 2 ^ pos % 2 ^ w * 2 ^ pos := by
    conv_lhs => rw [← Nat.div_add_mod (v / 2 ^ pos) (2 ^ w), Nat.div_div_eq_div_mul, ← pow_add]
    ring
  rw [putBits, Nat.shiftRight_eq_div_pow, Nat.shiftLeft_eq, Nat.shiftLeft_eq]
  omega

theorem intDep_eq_depField (w d a ctl : Nat) : intDep w d a ctl = depField w d a ctl := by
  simp only [intDep, depField, putBits_eq_sub_add, bitsAt_eq_div_mod, pow_zero, Nat.div_one]

/-- The two's complement reading of a bit vector's number is its integer. -/
theorem toSigned_toNat {w : Nat} (x : BitVec w) : toSigned w x.toNat = x.toInt := by
  rw [toSigned_of_lt x.isLt, BitVec.toInt_eq_msb_cond, BitVec.msb_eq_getLsbD_last, BitVec.getLsbD]
  norm_cast

/-- Sign extension of an immediate (R238). -/
theorem extendTo_sign_toNat {sw : Nat} (w : Nat) (x : BitVec sw) : extendTo sw w false x.toNat = (x.signExtend w).toNat := by
  rw [extendTo_sign x.isLt, toSigned_toNat, BitVec.signExtend, BitVec.toNat_ofInt, ofSigned]
  norm_cast

/-! ### Short forms -/

/-- An instruction with no hold of its own completes with what its body answers. -/
theorem completes_of_noHold {i : Instr} {n : Tile → Info} {body : Ctx → Tile → Except Raise Tile} {ok : Ctx → Tile → Prop}
    {g : Ctx → Tile → Tile} (he : ∀ s, exec i s = issue n noHold body s) (hb : ∀ c t, ok c t → body c t = .ok (g c t)) :
    Completes i n ok g :=
  completes_of_body he (fun _ _ _ => rfl) hb

/-- Settles O6: each body answers the stated write, EXT and DEP by the equations of their fields under a legal control word,
MOVI by sign extension. -/
theorem shortFieldsAndMovesComplete : Obligations.ShortFieldsAndMovesComplete := by
  refine fun d a b => ⟨?ext, ?dep, ?mov, fun imm => ⟨?movi, ?movih⟩, fun p => ?sel⟩
  case ext =>
    refine completes_of_noHold (fun _ => rfl) fun c t hok => ?_
    simp [badControl_ext_of_controlOk hok, intExt_eq_extField]
  case dep =>
    refine completes_of_noHold (fun _ => rfl) fun c t ⟨hok, hz⟩ => ?_
    simp [badControl_dep_of_controlOk hok hz, intDep_eq_depField]
  case mov => exact completes_of_noHold (fun _ => rfl) fun _ _ _ => rfl
  case movi => exact completes_of_noHold (fun _ => rfl) fun c t _ => by rw [extendTo_sign_toNat]
  case movih => exact completes_of_noHold (fun _ => rfl) fun _ _ _ => rfl
  case sel => exact completes_of_noHold (fun _ => rfl) fun _ _ _ => rfl

end Sys2Proof.Machine

/-! PROOFS of the family 02_encoding: the words of a legal instruction decode to it. -/

namespace Sys2Proof

set_option linter.unusedSimpArgs false

/-! ### Reserved fields and the routes of the decoder -/

/-- A mask of one field tests that field. -/
theorem resv_eq_need_fld {w : Word} {mask : Nat} (lo n : Nat) (hm : mask = (2 ^ n - 1) * 2 ^ lo) :
    resv w mask = need (fld w lo n == 0) := by
  have hbits : w.toNat &&& mask = (fld w lo n).toNat <<< lo := by
    refine Nat.eq_of_testBit_eq fun i => ?_
    rw [hm, ← Nat.shiftLeft_eq, Nat.testBit_and, Nat.testBit_shiftLeft, Nat.testBit_two_pow_sub_one, Nat.testBit_shiftLeft, fld,
      BitVec.extractLsb'_toNat, Nat.testBit_mod_two_pow, Nat.testBit_shiftRight]
    by_cases hlo : lo ≤ i
    · simp [hlo, Nat.add_sub_cancel' hlo, Bool.and_comm]
    · simp [hlo]
  have hzero : (fld w lo n).toNat <<< lo = 0 ↔ fld w lo n = 0 := by
    simp [Nat.shiftLeft_eq, BitVec.toNat_eq]
  simp [resv, hbits, hzero, Bool.beq_eq_decide_eq]

/-- A mask of two fields tests both. -/
theorem resv_eq_need_flds {w : Word} {mask : Nat} (lo n lo' n' : Nat) (hm :
    mask = (2 ^ n - 1) * 2 ^ lo ||| (2 ^ n' - 1) * 2 ^ lo') :
    resv w mask = need (fld w lo n == 0 && fld w lo' n' == 0) := by
  have hfld {lo n : Nat} : (w.toNat &&& (2 ^ n - 1) * 2 ^ lo) = 0 ↔ fld w lo n = 0 := by
    have h := resv_eq_need_fld (w := w) lo n rfl
    simp only [resv, need, beq_iff_eq] at h
    split at h <;> split at h <;> simp_all
  simp [resv, hm, Nat.and_or_distrib_left, hfld, Bool.beq_eq_decide_eq]

theorem finish_ok {r : Option Nat} {i : Instr} (hr : r = none) (hc : i.cause = none) : finish r i = .ok i := by
  rw [finish, hr, hc]; rfl

theorem withCond_condNum {c : Cond} {r : Option Nat} {k : Cond → Instr} (hr : r = none) (hc : (k c).cause = none) :
    withCond (condNum c) r k = .ok (k c) := by
  cases c <;> exact finish_ok hr hc

theorem withAny_toNat {c : Bool} {r : Option Nat} {k : Bool → Instr} (hr : r = none) (hc : (k c).cause = none) :
    withAny c.toNat r k = .ok (k c) := by
  cases c <;> exact finish_ok hr hc

theorem condNum_mod {c : Cond} {n : Nat} (hn : 10 ≤ n) : condNum c % n = condNum c := by
  cases c <;> exact Nat.mod_eq_of_lt (by simp only [condNum]; omega)

theorem idSelOf_idSelNum (x : IdSel) : idSelOf (idSelNum x % 2 ^ 4) = some x := by cases x <;> rfl

/-- TST's condition is the flag, in the four bits of its field. -/
theorem tst_field (m : BitVec 7) (c : Bool) : (BitVec.extractLsb' 0 4 (m ++ 0#3 ++ BitVec.ofBool c)).toNat = c.toNat := by
  revert m c; decide

theorem tst_cond : ∀ c : Bool, (0#3 ++ BitVec.ofBool c).toNat = c.toNat := by decide

theorem need_eq_none {b : Bool} : need b = none ↔ b = true := by cases b <;> simp [need]

/-! ### Which table a queue's decoder consults (R72) -/

/-- The own maps, by their bounds: what PFX, the tokens and the common integer block leave. -/
theorem decode_own {q : Queue} {w0 w1 : Word} (hl : 0x20 ≤ major w0) (hm : major w0 < 0x5D) :
    decode q w0 w1 = match q with
      | .sq => decodeSq w0
      | .ap => decodeApShort w0
      | .net => decodeNetShort w0
      | .xu | .ce | .mx => .error 3 := by
  have hpfx : ¬major w0 = 0x5F := by omega
  have htok : ¬(major w0 = 0x5D ∨ major w0 = 0x5E) := by omega
  have hint : ¬major w0 < 0x20 := by omega
  have hown : major w0 < 0x60 := by omega
  cases q <;> simp_all [decode, if_neg hint]

theorem decode_ownLong {q : Queue} {w0 w1 : Word} (hm : major w0 = 0x60) :
    decode q w0 w1 = match q with
      | .sq | .ap | .xu => decodeIntLong w0 w1
      | .ce => decodeCeLong w0 w1
      | .mx => decodeMxLong w0 w1
      | .net => decodeNetLong w0 w1 := by
  cases q <;> simp [decode, hm]

theorem decode_wide {q : Queue} {w0 w1 : Word} (hl : 0x64 ≤ major w0) :
    decode q w0 w1 = match q with
      | .ap => decodeApLong w0 w1
      | .xu => decodeXuLong w0 w1
      | .sq | .ce | .mx | .net => .error 3 := by
  have hpfx : ¬major w0 = 0x5F := by omega
  have htok : ¬(major w0 = 0x5D ∨ major w0 = 0x5E) := by omega
  have hint : ¬major w0 < 0x20 := by omega
  have hown : ¬major w0 < 0x60 := by omega
  have hlong : ¬major w0 < 0x64 := by omega
  cases q <;> simp [decode, hpfx, htok, if_neg hint, if_neg hown, if_neg hlong]

theorem decode_token {q : Queue} {w0 w1 : Word} (hm : major w0 = 0x5D ∨ major w0 = 0x5E) : decode q w0 w1 = decodeToken w0 := by
  rcases hm with hm | hm <;> simp [decode, hm]

theorem decode_pfx {q : Queue} {w0 w1 : Word} (hm : major w0 = 0x5F) : decode q w0 w1 = decodePfx w0 := by
  simp [decode, hm]

theorem decode_intShort {q : Queue} {w0 w1 : Word} (hq : (q == .sq || q == .ap || q == .xu) = true) (hm : major w0 < 0x20) :
    decode q w0 w1 = decodeIntShort w0 := by
  have hpfx : ¬major w0 = 0x5F := by omega
  have htok : ¬(major w0 = 0x5D ∨ major w0 = 0x5E) := by omega
  cases q <;> simp_all [decode]

theorem decode_intLong {q : Queue} {w0 w1 : Word} (hq : (q == .sq || q == .ap || q == .xu) = true) (hl : 0x60 ≤ major w0)
    (hm : major w0 < 0x64) : decode q w0 w1 = decodeIntLong w0 w1 := by
  have hpfx : ¬major w0 = 0x5F := by omega
  have htok : ¬(major w0 = 0x5D ∨ major w0 = 0x5E) := by omega
  have hint : ¬major w0 < 0x20 := by omega
  have hown : ¬major w0 < 0x60 := by omega
  cases q <;> simp_all [decode, if_neg hint, if_neg hown]


/-! ### The major opcode, the function and the reserved fields of the long formats (R58 to R65) -/

theorem major_enc3 (maj : BitVec 7) (fn : BitVec 5) (o : Long3) : major (enc3 maj fn o).1 = maj.toNat := by
  simp (disch := omega) only [enc3, major, fld, lo_append, hi_append, whole, Nat.sub_self, BitVec.toNat_ofNat]

theorem fn_enc3 (maj : BitVec 7) (fn : BitVec 5) (o : Long3) : fld (enc3 maj fn o).1 20 5 = fn := by
  simp (disch := omega) only [enc3, fld, lo_append, hi_append, whole, Nat.sub_self, BitVec.toNat_ofNat]

theorem major_encM (maj : BitVec 7) (fn : BitVec 5) (o : LongMem) : major (encM maj fn o).1 = maj.toNat := by
  simp (disch := omega) only [encM, major, fld, lo_append, hi_append, whole, Nat.sub_self, BitVec.toNat_ofNat]

theorem fn_encM (maj : BitVec 7) (fn : BitVec 5) (o : LongMem) : fld (encM maj fn o).1 20 5 = fn := by
  simp (disch := omega) only [encM, fld, lo_append, hi_append, whole, Nat.sub_self, BitVec.toNat_ofNat]

theorem major_encV (maj : BitVec 7) (fn : BitVec 5) (o : LongVec) : major (encV maj fn o).1 = maj.toNat := by
  simp (disch := omega) only [encV, major, fld, lo_append, hi_append, whole, Nat.sub_self, BitVec.toNat_ofNat]

theorem fn_encV (maj : BitVec 7) (fn : BitVec 5) (o : LongVec) : fld (encV maj fn o).1 20 5 = fn := by
  simp (disch := omega) only [encV, fld, lo_append, hi_append, whole, Nat.sub_self, BitVec.toNat_ofNat]

theorem major_encI (fn : BitVec 5) (o : LongImm) : major (encI fn o).1 = 0x62 := by
  simp (disch := omega) only [encI, major, fld, lo_append, hi_append, whole, Nat.sub_self, BitVec.toNat_ofNat]

theorem fn_encI (fn : BitVec 5) (o : LongImm) : fld (encI fn o).1 20 5 = fn := by
  simp (disch := omega) only [encI, fld, lo_append, hi_append, whole, Nat.sub_self, BitVec.toNat_ofNat]

theorem major_encC (fn : BitVec 5) (c : BitVec 4) (o : LongCmp) : major (encC fn c o).1 = 0x63 := by
  simp (disch := omega) only [encC, major, fld, lo_append, hi_append, whole, Nat.sub_self, BitVec.toNat_ofNat]

theorem fn_encC (fn : BitVec 5) (c : BitVec 4) (o : LongCmp) : fld (encC fn c o).1 20 5 = fn := by
  simp (disch := omega) only [encC, fld, lo_append, hi_append, whole, Nat.sub_self, BitVec.toNat_ofNat]

theorem major_encS (o : LongSel) : major (encS o).1 = 0x63 := by
  simp (disch := omega) only [encS, major, fld, lo_append, hi_append, whole, Nat.sub_self, BitVec.toNat_ofNat]

theorem major_encA (fn : BitVec 5) (o : Mat) : major (encA fn o).1 = 0x60 := by
  simp (disch := omega) only [encA, major, fld, lo_append, hi_append, whole, Nat.sub_self, BitVec.toNat_ofNat]

theorem fn_encA (fn : BitVec 5) (o : Mat) : fld (encA fn o).1 20 5 = fn := by
  simp (disch := omega) only [encA, fld, lo_append, hi_append, whole, Nat.sub_self, BitVec.toNat_ofNat]

theorem major_encX (fn : BitVec 5) (o : CopyOp) : major (encX fn o).1 = 0x60 := by
  simp (disch := omega) only [encX, major, fld, lo_append, hi_append, whole, Nat.sub_self, BitVec.toNat_ofNat]

theorem fn_encX (fn : BitVec 5) (o : CopyOp) : fld (encX fn o).1 20 5 = fn := by
  simp (disch := omega) only [encX, fld, lo_append, hi_append, whole, Nat.sub_self, BitVec.toNat_ofNat]

theorem major_encN (o : NetSend) : major (encN o).1 = 0x60 := by
  simp (disch := omega) only [encN, major, fld, lo_append, hi_append, whole, Nat.sub_self, BitVec.toNat_ofNat]

theorem fn_encN (o : NetSend) : fld (encN o).1 20 5 = 0#5 := by
  simp (disch := omega) only [encN, fld, lo_append, hi_append, whole, Nat.sub_self, BitVec.toNat_ofNat]

theorem major_encNi (o : NetSendi) : major (encNi o).1 = 0x60 := by
  simp (disch := omega) only [encNi, major, fld, lo_append, hi_append, whole, Nat.sub_self, BitVec.toNat_ofNat]

theorem fn_encNi (o : NetSendi) : fld (encNi o).1 20 5 = 1#5 := by
  simp (disch := omega) only [encNi, fld, lo_append, hi_append, whole, Nat.sub_self, BitVec.toNat_ofNat]

theorem major_encNr (fn : BitVec 5) (o : NetRecv) : major (encNr fn o).1 = 0x60 := by
  simp (disch := omega) only [encNr, major, fld, lo_append, hi_append, whole, Nat.sub_self, BitVec.toNat_ofNat]

theorem fn_encNr (fn : BitVec 5) (o : NetRecv) : fld (encNr fn o).1 20 5 = fn := by
  simp (disch := omega) only [encNr, fld, lo_append, hi_append, whole, Nat.sub_self, BitVec.toNat_ofNat]

theorem sel_field : ∀ p : BitVec 4, (BitVec.extractLsb' 0 5 (0x63#7 ++ 1#1 ++ p)).toNat = p.toNat + 16 := by decide

/-- SEL's function is its predicate behind a set bit (R59). -/
theorem fn_encS (o : LongSel) : (fld (encS o).1 20 5).toNat = o.p.toNat + 16 := by
  rw [← sel_field]
  simp (disch := omega) only [encS, fld, hi_append, Nat.sub_self]

theorem cond_encC (fn : BitVec 5) (c : BitVec 4) (o : LongCmp) : fld (encC fn c o).2 28 4 = c := by
  simp (disch := omega) only [encC, fld, lo_append, hi_append, whole, Nat.sub_self, BitVec.toNat_ofNat]

theorem resv_encI (fn : BitVec 5) (o : LongImm) : resv (encI fn o).1 0x10000 = none := by
  simp (disch := omega) only [resv_eq_need_fld 16 1 (show 0x10000 = _ from rfl), encI, fld, lo_append, hi_append, whole,
      Nat.sub_self, BitVec.toNat_ofNat]
  rfl

theorem resv_encC (fn : BitVec 5) (c : BitVec 4) (o : LongCmp) : lower (resv (encC fn c o).1 0xf000)
    (resv (encC fn c o).2 0xf00000) = none := by
  simp (disch := omega) only [resv_eq_need_fld 12 4 (show 0xf000 = _ from rfl),
      resv_eq_need_fld 20 4 (show 0xf00000 = _ from rfl), encC, fld, lo_append, hi_append, whole, Nat.sub_self,
      BitVec.toNat_ofNat]
  rfl

theorem resv_encA (fn : BitVec 5) (o : Mat) : resv (encA fn o).2 0xff = none := by
  simp (disch := omega) only [resv_eq_need_fld 0 8 (show 0xff = _ from rfl), encA, fld, lo_append, hi_append, whole,
      Nat.sub_self, BitVec.toNat_ofNat]
  rfl

theorem resv_encX (fn : BitVec 5) (o : CopyOp) : lower (resv (encX fn o).1 0x1000) (resv (encX fn o).2 0xfff) = none := by
  simp (disch := omega) only [resv_eq_need_fld 12 1 (show 0x1000 = _ from rfl),
      resv_eq_need_fld 0 12 (show 0xfff = _ from rfl), encX, fld, lo_append, hi_append, whole, Nat.sub_self, BitVec.toNat_ofNat]
  rfl

theorem resv_encN (o : NetSend) : lower (resv (encN o).1 0x3f) (resv (encN o).2 0xf) = none := by
  simp (disch := omega) only [resv_eq_need_fld 0 6 (show 0x3f = _ from rfl), resv_eq_need_fld 0 4 (show 0xf = _ from rfl),
      encN, fld, lo_append, hi_append, whole, Nat.sub_self, BitVec.toNat_ofNat]
  rfl

theorem resv_encNi (o : NetSendi) : resv (encNi o).1 0x3f = none := by
  simp (disch := omega) only [resv_eq_need_fld 0 6 (show 0x3f = _ from rfl), encNi, fld, lo_append, hi_append, whole,
      Nat.sub_self, BitVec.toNat_ofNat]
  rfl

theorem resv_encNr (fn : BitVec 5) (o : NetRecv) : lower (resv (encNr fn o).1 0x3f) (resv (encNr fn o).2 0xf) = none := by
  simp (disch := omega) only [resv_eq_need_fld 0 6 (show 0x3f = _ from rfl), resv_eq_need_fld 0 4 (show 0xf = _ from rfl),
      encNr, fld, lo_append, hi_append, whole, Nat.sub_self, BitVec.toNat_ofNat]
  rfl

theorem major_encP (p : Pfx) : major (encP p) = 0x5F := by
  simp (disch := omega) only [encP, major, fld, lo_append, hi_append, whole, Nat.sub_self, BitVec.toNat_ofNat]

/-- An optional field with its valid bit reads back, and stands at zero without it (R68). -/
theorem decodePfx_encP (p : Pfx) : decodePfx (encP p) = .ok (.pfx p) := by
  obtain ⟨rm, sat, ocl, ecl, wc⟩ := p
  simp (disch := omega) only [decodePfx, resv_eq_need_fld 0 10 (show 0x3FF = _ from rfl), encP, fld, lo_append, hi_append,
      whole, Nat.sub_self, BitVec.toNat_ofNat,
    bit_append_lo, bit_append_hi, bit_ofBool]
  cases rm <;> cases sat <;> cases ocl <;> cases ecl <;> exact finish_ok rfl rfl


/-- Every queue's map holds the tokens and PFX (R68, R80). -/
theorem decode_encode_everywhere {i : Instr} (q : Queue) (hsq : i.inQueue .sq = true) (hce : i.inQueue .ce = true)
    (hc : i.cause = none) : decode q (encode i).1 (encode i).2 = .ok i := by
  cases i
  case waitt | sigt =>
    rw [encode, decode_token]
    · simp (disch := omega) only [decodeToken, major, fld, lo_append, hi_append, whole, Nat.sub_self, BitVec.toNat_ofNat,
        resv_eq_need_fld 8 14 (show 0x3fff00 = _ from rfl)]
      exact finish_ok rfl hc
    all_goals simp (disch := omega) only [major, fld, lo_append, hi_append, whole, Nat.sub_self, BitVec.toNat_ofNat]; decide
  case pfx p =>
    rw [encode, decode_pfx (major_encP p)]
    exact decodePfx_encP p
  all_goals exact nomatch hsq, hce

/-- The common integer block (R73). -/
theorem decode_encode_block {i : Instr} {q : Queue} (hsq : i.inQueue .sq = true) (hother :
    (i.inQueue .ap || i.inQueue .xu) = true) (hce : i.inQueue .ce = false)
    (hq : i.inQueue q = true)
    (hc : i.cause = none) : decode q (encode i).1 (encode i).2 = .ok i := by
  cases i
  case add | sub | mul | mulh | mulhz | div | divz | rem | remz | min | max | minz | maxz | and | or | xor | andn | shl | shr |
      sar | rotl | neg | abs | not | clz | ctz | popc | brev | mov | satn | crng16 | crng32 | ext | dep | addi | movi | movih
      | sel | pand | por | pxor | pnot | pmov | ppack | punpack | tagset | tagget =>
    rw [encode, decode_intShort hq]
    · simp (disch := omega) only [decodeIntShort, major, fld, lo_append, hi_append, whole, Nat.sub_self, BitVec.toNat_ofNat,
        bit_append_lo, bit_append_hi, bit_ofBool,
        resv_eq_need_fld 0 7 (show 0x7f = _ from rfl), resv_eq_need_fld 5 1 (show 0x20 = _ from rfl),
            resv_eq_need_fld 0 9 (show 0x1ff = _ from rfl), resv_eq_need_fld 0 13 (show 0x1fff = _ from rfl),
            resv_eq_need_fld 0 14 (show 0x3fff = _ from rfl), resv_eq_need_flds 0 2 7 7 (show 0x3f83 = _ from rfl)]
      exact finish_ok rfl hc
    all_goals simp (disch := omega) only [major, fld, lo_append, hi_append, whole, Nat.sub_self, BitVec.toNat_ofNat]; omega
  case cmp | cmpi =>
    rw [encode, decode_intShort hq]
    · simp (disch := omega) only [decodeIntShort, major, fld, lo_append, hi_append, whole, Nat.sub_self, BitVec.toNat_ofNat,
        condNum_mod,
        resv_eq_need_fld 0 3 (show 0x7 = _ from rfl)]
      refine withCond_condNum rfl ?_
      exact hc
    all_goals simp (disch := omega) only [major, fld, lo_append, hi_append, whole, Nat.sub_self, BitVec.toNat_ofNat]; omega
  case tst =>
    rw [encode, decode_intShort hq]
    · simp (disch := omega) only [decodeIntShort, major, fld, lo_append, hi_append, whole, Nat.sub_self, BitVec.toNat_ofNat,
        tst_field,
        resv_eq_need_fld 0 3 (show 0x7 = _ from rfl)]
      refine withAny_toNat rfl ?_
      exact hc
    all_goals simp (disch := omega) only [major, fld, lo_append, hi_append, whole, Nat.sub_self, BitVec.toNat_ofNat]; omega
  case addLong | subLong | mulLong | mulhLong | mulhzLong | divLong | divzLong | remLong | remzLong | minLong | maxLong |
      minzLong | maxzLong | andLong | orLong | xorLong | andnLong | shlLong | shrLong | sarLong | rotlLong | negLong | absLong
      | notLong | clzLong | ctzLong | popcLong | brevLong | movLong | satnLong | crng16Long | crng32Long | extLong | depLong =>
    rw [encode, decode_intLong hq]
    · simp only [decodeIntLong, major_enc3, fn_enc3, long3_enc3, BitVec.toNat_ofNat, BitVec.ofNat_eq_ofNat]
      exact finish_ok rfl hc
    all_goals simp only [major_enc3]; decide
  case moviLong | movihLong =>
    rw [encode, decode_intLong hq]
    · simp only [decodeIntLong, major_encI, fn_encI, longImm_encI, BitVec.toNat_ofNat, BitVec.ofNat_eq_ofNat, resv_encI]
      exact finish_ok rfl hc
    all_goals simp only [major_encI]; decide
  case cmpLong =>
    rw [encode, decode_intLong hq]
    · simp (disch := decide) only [decodeIntLong, major_encC, fn_encC, longCmp_encC, BitVec.toNat_ofNat, BitVec.ofNat_eq_ofNat,
        resv_encC, cond_encC, condNum_mod]
      refine withCond_condNum rfl ?_
      exact hc
    all_goals simp only [major_encC]; decide
  case tstLong =>
    rw [encode, decode_intLong hq]
    · simp (disch := decide) only [decodeIntLong, major_encC, fn_encC, longCmp_encC, BitVec.toNat_ofNat, BitVec.ofNat_eq_ofNat,
        resv_encC, cond_encC, tst_cond]
      refine withAny_toNat rfl ?_
      exact hc
    all_goals simp only [major_encC]; decide
  case selLong =>
    rw [encode, decode_intLong hq]
    · simp only [decodeIntLong, major_encS, fn_encS, longSel_encS, BitVec.toNat_ofNat, BitVec.ofNat_eq_ofNat]
      exact (if_pos (Nat.le_add_left 16 _)).trans (finish_ok rfl hc)
    all_goals simp only [major_encS]; decide
  all_goals exact nomatch hsq, hother, hce

/-- The sequencer's own map (R74). -/
theorem decode_encode_sq {i : Instr} (hsq : i.inQueue .sq = true) (hap : i.inQueue .ap = false) {q : Queue} (hq :
    i.inQueue q = true)
    (hc : i.cause = none) : decode q (encode i).1 (encode i).2 = .ok i := by
  cases i
  case pbr | pbrs | br | call | ret | lbrk | ovl | penlift | trap | rdclk | csrrd | csrwr | brk =>
    obtain rfl : q = .sq := eq_of_beq hq
    rw [encode, decode_own]
    · simp (disch := omega) only [decodeSq, major, fld, lo_append, hi_append, whole, Nat.sub_self, BitVec.toNat_ofNat,
        bit_append_lo, bit_append_hi, bit_ofBool,
        resv_eq_need_fld 13 9 (show 0x3fe000 = _ from rfl), resv_eq_need_fld 7 15 (show 0x3fff80 = _ from rfl),
            resv_eq_need_fld 0 16 (show 0xffff = _ from rfl), resv_eq_need_flds 0 16 22 3 (show 0x1c0ffff = _ from rfl),
            resv_eq_need_fld 0 18 (show 0x3ffff = _ from rfl), resv_eq_need_fld 0 17 (show 0x1ffff = _ from rfl),
            resv_eq_need_fld 12 13 (show 0x1fff000 = _ from rfl), resv_eq_need_fld 16 9 (show 0x1ff0000 = _ from rfl),
            resv_eq_need_flds 0 14 21 4 (show 0x1e03fff = _ from rfl), resv_eq_need_fld 0 6 (show 0x3f = _ from rfl)]
      exact finish_ok rfl hc
    all_goals simp (disch := omega) only [major, fld, lo_append, hi_append, whole, Nat.sub_self, BitVec.toNat_ofNat]; omega
  case loopImm | loopReg | waitc | waitcUntil =>
    obtain rfl : q = .sq := eq_of_beq hq
    rw [encode, decode_own]
    · simp (disch := omega) only [decodeSq, major, fld, lo_append, hi_append, whole, Nat.sub_self, BitVec.toNat_ofNat,
        bit_append_lo, bit_append_hi, bit_ofBool,
        resv_eq_need_fld 17 5 (show 0x3e0000 = _ from rfl), resv_eq_need_fld 7 17 (show 0xffff80 = _ from rfl)]
      exact finish_ok rfl hc
    all_goals simp (disch := omega) only [major, fld, lo_append, hi_append, whole, Nat.sub_self, BitVec.toNat_ofNat]; omega
  case rdid =>
    obtain rfl : q = .sq := eq_of_beq hq
    rw [encode, decode_own]
    · simp (disch := omega) only [decodeSq, major, fld, lo_append, hi_append, whole, Nat.sub_self, BitVec.toNat_ofNat,
        idSelOf_idSelNum,
        resv_eq_need_fld 0 14 (show 0x3fff = _ from rfl)]
      exact finish_ok rfl hc
    all_goals simp (disch := omega) only [major, fld, lo_append, hi_append, whole, Nat.sub_self, BitVec.toNat_ofNat]; omega
  case nop | halt | ifence | tret =>
    obtain rfl : q = .sq := eq_of_beq hq
    rfl
  all_goals exact nomatch hsq, hap

/-- The access processor's own map (R75). -/
theorem decode_encode_ap {i : Instr} (hap : i.inQueue .ap = true) (hsq : i.inQueue .sq = false)
    (hc : i.cause = none) : decode .ap (encode i).1 (encode i).2 = .ok i := by
  cases i
  case ld | st | fence | sfence | probe | unpin =>
    rw [encode, decode_own]
    · simp (disch := omega) only [decodeApShort, major, fld, lo_append, hi_append, whole, Nat.sub_self, BitVec.toNat_ofNat,
        bit_append_lo, bit_append_hi, bit_ofBool,
        resv_eq_need_fld 22 1 (show 0x400000 = _ from rfl), resv_eq_need_fld 16 9 (show 0x1ff0000 = _ from rfl),
            resv_eq_need_fld 18 7 (show 0x1fc0000 = _ from rfl), resv_eq_need_fld 0 6 (show 0x3f = _ from rfl),
            resv_eq_need_fld 0 20 (show 0xfffff = _ from rfl)]
      exact finish_ok rfl hc
    all_goals simp (disch := omega) only [major, fld, lo_append, hi_append, whole, Nat.sub_self, BitVec.toNat_ofNat]; omega
  case ldLong | stLong | spill | fill | ldx | stx | atomAdd | atomMin | atomMax | atomAnd | atomOr | atomXor | atomXchg |
      atomCas | atomFadd | atomMinZ | atomMaxZ | ratomAdd | ratomMin | ratomMax | ratomAnd | ratomOr | ratomXor | ratomXchg |
      ratomCas | ratomFadd | ratomMinZ | ratomMaxZ =>
    rw [encode, decode_wide]
    · simp only [decodeApLong, major_encM, fn_encM, longMem_encM, BitVec.toNat_ofNat, BitVec.ofNat_eq_ofNat]
      exact finish_ok rfl hc
    all_goals simp only [major_encM]; decide
  case waita =>
    rw [encode, decode_wide]
    · simp (disch := decide) only [decodeApLong, major_encM, fn_encM, longMem_encM, BitVec.toNat_ofNat, BitVec.ofNat_eq_ofNat,
        condNum_mod]
      refine withCond_condNum rfl ?_
      exact hc
    all_goals simp only [major_encM]; decide
  all_goals exact nomatch hap, hsq

/-- The execute unit's own map (R76). -/
theorem decode_encode_xu {i : Instr} (hxu : i.inQueue .xu = true) (hsq : i.inQueue .sq = false)
    (hc : i.cause = none) : decode .xu (encode i).1 (encode i).2 = .ok i := by
  cases i
  case vadd | vsub | vmul | vfma | vfms | vneg | vabs | vmin | vmax | vcmp | vsel | vcvt | vrcp | vrsq | vsqrt | vexp2 | vlog2
      | vsum | vmaxr | vminr | vdot | vclamp | vscl | viadd | visub | vimul | vshl | vshr | vand | vor | vxor | vshuf | vbcast
      | vslide | vzip | vunzip | ddq | dscale =>
    rw [encode, decode_wide]
    · simp only [decodeXuLong, major_encV, fn_encV, longVec_encV, BitVec.toNat_ofNat, BitVec.ofNat_eq_ofNat]
      exact finish_ok rfl hc
    all_goals simp only [major_encV]; decide
  case dqntSurvey o =>
    have hx : o.x.toNat % 4 = 0 := by
      simp only [Instr.cause, need_eq_none, Bool.and_eq_true, beq_iff_eq] at hc
      exact hc.1.1.1.2
    rw [encode, decode_wide]
    · simp only [decodeXuLong, major_encV, fn_encV, longVec_encV, BitVec.toNat_ofNat, BitVec.ofNat_eq_ofNat, hx]
      exact finish_ok rfl hc
    all_goals simp only [major_encV]; decide
  case dqntHead o =>
    have hx : o.x.toNat % 4 = 1 := by
      simp only [Instr.cause, need_eq_none, Bool.and_eq_true, beq_iff_eq] at hc
      exact by simp [hc.1.1.1.2]
    rw [encode, decode_wide]
    · simp only [decodeXuLong, major_encV, fn_encV, longVec_encV, BitVec.toNat_ofNat, BitVec.ofNat_eq_ofNat, hx]
      exact finish_ok rfl hc
    all_goals simp only [major_encV]; decide
  case dqntQ o =>
    have hx : o.x.toNat % 4 = 2 := by
      simp only [Instr.cause, need_eq_none, Bool.and_eq_true, beq_iff_eq] at hc
      exact hc.1.1.1.1.2
    rw [encode, decode_wide]
    · simp only [decodeXuLong, major_encV, fn_encV, longVec_encV, BitVec.toNat_ofNat, BitVec.ofNat_eq_ofNat, hx]
      exact finish_ok rfl hc
    all_goals simp only [major_encV]; decide
  all_goals exact nomatch hxu, hsq

/-- The matrix engine's map (R77). -/
theorem decode_encode_mx {i : Instr} (hmx : i.inQueue .mx = true) (hsq : i.inQueue .sq = false)
    (hc : i.cause = none) : decode .mx (encode i).1 (encode i).2 = .ok i := by
  cases i
  case mma | wld | accz | accrd | accwr | accadd | accsc =>
    rw [encode, decode_ownLong (major_encA ..)]
    simp only [decodeMxLong, major_encA, fn_encA, mat_encA, BitVec.toNat_ofNat, BitVec.ofNat_eq_ofNat, resv_encA]
    exact finish_ok rfl hc
  all_goals exact nomatch hmx, hsq

/-- The copy engine's map (R78). -/
theorem decode_encode_ce {i : Instr} (hce : i.inQueue .ce = true) (hsq : i.inQueue .sq = false)
    (hc : i.cause = none) : decode .ce (encode i).1 (encode i).2 = .ok i := by
  cases i
  case cpy | cpyh | cpyw | cpyt | gath | scat | cpysf | sigw | bcst | coll | inkc | inkf | timld =>
    rw [encode, decode_ownLong (major_encX ..)]
    simp only [decodeCeLong, major_encX, fn_encX, copyOp_encX, BitVec.toNat_ofNat, BitVec.ofNat_eq_ofNat, resv_encX]
    exact finish_ok rfl hc
  all_goals exact nomatch hce, hsq

/-- The network interface's map (R65, R79). -/
theorem decode_encode_net {i : Instr} (hnet : i.inQueue .net = true) (hsq : i.inQueue .sq = false)
    (hc : i.cause = none) : decode .net (encode i).1 (encode i).2 = .ok i := by
  cases i
  case bar | bara | barw =>
    rw [encode, decode_own]
    · simp (disch := omega) only [decodeNetShort, major, fld, lo_append, hi_append, whole, Nat.sub_self, BitVec.toNat_ofNat,
        resv_eq_need_fld 0 20 (show 0xfffff = _ from rfl)]
      exact finish_ok rfl hc
    all_goals simp (disch := omega) only [major, fld, lo_append, hi_append, whole, Nat.sub_self, BitVec.toNat_ofNat]; omega
  case send =>
    rw [encode, decode_ownLong (major_encN ..)]
    simp only [decodeNetLong, major_encN, fn_encN, netSend_encN, BitVec.toNat_ofNat, BitVec.ofNat_eq_ofNat, resv_encN]
    exact finish_ok rfl hc
  case sendi =>
    rw [encode, decode_ownLong (major_encNi ..)]
    simp only [decodeNetLong, major_encNi, fn_encNi, netSendi_encNi, BitVec.toNat_ofNat, BitVec.ofNat_eq_ofNat, resv_encNi]
    exact finish_ok rfl hc
  case recv | recvw =>
    rw [encode, decode_ownLong (major_encNr ..)]
    simp only [decodeNetLong, major_encNr, fn_encNr, netRecv_encNr, BitVec.toNat_ofNat, BitVec.ofNat_eq_ofNat, resv_encNr]
    exact finish_ok rfl hc
  all_goals exact nomatch hnet, hsq

/-- Settles O42: the tables, each for the queues that hold it. -/
theorem encodedInstructionDecodes : Obligations.EncodedInstructionDecodes := by
  intro i q hq hc
  cases hsq : i.inQueue .sq with
  | false =>
    cases q with
    | sq => exact absurd hq (by simp [hsq])
    | ap => exact decode_encode_ap hq hsq hc
    | xu => exact decode_encode_xu hq hsq hc
    | ce => exact decode_encode_ce hq hsq hc
    | mx => exact decode_encode_mx hq hsq hc
    | net => exact decode_encode_net hq hsq hc
  | true =>
    cases hce : i.inQueue .ce with
    | true => exact decode_encode_everywhere q hsq hce hc
    | false =>
      cases hother : i.inQueue .ap || i.inQueue .xu with
      | true => exact decode_encode_block hsq hother hce hq hc
      | false => exact decode_encode_sq hsq (Bool.or_eq_false_iff.1 hother).1 hq hc

end Sys2Proof

/-! PROOFS of the family 08_arith_scalar: the integer instructions land what the rules say. -/

namespace Sys2Proof.Machine

/-! ### Bounds of the sources -/

theorem bitsAt_lt (v pos w : Nat) : bitsAt v pos w < 2 ^ w := Nat.mod_lt _ (Nat.two_pow_pos w)

theorem word_lt (t : Tile) (n : BitVec 7) : t.word n < 2 ^ 32 := bitsAt_lt ..

theorem ofSigned_lt (w : Nat) (x : Int) : ofSigned w x < 2 ^ w := by
  have hpos : (0 : Int) < 2 ^ w := by positivity
  have hlt := Int.emod_lt_of_pos x hpos
  have hnonneg := Int.emod_nonneg x hpos.ne'
  rw [ofSigned]
  zify
  rwa [Int.toNat_of_nonneg hnonneg]

theorem extendTo_lt (sw w : Nat) (zero : Bool) (v : Nat) : extendTo sw w zero v < 2 ^ w := by
  unfold extendTo
  split
  · exact Nat.mod_lt _ (Nat.two_pow_pos w)
  case isFalse hw =>
    split
    · exact (Nat.mod_lt _ (Nat.two_pow_pos sw)).trans_le (Nat.pow_le_pow_right (by omega) (by omega))
    · exact ofSigned_lt ..

theorem ofSigned_toSigned {w v : Nat} (hv : v < 2 ^ w) : ofSigned w (toSigned w v) = v := by
  rw [← extendTo_sign hv, extendTo, if_pos (Nat.le_refl w), Nat.mod_eq_of_lt hv]

/-! ### The shapes of the short and the long forms -/

/-- A short form with two sources lands what its operation gives words of 32 bits. -/
theorem shortResult_of {i : Instr} {least lat : Nat} {sv : Bool} {d a b : BitVec 7} {f : IntFn} {r : Bool → Nat → Nat → Rounded}
    (he : ∀ s, exec i s = issue (short3Info least sv d a b) noHold (short3Body lat f d a b) s)
    (hr : ∀ sat x y, x < 2 ^ 32 → y < 2 ^ 32 → f sat x y = r sat x y) : ShortResult i least sv d a b lat r :=
  completes_of_noHold he fun c t _ => by rw [short3Body, hr c.sat _ _ (word_lt t a) (word_lt t b)]

/-- A short form with one source. -/
theorem shortResult1_of {i : Instr} {sv : Bool} {d a : BitVec 7} {f : IntFn} {r : Bool → Nat → Rounded}
    (he : ∀ s, exec i s = issue (short2Info sv d a) noHold (short2Body f d a) s)
    (hr : ∀ sat x, x < 2 ^ 32 → f sat x 0 = r sat x) : ShortResult1 i sv d a r :=
  completes_of_noHold he fun c t _ => by rw [short2Body, hr c.sat _ (word_lt t a)]

/-- A long form with two sources lands what its operation gives numbers of the width of d. -/
theorem longResult_of {i : Instr} {least lat : Nat} {sv : Bool} {o : Long3} {f : Nat → IntFn} {r : Bool → Nat → Nat → Rounded}
    (he : ∀ s, exec i s = issue (long3Info i.cause least sv o) noHold (long3Body lat f o) s)
    (hr : ∀ sat x y, x < 2 ^ o.dBits → y < 2 ^ o.dBits → f o.dBits sat x y = r sat x y) : LongResult i least sv o lat r :=
  completes_of_noHold he fun c t _ => by
    rw [long3Body, longLand, hr c.sat (o.srcA t o.dBits) (o.srcB t o.dBits) (extendTo_lt ..) (extendTo_lt ..)]
    rfl

/-- A long form with one source. -/
theorem longResult1_of {i : Instr} {sv : Bool} {o : Long3} {f : Nat → IntFn} {r : Bool → Nat → Rounded}
    (he : ∀ s, exec i s = issue (long2Info i.cause sv false o) noHold (long2Body f o) s)
    (hr : ∀ sat x, x < 2 ^ o.dBits → f o.dBits sat x 0 = r sat x) : LongResult1 i sv o r :=
  completes_of_noHold he fun c t _ => by rw [long2Body, longLand, hr c.sat (o.srcA t o.dBits) (extendTo_lt ..)]; rfl

theorem longShift_of {i : Instr} {o : Long3} {f : Nat → IntFn} {r : Nat → Nat → Nat}
    (he : ∀ s, exec i s = issue (longOwnInfo i.cause true o) noHold (longShiftBody f o) s)
    (hr : ∀ x n, f o.dBits false x n = (r x n, none)) : LongShift i o r :=
  completes_of_noHold he fun c t _ => by rw [longShiftBody, longLand, hr]; rfl

theorem longCount_of {i : Instr} {o : Long3} {f : Nat → IntFn} {r : Nat → Nat → Nat}
    (he : ∀ s, exec i s = issue (long2Info i.cause false true o) noHold (longCountBody f o) s)
    (hr : ∀ w x, f w false x 0 = (r w x, none)) : LongCount i o r :=
  completes_of_noHold he fun c t _ => by rw [longCountBody, longLand, hr]; rfl

/-! ### Sums, products and divisions (R229, R230) -/

theorem intMinz_eq (w : Nat) (sat : Bool) (x y : Nat) : intMinz w sat x y = (Nat.min x y, none) := by
  have hmin : Nat.min x y = min x y := rfl
  rw [intMinz, hmin]
  congr 1
  split <;> omega

theorem intMaxz_eq (w : Nat) (sat : Bool) (x y : Nat) : intMaxz w sat x y = (Nat.max x y, none) := by
  have hmax : Nat.max x y = max x y := rfl
  rw [intMaxz, hmax]
  congr 1
  split <;> omega

theorem intRem_eq (w : Nat) (sat : Bool) (x y : Nat) : intRem w sat x y =
    if y = 0 then (x, some 0)
    else (((toSigned w x - toSigned w y * (toSigned w x).tdiv (toSigned w y)) % 2 ^ w).toNat, none) := by
  rw [intRem, ofSigned, Int.tmod_def]

theorem intRemz_eq (w : Nat) (sat : Bool) (x y : Nat) : intRemz w sat x y =
    if y = 0 then (x, some 0) else (x - y * (x / y), none) := by
  rw [intRemz, Nat.mod_eq_sub]

/-- The quotient that overflows 32 bits: wrapped, or the largest with its event. -/
theorem fit_divOverflow (sat : Bool) : fit (2 ^ (32 - 1)) 32 true sat = if sat then (2 ^ 31 - 1, some 3) else (2 ^ 31, none) := by
  cases sat <;> rfl

/-- Settles O2: each operation is the stated one by definition, up to the spelling of the smaller and the larger. -/
theorem shortArithmeticCompletes : Obligations.ShortArithmeticCompletes := by
  refine fun d a b => ⟨?add, ?sub, ?mul, ?mulh, ?mulhz, ?min, ?max, ?minz, ?maxz, ?neg, ?abs, fun imm => ?addi⟩
  case minz => exact shortResult_of (fun _ => rfl) fun sat x y _ _ => intMinz_eq 32 sat x y
  case maxz => exact shortResult_of (fun _ => rfl) fun sat x y _ _ => intMaxz_eq 32 sat x y
  case neg | abs => exact shortResult1_of (fun _ => rfl) fun _ _ _ => rfl
  case addi => exact shortResult1_of (fun _ => rfl) fun _ _ _ => by rw [toSigned_toNat]
  all_goals exact shortResult_of (fun _ => rfl) fun _ _ _ _ _ => rfl

/-- Settles O3: the overflowing quotient by its two ends, the remainders by division with remainder. -/
theorem shortDivisionCompletes : Obligations.ShortDivisionCompletes := by
  refine fun d a b => ⟨?div, ?divz, ?rem, ?remz⟩
  case div => exact shortResult_of (fun _ => rfl) fun sat x y _ _ => by rw [intDiv, fit_divOverflow]; rfl
  case divz => exact shortResult_of (fun _ => rfl) fun _ _ _ _ _ => rfl
  case rem => exact shortResult_of (fun _ => rfl) fun sat x y _ _ => intRem_eq 32 sat x y
  case remz => exact shortResult_of (fun _ => rfl) fun sat x y _ _ => intRemz_eq 32 sat x y

/-- Settles O9: each operation at the width of d, and the remainders by division with remainder. -/
theorem longArithmeticCompletes : Obligations.LongArithmeticCompletes := by
  refine fun o => ⟨?add, ?sub, ?mul, ?mulh, ?mulhz, ?div, ?divz, ?rem, ?remz, ?min, ?max, ?minz, ?maxz, ?neg, ?abs⟩
  case add | sub | mul =>
    refine longResult_of (fun _ => rfl) fun sat x y _ _ => ?_
    cases o.sxa <;> rfl
  case rem => exact longResult_of (fun _ => rfl) fun sat x y _ _ => intRem_eq _ sat x y
  case remz => exact longResult_of (fun _ => rfl) fun sat x y _ _ => intRemz_eq _ sat x y
  case minz => exact longResult_of (fun _ => rfl) fun sat x y _ _ => intMinz_eq _ sat x y
  case maxz => exact longResult_of (fun _ => rfl) fun sat x y _ _ => intMaxz_eq _ sat x y
  case neg | abs => exact longResult1_of (fun _ => rfl) fun _ _ _ => rfl
  all_goals exact longResult_of (fun _ => rfl) fun _ _ _ _ _ => rfl

/-! ### Logic and shifts (R231, R232) -/

theorem intAndn_eq {w y : Nat} (hy : y < 2 ^ w) (sat : Bool) (x : Nat) : intAndn w sat x y = (x &&& (2 ^ w - 1 - y), none) := by
  rw [intAndn, Nat.mod_eq_of_lt hy]

theorem intNot_eq {w x : Nat} (hx : x < 2 ^ w) (sat : Bool) (y : Nat) : intNot w sat x y = (2 ^ w - 1 - x, none) := by
  rw [intNot, Nat.mod_eq_of_lt hx]

theorem intShl_eq (w : Nat) (sat : Bool) (x n : Nat) : intShl w sat x n = (if w ≤ n then 0 else x * 2 ^ n % 2 ^ w, none) := by
  rw [intShl, Nat.shiftLeft_eq]

theorem intShr_eq (w : Nat) (sat : Bool) (x n : Nat) : intShr w sat x n = (if w ≤ n then 0 else x / 2 ^ n, none) := by
  rw [intShr, Nat.shiftRight_eq_div_pow]

theorem intRotl_eq (w : Nat) (sat : Bool) (x n : Nat) :
    intRotl w sat x n = ((x * 2 ^ (n % w) ||| x / 2 ^ (w - n % w)) % 2 ^ w, none) := by
  simp only [intRotl, Nat.shiftLeft_eq, Nat.shiftRight_eq_div_pow]

/-! ### Bit counts and bit reversal (R233) -/

/-- CLZ counts the zero bits above the highest one. -/
theorem intClz_spec {w x : Nat} (hx : x < 2 ^ w) (sat : Bool) (y : Nat) :
    (intClz w sat x y).1 ≤ w ∧ (∀ i < (intClz w sat x y).1, x.testBit (w - 1 - i) = false)
      ∧ ((intClz w sat x y).1 < w → x.testBit (w - 1 - (intClz w sat x y).1) = true) := by
  simp only [intClz]
  split
  case isTrue h0 => simp [h0]
  case isFalse h0 =>
    have hlog : Nat.log2 x < w := (Nat.log2_lt h0).2 hx
    refine ⟨by omega, fun i hi => ?_, fun _ => ?_⟩
    · exact Nat.testBit_lt_two_pow ((Nat.lt_log2_self).trans_le (Nat.pow_le_pow_right (by omega) (by omega)))
    · rw [show w - 1 - (w - 1 - Nat.log2 x) = Nat.log2 x by omega]
      exact Nat.testBit_log2 h0

theorem lowZeros_le (x n : Nat) : lowZeros x n ≤ n := by
  induction n generalizing x with
  | zero => exact Nat.le_refl 0
  | succ n ih =>
    rw [lowZeros]
    have := ih (x / 2)
    split <;> omega

theorem testBit_of_lt_lowZeros {x n i : Nat} (hi : i < lowZeros x n) : x.testBit i = false := by
  induction n generalizing x i with
  | zero => exact absurd hi (Nat.not_lt_zero i)
  | succ n ih =>
    rw [lowZeros] at hi
    split at hi
    · exact absurd hi (Nat.not_lt_zero i)
    case isFalse hodd =>
      cases i with
      | zero => simp [hodd]
      | succ i => rw [Nat.testBit_succ]; exact ih (by omega)

theorem testBit_lowZeros {x n : Nat} (h : lowZeros x n < n) : x.testBit (lowZeros x n) = true := by
  induction n generalizing x with
  | zero => exact absurd h (Nat.not_lt_zero _)
  | succ n ih =>
    rw [lowZeros] at h ⊢
    split at h
    case isTrue hodd => simp [hodd]
    case isFalse hodd => rw [if_neg hodd, Nat.testBit_succ]; exact ih (by omega)

theorem lowZeros_eq_find (x w : Nat) : lowZeros x w = ((List.range w).find? fun i => x.testBit i).getD w := by
  have hle := lowZeros_le x w
  rcases Nat.lt_or_ge (lowZeros x w) w with hlt | hge
  · rw [(List.find?_range_eq_some (i := lowZeros x w)).2 ⟨testBit_lowZeros hlt, by simpa, fun j hj => by
      simp [testBit_of_lt_lowZeros hj]⟩]
    rfl
  · rw [List.find?_range_eq_none.2 fun i hi => by simp [testBit_of_lt_lowZeros (hi.trans_le hge)]]
    exact Nat.le_antisymm hle hge

theorem oneBits_eq_countP (x w : Nat) : oneBits x w = (List.range w).countP fun i => x.testBit i := by
  induction w generalizing x with
  | zero => rfl
  | succ w ih =>
    rw [oneBits, ih, List.range_succ_eq_map, List.countP_cons, List.countP_map]
    have hbit : x % 2 = if x.testBit 0 = true then 1 else 0 := by
      rw [Nat.testBit_zero]; split <;> simp_all
    rw [hbit, Nat.add_comm]
    congr 1
    exact List.countP_congr fun i _ => by simp [Nat.testBit_succ]

/-- Bit i of the low n bits in reverse order above an accumulator. -/
theorem testBit_revBits (x n acc i : Nat) :
    (revBits x n acc).testBit i = if i < n then x.testBit (n - 1 - i) else acc.testBit (i - n) := by
  induction n generalizing x acc with
  | zero => simp [revBits]
  | succ n ih =>
    rw [revBits, ih]
    rcases Nat.lt_trichotomy i n with hi | rfl | hi
    · rw [if_pos hi, if_pos (by omega), ← Nat.testBit_succ]
      congr 1; omega
    · simp
    · rw [if_neg (by omega), if_neg (by omega), show i - n = i - (n + 1) + 1 by omega, Nat.testBit_succ]
      congr 1; omega

theorem revBits_lt (x n : Nat) : revBits x n 0 < 2 ^ n :=
  Nat.lt_pow_two_of_testBit _ fun i hi => by simp [testBit_revBits, Nat.not_lt.2 hi]

/-- The low bits of a number as a sum of powers of two. -/
theorem sum_testBit (x w : Nat) : ((List.range w).map fun i => if x.testBit i then 2 ^ i else 0).sum = x % 2 ^ w := by
  induction w with
  | zero => simp [Nat.mod_one]
  | succ w ih =>
    rw [List.range_succ, List.map_append, List.sum_append, ih, Nat.mod_pow_succ, ← Nat.toNat_testBit]
    cases hbit : x.testBit w <;> simp [hbit]

theorem revBits_eq_sum (x w : Nat) :
    revBits x w 0 = ((List.range w).map fun i => if x.testBit (w - 1 - i) then 2 ^ i else 0).sum := by
  rw [← Nat.mod_eq_of_lt (revBits_lt x w), ← sum_testBit]
  congr 1
  refine List.map_congr_left fun i hi => ?_
  rw [testBit_revBits, if_pos (List.mem_range.1 hi)]

/-- Settles O4: logic and shifts by their equations, and the counts bit by bit. -/
theorem shortLogicShiftsAndCountsComplete : Obligations.ShortLogicShiftsAndCountsComplete := by
  refine ⟨fun d a b => ⟨?and, ?or, ?xor, ?andn, ?not, ?shl, ?shr, ?sar, ?rotl⟩,
    fun x => (intClz 32 false x 0).1, fun x => lowZeros x 32, fun x => oneBits x 32, fun x => revBits x 32 0,
    fun x hx => ⟨?clzSpec, ?ctzSpec, ?popcSpec, ?brevSpec⟩, fun d a => ⟨?clz, ?ctz, ?popc, ?brev⟩⟩
  case and | or | xor => exact shortResult_of (fun _ => rfl) fun _ _ _ _ _ => rfl
  case andn => exact shortResult_of (fun _ => rfl) fun sat x _ _ hy => intAndn_eq hy sat x
  case not => exact shortResult1_of (fun _ => rfl) fun sat _ hx => intNot_eq hx sat 0
  case shl => exact shortResult_of (fun _ => rfl) fun sat x n _ _ => intShl_eq 32 sat x n
  case shr => exact shortResult_of (fun _ => rfl) fun sat x n _ _ => intShr_eq 32 sat x n
  case sar => exact shortResult_of (fun _ => rfl) fun _ _ _ _ _ => rfl
  case rotl => exact shortResult_of (fun _ => rfl) fun sat x n _ _ => intRotl_eq 32 sat x n
  case clzSpec => exact intClz_spec hx false 0
  case ctzSpec => exact ⟨lowZeros_le x 32, fun _ => testBit_of_lt_lowZeros, testBit_lowZeros⟩
  case popcSpec => exact oneBits_eq_countP x 32
  case brevSpec => exact ⟨revBits_lt x 32, fun i hi => by rw [testBit_revBits, if_pos hi]⟩
  case clz | ctz | popc | brev => exact shortResult1_of (fun _ => rfl) fun _ _ _ => rfl

/-! ### SATN and the generators (R245, R248 to R250) -/

/-- The integer that SATN leaves as it is comes back as the source's own bits. -/
theorem intSatn_eq {w x : Nat} (hx : x < 2 ^ w) (z : Bool) (n : Nat) (sat : Bool) (y : Nat) :
    intSatn w z n sat x y =
      let lo : Int := if z then 0 else -(2 ^ (n - 1) : Int)
      let hi : Int := if z then 2 ^ n - 1 else 2 ^ (n - 1) - 1
      if toSigned w x < lo then (ofSigned w lo, some 3) else if hi < toSigned w x then (ofSigned w hi, some 3) else (x, none) := by
  rw [intSatn, ofSigned_toSigned hx]

theorem ofSigned_neg_two_pow {w n : Nat} (h : n ≤ w) : ofSigned w (-(2 ^ n : Int)) = (2 ^ w - 2 ^ n) % 2 ^ w := by
  have hle : 2 ^ n ≤ 2 ^ w := Nat.pow_le_pow_right (by omega) h
  have hcast : ((2 ^ w - 2 ^ n : Nat) : Int) = -(2 ^ n) - 2 ^ w * (-1) := by push_cast [hle]; ring
  rw [← ofSigned_natCast, hcast, ofSigned_sub_of_dvd _ (dvd_mul_right _ _)]

theorem xor_div_two_pow_lt {x w n : Nat} (hx : x < 2 ^ w) : x ^^^ x / 2 ^ n < 2 ^ w :=
  Nat.xor_lt_two_pow hx ((Nat.div_le_self _ _).trans_lt hx)

theorem crng16_lt (x y : Nat) : crng16 x y < 2 ^ 16 := by
  simp only [crng16, Nat.shiftRight_eq_div_pow]
  exact xor_div_two_pow_lt (Nat.mod_lt _ (by norm_num))

theorem crng32_lt (x y : Nat) : crng32 x y < 2 ^ 32 := by
  simp only [crng32, Nat.shiftRight_eq_div_pow]
  exact xor_div_two_pow_lt (Nat.mod_lt _ (by norm_num))

/-- Lanes packed in ascending order. -/
theorem packLanes_eq_sum (w k : Nat) (g : Nat → Nat) (hg : ∀ i, g i < 2 ^ w) :
    packLanes w ((List.range k).map g) = ((List.range k).map fun i => g i * 2 ^ (w * i)).sum := by
  induction k generalizing g with
  | zero => rfl
  | succ k ih =>
    have htail := ih (fun i => g (i + 1)) fun i => hg (i + 1)
    rw [List.range_succ_eq_map, List.map_cons, List.map_cons, List.map_map, List.map_map, List.sum_cons]
    simp only [packLanes, List.foldr_cons, Function.comp_def] at htail ⊢
    rw [htail, Nat.mod_eq_of_lt (hg 0), Nat.mul_zero, pow_zero, Nat.mul_one, ← List.sum_map_mul_right]
    congr 2
    refine List.map_congr_left fun i _ => ?_
    rw [Nat.mul_succ, pow_add, Nat.mul_assoc]

theorem intCrng_eq (lw : Nat) {gen : Nat → Nat → Nat} (hgen : ∀ x y, gen x y < 2 ^ lw) (w : Nat) (sat : Bool) (x y : Nat) :
    intCrng lw gen w sat x y =
      (((List.range (w / lw)).map fun i =>
        gen (x / 2 ^ (lw * i) % 2 ^ lw) (y / 2 ^ (lw * i) % 2 ^ lw) * 2 ^ (lw * i)).sum, none) := by
  rw [intCrng, packLanes_eq_sum lw _ _ fun i => hgen _ _]
  simp only [laneOf, bitsAt_eq_div_mod]

/-- Settles O5: the ends of SATN's range as bits, and the generators lane by lane. -/
theorem shortClampAndGeneratorsComplete : Obligations.ShortClampAndGeneratorsComplete := by
  refine fun d a b n => ⟨?satn, ?satnz, ?crng16, ?crng32⟩
  have hn : n.toNat < 32 := n.isLt
  case satn =>
    refine shortResult1_of (fun _ => rfl) fun sat x hx => ?_
    have hpos : 0 < 2 ^ n.toNat := Nat.two_pow_pos _
    rw [intSatn_eq hx]
    simp only [Nat.add_sub_cancel, Bool.false_eq_true, if_false, ofSigned_neg_two_pow (show n.toNat ≤ 32 by omega),
      ofSigned_pow_sub_one (show n.toNat ≤ 32 by omega), Nat.mod_eq_of_lt (show 2 ^ 32 - 2 ^ n.toNat < 2 ^ 32 by omega),
      Int.sub_one_lt_iff]
  case satnz =>
    refine shortResult1_of (fun _ => rfl) fun sat x hx => ?_
    have hle : 2 ^ (n.toNat + 1) ≤ 2 ^ 32 := Nat.pow_le_pow_right (by omega) (by omega)
    have hzero : ofSigned 32 0 = 0 := by rw [ofSigned, Int.zero_emod, Int.toNat_zero]
    rw [intSatn_eq hx]
    simp only [if_true, hzero, ofSigned_pow_sub_one (show n.toNat + 1 ≤ 32 by omega), Int.sub_one_lt_iff,
      Nat.mod_eq_of_lt (show 2 ^ (n.toNat + 1) - 1 < 2 ^ 32 by omega)]
  case crng16 =>
    refine shortResult_of (fun _ => rfl) fun sat x y hx hy => ?_
    rw [intCrng_eq 16 crng16_lt]
    have hhigh {v : Nat} (hv : v < 2 ^ 32) : v / 65536 % 65536 = v / 65536 := by omega
    simp [List.range_succ, crng16, Nat.shiftRight_eq_div_pow, hhigh hx, hhigh hy]
  case crng32 =>
    refine shortResult_of (fun _ => rfl) fun sat x y hx hy => ?_
    rw [intCrng_eq 32 crng32_lt]
    simp only [Nat.div_self (show 0 < 32 by omega), List.range_one, List.map_cons, List.map_nil, List.sum_singleton, Nat.mul_zero,
      pow_zero, Nat.div_one, Nat.mul_one, Nat.mod_eq_of_lt hx, Nat.mod_eq_of_lt hy]
    simp only [crng32, Nat.shiftRight_eq_div_pow]

/-- Settles O10: the operations at the width of d, the counts at the width of a. -/
theorem longLogicAndBitsComplete : Obligations.LongLogicAndBitsComplete := by
  refine fun o => ⟨?and, ?or, ?xor, ?andn, ?not, ?shl, ?shr, ?sar, ?rotl, ?clz, ?ctz, ?popc, ?brev, ?satn, ?crng16, ?crng32⟩
  case and | or | xor => exact longResult_of (fun _ => rfl) fun _ _ _ _ _ => rfl
  case andn => exact longResult_of (fun _ => rfl) fun sat x _ _ hy => intAndn_eq hy sat x
  case not => exact longResult1_of (fun _ => rfl) fun sat _ hx => intNot_eq hx sat 0
  case shl => exact longShift_of (fun _ => rfl) fun x n => intShl_eq _ false x n
  case shr => exact longShift_of (fun _ => rfl) fun x n => intShr_eq _ false x n
  case sar => exact longShift_of (fun _ => rfl) fun _ _ => rfl
  case rotl => exact longShift_of (fun _ => rfl) fun x n => intRotl_eq _ false x n
  case clz => exact longCount_of (fun _ => rfl) fun _ _ => rfl
  case ctz => exact longCount_of (fun _ => rfl) fun w x => by rw [intCtz, lowZeros_eq_find]
  case popc => exact longCount_of (fun _ => rfl) fun w x => by rw [intPopc, oneBits_eq_countP]
  case brev => exact longCount_of (fun _ => rfl) fun w x => by rw [intBrev, revBits_eq_sum]
  case satn => exact longResult1_of (fun _ => rfl) fun sat x hx => intSatn_eq hx _ _ sat 0
  case crng16 =>
    exact completes_of_noHold (fun _ => rfl) fun c t _ => by rw [long3Body, longLand, intCrng_eq 16 crng16_lt]; rfl
  case crng32 =>
    exact completes_of_noHold (fun _ => rfl) fun c t _ => by rw [long3Body, longLand, intCrng_eq 32 crng32_lt]; rfl

/-! ### Control words, predicates and tags (R234, R241 to R247) -/

theorem badControl_ext_of_not_controlOk {w : Nat} (h : controlOk w = false) : badControl w false = true := by
  have hsize : w / 2 ^ 19 = 0 ↔ w < 2 ^ 19 := by simp [Nat.div_eq_zero_iff]
  cases hbit : w.testBit 11
  · simp only [controlOk, hbit, Bool.not_false, Bool.and_true, decide_eq_false_iff_not] at h
    simp only [badControl, Bool.or_eq_true, bne_iff_ne]
    exact .inl (.inl (hsize.not.2 h))
  · simp [badControl, hbit]

theorem badControl_dep_of_not_controlOk {w : Nat} (h : controlOk w = false ∨ w.testBit 18 = true) : badControl w true = true := by
  rcases h with h | h
  · have hext := badControl_ext_of_not_controlOk h
    simp only [badControl, Bool.false_and, Bool.or_false] at hext
    rw [badControl, hext, Bool.true_or]
  · rw [badControl, h, Bool.and_true, Bool.or_true]

/-- Settles O7: EXT and DEP ask first whether their control word is legal. -/
theorem reservedControlWordTraps : Obligations.ReservedControlWordTraps := by
  refine fun d a b => ⟨?ext, ?dep⟩
  case ext => exact traps_of_body (fun _ => rfl) (fun _ _ _ => rfl) fun c t h => if_pos (badControl_ext_of_not_controlOk h)
  case dep => exact traps_of_body (fun _ => rfl) (fun _ _ _ => rfl) fun c t h => if_pos (badControl_dep_of_not_controlOk h)

/-- The immediate of a compare: zero-extended where its condition compares unsigned. -/
theorem extendTo_condZero (cond : Cond) (imm : BitVec 10) : extendTo 10 32 (condZero cond) imm.toNat =
    if cond = .ltz ∨ cond = .lez ∨ cond = .gtz ∨ cond = .gez then imm.toNat else (imm.signExtend 32).toNat := by
  have hzero : extendTo 10 32 true imm.toNat = imm.toNat := by
    rw [extendTo_zero imm.isLt, Nat.mod_eq_of_lt (by omega)]
  cases cond
  case ltz | lez | gtz | gez => exact hzero
  all_goals exact extendTo_sign_toNat 32 imm

theorem beq_zero_beq_true (n : Nat) : ((n == 0) == true) = decide (n = 0) := by
  cases n <;> rfl

theorem beq_zero_beq_false (n : Nat) : ((n == 0) == false) = decide (n ≠ 0) := by
  cases n <;> rfl

/-- Settles O8: each body writes the stated predicate, word or tag, the compares by the reading of their immediates and tests. -/
theorem predicatesAndTagsComplete : Obligations.PredicatesAndTagsComplete := by
  refine ⟨⟨fun cond pd a b => ?cmp, fun cond pd a imm => ?cmpi, fun pd a b => ⟨?tst, ?tstz⟩,
    fun pd pa pb => ⟨?pand, ?por, ?pxor, ?pnot, ?pmov⟩⟩, fun d a tag => ⟨?ppack, ?punpack, ?tagset, ?tagget⟩⟩
  case cmpi => exact completes_of_noHold (fun _ => rfl) fun c t _ => by rw [extendTo_condZero]; rfl
  case tst => exact completes_of_noHold (fun _ => rfl) fun c t _ => by rw [beq_zero_beq_false]; rfl
  case tstz => exact completes_of_noHold (fun _ => rfl) fun c t _ => by rw [beq_zero_beq_true]; rfl
  all_goals exact completes_of_noHold (fun _ => rfl) fun _ _ _ => rfl

/-! ### Long fields, moves, compares and selects (R235 to R242) -/

theorem extField_lt (w a ctl : Nat) : extField w a ctl < 2 ^ w := by
  rw [extField]
  split
  · exact ofSigned_lt _ _
  · exact Nat.mod_lt _ (Nat.two_pow_pos w)

theorem depField_lt (w d a ctl : Nat) : depField w d a ctl < 2 ^ w := Nat.mod_lt _ (Nat.two_pow_pos w)

/-- A long immediate of 32 bits at n bits: its bits under z or where its sign is clear, and else its integer modulo 2^n. -/
theorem extendTo_imm (n : Nat) (z : Bool) (imm : BitVec 32) : extendTo 32 n z imm.toNat =
    if (z || !imm.msb) = true then imm.toNat % 2 ^ n else (imm.toInt % 2 ^ n).toNat := by
  cases z with
  | true => exact extendTo_zero imm.isLt
  | false =>
    rw [extendTo_sign imm.isLt, toSigned_toNat]
    cases hmsb : imm.msb with
    | true => rfl
    | false =>
      rw [BitVec.toInt_eq_msb_cond, hmsb]
      exact ofSigned_natCast _ _

/-- Settles O11: each body lands a value of the width of d; the fields by their equations, the immediates by their extension. -/
theorem longMovesAndComparesComplete : Obligations.LongMovesAndComparesComplete := by
  refine ⟨fun o => ⟨?ext, ?dep, ?mov⟩, fun o => ⟨?movi, ?movih⟩, fun o => ⟨fun cond => ?cmp, ?tst, ?tstz⟩, fun o => ?sel⟩
  case ext =>
    refine completes_of_noHold (fun _ => rfl) fun c t hok => ?_
    simp [badControl_ext_of_controlOk hok, longLand, intExt_eq_extField, Nat.mod_eq_of_lt (extField_lt ..), evOf]
  case dep =>
    refine completes_of_noHold (fun _ => rfl) fun c t ⟨hok, hz⟩ => ?_
    simp [badControl_dep_of_controlOk hok hz, longLand, intDep_eq_depField, Nat.mod_eq_of_lt (depField_lt ..), evOf]
  case mov =>
    exact completes_of_noHold (fun _ => rfl) fun c t _ => by
      rw [longLand, Nat.mod_eq_of_lt (show o.srcA t o.dBits < 2 ^ o.dBits from extendTo_lt ..)]
      rfl
  case movi => exact completes_of_noHold (fun _ => rfl) fun c t _ => by rw [extendTo_imm]
  case movih => exact completes_of_noHold (fun _ => rfl) fun c t _ => by simp only [extendTo_imm]
  case tst => exact completes_of_noHold (fun _ => rfl) fun c t _ => by simp only [beq_zero_beq_false]; rfl
  case tstz => exact completes_of_noHold (fun _ => rfl) fun c t _ => by simp only [beq_zero_beq_true]; rfl
  case cmp | sel => exact completes_of_noHold (fun _ => rfl) fun _ _ _ => rfl

end Sys2Proof.Machine

/-! PROOFS of the families 02_encoding and 24_attachment: example words, one step of the machine, the state after reset. -/

namespace Sys2Proof.Machine

/-- Settles O41: the decoder evaluates on each of the words. -/
theorem specWordsDecode : Obligations.SpecWordsDecode :=
  ⟨rfl, rfl, rfl, rfl, rfl, rfl, rfl, rfl, rfl, rfl, rfl, rfl, rfl, rfl, rfl, rfl, rfl, rfl⟩

/-! ### A slot of the agenda, and the head of a queue -/

/-- The tile at the cursor is the folio's, and its context the tile's at the cursor's queue. -/
theorem at?_eq_some_iff {s : State} {f : Folio} {t : Tile} {c : Ctx} : s.at? = some (f, t, c) ↔
    s.folio? s.cursor.folio = some f ∧ f.tiles[s.cursor.tile]? = some t ∧ c = ctxOf s f s.cursor.tile t s.cursor.queue := by
  rw [State.at?]
  cases s.folio? s.cursor.folio with
  | none => simp
  | some g =>
    cases htile : g.tiles[s.cursor.tile]? with
    | none => simp only [htile, reduceCtorEq, false_iff, Option.some.injEq]; rintro ⟨rfl, h, -⟩; simp [htile] at h
    | some u =>
      simp only [htile, Option.some.injEq, Prod.mk.injEq]
      constructor
      · rintro ⟨rfl, rfl, rfl⟩; exact ⟨rfl, htile, rfl⟩
      · rintro ⟨rfl, h, rfl⟩
        obtain rfl : u = t := Option.some.inj (htile.symm.trans h)
        exact ⟨rfl, rfl, rfl⟩

theorem queue_of_at? {s : State} {f : Folio} {t : Tile} {c : Ctx} (h : s.at? = some (f, t, c)) : c.q = s.cursor.queue := by
  obtain ⟨-, -, rfl⟩ := at?_eq_some_iff.1 h
  rfl

/-- A PFX stands in its queue before the entry that it is for. -/
theorem pe_isSome_of_entries {s : State} {f : Folio} {t : Tile} {c : Ctx} (h : s.at? = some (f, t, c))
    (hne : t.ctl.entries c.q ≠ []) : (c.pfx.isSome && c.pe.isNone) = false := by
  obtain ⟨-, -, rfl⟩ := at?_eq_some_iff.1 h
  obtain ⟨e, l, hl⟩ := List.exists_cons_of_ne_nil hne
  simp only [ctxOf] at hl ⊢
  rw [hl]
  split <;> [split; skip] <;> rfl

section Head
variable {s : State} {f : Folio} {t : Tile} {c : Ctx} {run : Instr → State → Host.Outcome State Fault Refusal}

/-- A head that raises something by itself traps with it. -/
theorem runHead_of_headRaises (h : s.at? = some (f, t, c)) (hne : t.ctl.entries c.q ≠ []) (hr : c.headRaises ≠ []) :
    s.runHead run = .next (s.putTile f (t.headTrap c c.headRaises)) := by
  obtain ⟨x, l, hl⟩ := List.exists_cons_of_ne_nil hr
  rw [State.runHead, h]
  simp only [pe_isSome_of_entries h hne, List.isEmpty_eq_false_iff.2 hne, hl, Bool.or_false, Bool.false_eq_true, if_false]

/-- A head that raises nothing by itself runs its instruction, and faults where that does. -/
theorem runHead_of_fault {i : Instr} {x : Fault} (h : s.at? = some (f, t, c)) (hne : t.ctl.entries c.q ≠ []) (hr : c.headRaises = [])
    (hd : decode c.q c.e.w0 c.e.w1 = .ok i) (hx : run i s = .fault x) : s.runHead run = .fault x := by
  rw [State.runHead, h]
  simp only [pe_isSome_of_entries h hne, List.isEmpty_eq_false_iff.2 hne, hr, hd, hx, Bool.or_false, Bool.false_eq_true, if_false]

theorem runHead_of_refused {i : Instr} {x : Refusal} (h : s.at? = some (f, t, c)) (hne : t.ctl.entries c.q ≠ [])
    (hr : c.headRaises = []) (hd : decode c.q c.e.w0 c.e.w1 = .ok i) (hx : run i s = .refused x) :
    s.runHead run = .refused x := by
  rw [State.runHead, h]
  simp only [pe_isSome_of_entries h hne, List.isEmpty_eq_false_iff.2 hne, hr, hd, hx, Bool.or_false, Bool.false_eq_true, if_false]

/-- After a PFX the head runs once more, and else its issue is logged. -/
theorem runHead_of_next {i : Instr} {s' : State} {t' : Tile} (h : s.at? = some (f, t, c)) (hne : t.ctl.entries c.q ≠ [])
    (hr : c.headRaises = []) (hd : decode c.q c.e.w0 c.e.w1 = .ok i) (hx : run i s = .next s')
    (ht : ((s'.folio? s.cursor.folio).bind fun (g : Folio) => g.tiles[s.cursor.tile]?) = some t') :
    s.runHead run = .next (if c.pfx.isNone && t'.ctl.pfx.isSome then { s' with agenda := .issue s.cursor :: s'.agenda }
      else s'.logIssue f s.cursor.tile t t' c) := by
  rw [State.runHead, h]
  simp only [pe_isSome_of_entries h hne, List.isEmpty_eq_false_iff.2 hne, hr, hd, hx, ht, Bool.or_false, Bool.false_eq_true,
    if_false]

end Head

/-- A lane that no handler may use (R466). -/
theorem noUnit_iff (c : Ctx) : c.noUnit = true ↔ c.hand = true ∧ (c.q = .ce ∨ c.q = .mx ∨ c.q = .net) := by
  simp [Ctx.noUnit, or_assoc]

/-- What a head raises by itself, by what it is. -/
theorem headRaises_of_marker {c : Ctx} {m : Marker} (hm : c.e.marker = some m) :
    c.headRaises = (if c.noUnit then [c.raiseInfo 10 c.e.words c.k] else [])
      ++ c.raiseInfo m.cause m.info 0 :: (if c.pfx.any badRm then [c.prefixRaise] else []) := by
  cases hu : c.noUnit <;> simp [Ctx.headRaises, hm, hu]

theorem headRaises_of_error {c : Ctx} {x : Nat} (hm : c.e.marker = none) (hd : decode c.q c.e.w0 c.e.w1 = .error x) :
    c.headRaises = (if c.noUnit then [c.raiseInfo 10 c.e.words c.k] else [])
      ++ c.raise x :: (if c.pfx.any badRm then [c.prefixRaise] else []) := by
  cases hu : c.noUnit <;> simp [Ctx.headRaises, hm, hd, hu]

theorem headRaises_of_noUnit {c : Ctx} {i : Instr} (hm : c.e.marker = none) (hd : decode c.q c.e.w0 c.e.w1 = .ok i)
    (hu : c.noUnit = true) :
    c.headRaises = c.raiseInfo 10 c.e.words c.k :: (if c.pfx.any badRm then [c.prefixRaise] else []) := by
  simp [Ctx.headRaises, hm, hd, hu]

theorem headRaises_eq_nil {c : Ctx} {i : Instr} (hm : c.e.marker = none) (hd : decode c.q c.e.w0 c.e.w1 = .ok i)
    (hu : c.noUnit = false) : c.headRaises = [] := by
  simp [Ctx.headRaises, hm, hd, hu]

/-- Settles O43: the slot's head by what it raises by itself, and else by its instruction's meaning. -/
theorem stepRunsDecodedInstruction : Obligations.StepRunsDecodedInstruction := by
  refine fun s cu r => ⟨fun i ha => ?act, fun f t c ha h hne => ?issue⟩
  case act => rw [step, State.runSlot, ha]
  case issue =>
    have hq : c.q = cu.queue := queue_of_at? h
    have hstep : step s = ({ s with agenda := r, cursor := cu } : State).runHead exec := by rw [step, State.runSlot, ha]
    rw [← hq] at hne
    simp only [hstep, ← hq, ← noUnit_iff]
    refine ⟨fun m hm => ?marker, fun x hm hd => ?error, fun i hm hu hd => ?noUnit, fun i hm hu hd => ?decoded⟩
    case marker =>
      have hl := headRaises_of_marker hm
      rw [runHead_of_headRaises h hne (by simp [hl]), hl]
      rfl
    case error =>
      have hl := headRaises_of_error hm hd
      rw [runHead_of_headRaises h hne (by simp [hl]), hl]
      rfl
    case noUnit =>
      have hl := headRaises_of_noUnit hm hd hu
      rw [runHead_of_headRaises h hne (by simp [hl]), hl, if_pos hu]
      rfl
    case decoded =>
      have hl := headRaises_eq_nil hm hd (Bool.eq_false_iff.2 hu)
      refine ⟨fun x => runHead_of_fault h hne hl hd, fun x => runHead_of_refused h hne hl hd,
        fun s' t' hx ht => ⟨fun hp ht' => ?_, fun hp => ?_⟩⟩
      · rw [runHead_of_next h hne hl hd hx ht, hp, ht']
        rfl
      · rw [runHead_of_next h hne hl hd hx ht, if_neg]
        rcases hp with hp | hp
        · simp [Option.isSome_iff_ne_none.1 hp]
        · simp [hp]

/-- Settles O44. -/
theorem resetState : Obligations.ResetState :=
  ⟨rfl, rfl, rfl, fun _ => rfl, fun _ _ => rfl, rfl, State.reset_allWf⟩

end Sys2Proof.Machine

/-! PROOFS of the family 03_slices_and_assembly: pending sources, writes that land, writes that meet. -/

namespace Sys2Proof.Machine

/-! ### A pending source (R89) -/

/-- A write of no slice at slice 1 that is still pending in cycle 16. -/
def emptyWrite : PendWrite :=
  { land := 100, issue := 10, writer := 1, hand := false, dest := .slices 1 0 0 0, events := [] }

/-- A folio of one tile with ADD d, w0, w0 at the head of SQ under SBMODE 1, while a write of no slice is pending inside w0. -/
def emptyWriteFolio : Folio :=
  let f := folioOfWords .sq (encode (.add 1 0 0))
  { f with tiles := f.tiles.map fun t => { t with csr := { t.csr with sbmode := true }, pend := [emptyWrite] } }

def emptyWriteState : State := { State.reset with folios := [emptyWriteFolio], cursor := ⟨0, 0, .sq, 0⟩ }

/-- No single slice meets a write of none. -/
theorem meets_empty (x b : Nat) : meets x 1 b 0 = false := by
  simp only [meets, Bool.and_eq_false_iff, decide_eq_false_iff_not]
  omega

/-- Refutes O12: the span of w0 meets a pending write of no slice strictly inside it, so that its source counts as pending, and yet no
slice of it is, which cause 17 could name. -/
theorem not_pendingSourceHoldsOrTraps : ¬ Obligations.PendingSourceHoldsOrTraps := by
  intro h
  obtain ⟨f, t, c, hat, hfree, hpfx, hhand, hwin, hblocked, hpaid, hviol, hsb, hpend⟩ : ∃ f t c,
      emptyWriteState.at? = some (f, t, c) ∧ t.queueHeld c = false ∧ c.pfx = none ∧ c.hand = false ∧ t.ctl.winb ≤ 192
      ∧ t.blocked = false ∧ (short3Info 0 true 1 0 0 t).debit c ≤ t.avail ∧ t.violation c (short3Info 0 true 1 0 0 t) = true
      ∧ t.csr.sbmode = true ∧ t.pendSpans false = [(100, 1, 0)] :=
    ⟨_, _, _, rfl, by decide +kernel⟩
  obtain ⟨-, htrap⟩ := h emptyWriteState f t c 1 0 0 hat hfree hpfx hhand hwin hblocked hpaid hviol
  obtain ⟨x, u, -, hx, -⟩ := htrap hsb
  have hnone : t.pendingUntil false c.k x 1 = none :=
    pendingUntil_none.2 fun p hp => by
      rw [hpend, List.mem_singleton] at hp
      rw [hp, meets_empty, Bool.and_false]
  simp [hnone] at hx

/-! ### Fields of a number, bit by bit -/

theorem testBit_bitsAt (v pos w i : Nat) : (bitsAt v pos w).testBit i = (decide (i < w) && v.testBit (pos + i)) := by
  rw [bitsAt, Nat.testBit_mod_two_pow, Nat.testBit_shiftRight]

theorem testBit_putBits (v pos w x i : Nat) :
    (putBits v pos w x).testBit i = if pos ≤ i ∧ i < pos + w then x.testBit (i - pos) else v.testBit i := by
  have hlow : (x % 2 ^ w) <<< pos + v % 2 ^ pos < 2 ^ (pos + w) := by
    rw [Nat.shiftLeft_eq, pow_add, Nat.mul_comm (2 ^ pos)]
    have hx : x % 2 ^ w + 1 ≤ 2 ^ w := Nat.mod_lt _ (Nat.two_pow_pos w)
    have hv := Nat.mod_lt v (Nat.two_pow_pos pos)
    calc x % 2 ^ w * 2 ^ pos + v % 2 ^ pos < (x % 2 ^ w + 1) * 2 ^ pos := by rw [Nat.add_mul]; omega
      _ ≤ _ := Nat.mul_le_mul_right _ hx
  rw [putBits, Nat.add_assoc, Nat.shiftLeft_add_eq_or_of_lt hlow, Nat.shiftLeft_add_eq_or_of_lt (Nat.mod_lt _ (Nat.two_pow_pos pos))]
  simp only [Nat.testBit_or, Nat.testBit_shiftLeft, Nat.testBit_shiftRight, Nat.testBit_mod_two_pow]
  rcases Nat.lt_or_ge i pos with hi | hi
  · simp [hi, Nat.not_le.2 hi, show ¬pos + w ≤ i by omega]
  · rcases Nat.lt_or_ge i (pos + w) with hw | hw
    · simp [hi, hw, Nat.not_lt.2 hi, show i - pos < w by omega]
    · simp [hi, hw, Nat.not_lt.2 hi, Nat.not_lt.2 hw, show ¬i - pos < w by omega]

/-! ### Spans and tags of the slice file after a write -/

theorem testBit_sf_put (s : Slices) {start n : Nat} (h : start + n ≤ 4096) (v i : Nat) : (s.put start n v).sf.toNat.testBit i =
    if 4 * start ≤ i ∧ i < 4 * start + 4 * n then v.testBit (i - 4 * start) else s.sf.toNat.testBit i := by
  rw [Slices.put, BitVec.toNat_ofNat, Nat.testBit_mod_two_pow, testBit_putBits]
  rcases Nat.lt_or_ge i 16384 with hi | hi
  · simp [hi]
  · rw [if_neg (by omega), Nat.testBit_lt_two_pow (s.sf.isLt.trans_le (Nat.pow_le_pow_right (by omega) hi)), Bool.and_false]

theorem span_put_same (s : Slices) {start n v : Nat} (h : start + n ≤ 4096) (hv : v < 2 ^ (4 * n)) : (s.put start n v).span start n = v := by
  refine Nat.eq_of_testBit_eq fun i => ?_
  rw [Slices.span, testBit_bitsAt, testBit_sf_put s h]
  rcases Nat.lt_or_ge i (4 * n) with hi | hi
  · simp [hi]
  · simp [Nat.not_lt.2 hi, Nat.testBit_lt_two_pow (hv.trans_le (Nat.pow_le_pow_right (by omega) hi))]

/-- One slice after a write: its digit of the value where the write covers it, else what it was. -/
theorem span_put_slice (s : Slices) {start n : Nat} (h : start + n ≤ 4096) (v z : Nat) : (s.put start n v).span z 1 =
    if start ≤ z ∧ z < start + n then bitsAt v (4 * (z - start)) 4 else s.span z 1 := by
  refine Nat.eq_of_testBit_eq fun i => ?_
  have hbit := testBit_sf_put s h v (4 * z + i)
  simp only [Slices.span] at hbit ⊢
  rw [testBit_bitsAt, hbit]
  rcases Nat.lt_or_ge i 4 with hi | hi
  · split
    case isTrue hz =>
      rw [if_pos (by omega), testBit_bitsAt, show 4 * (z - start) + i = 4 * z + i - 4 * start by omega]
    case isFalse hz => rw [if_neg (by omega), testBit_bitsAt]
  · have hout : decide (i < 4 * 1) = false := decide_eq_false (by omega)
    rw [hout, Bool.false_and]
    split
    · rw [testBit_bitsAt, hout, Bool.false_and]
    · rw [testBit_bitsAt, hout, Bool.false_and]

theorem tag_setTag (s : Slices) {g : Nat} (hg : g < 256) (h : Nat) {tag : Nat} (htag : tag < 32) :
    (s.setTag g tag).tag h = if h = g then tag else s.tag h := by
  refine Nat.eq_of_testBit_eq fun i => ?_
  rw [Slices.tag, Slices.setTag, BitVec.toNat_ofNat, testBit_bitsAt, Nat.testBit_mod_two_pow, testBit_putBits]
  rcases Nat.lt_or_ge i 5 with hi | hi
  · rcases eq_or_ne h g with rfl | hne
    · simp [hi, show 5 * h + i < 1280 by omega]
    · rw [if_neg (by omega), if_neg hne, Slices.tag, testBit_bitsAt]
      rcases Nat.lt_or_ge (5 * h + i) 1280 with hs | hs
      · simp [hs]
      · simp [Nat.testBit_lt_two_pow (s.tags.isLt.trans_le (Nat.pow_le_pow_right (by omega) hs))]
  · rw [decide_eq_false (Nat.not_lt.2 hi), Bool.false_and]
    split
    · rw [Nat.testBit_lt_two_pow (htag.trans_le (Nat.pow_le_pow_right (n := 2) (by omega) hi))]
    · rw [Slices.tag, testBit_bitsAt, decide_eq_false (Nat.not_lt.2 hi), Bool.false_and]

@[simp] theorem tag_put (s : Slices) (start n v g : Nat) : (s.put start n v).tag g = s.tag g := rfl
@[simp] theorem preds_put (s : Slices) (start n v : Nat) : (s.put start n v).preds = s.preds := rfl
@[simp] theorem sf_setTag (s : Slices) (g tag : Nat) : (s.setTag g tag).sf = s.sf := rfl
@[simp] theorem preds_setTag (s : Slices) (g tag : Nat) : (s.setTag g tag).preds = s.preds := rfl

@[simp] theorem sf_tagGranules (s : Slices) (start n tag g count : Nat) : (tagGranules s start n tag g count).sf = s.sf := by
  induction count generalizing s g with
  | zero => rfl
  | succ count ih =>
    rw [tagGranules, ih]
    split <;> rfl

@[simp] theorem preds_tagGranules (s : Slices) (start n tag g count : Nat) :
    (tagGranules s start n tag g count).preds = s.preds := by
  induction count generalizing s g with
  | zero => rfl
  | succ count ih =>
    rw [tagGranules, ih]
    split <;> rfl

/-- The tag that granule h takes of a write of slices (R96). -/
def tagAfter (s : Slices) (start n tag h : Nat) : Nat :=
  if start ≤ 16 * h ∧ 16 * h + 16 ≤ start + n ∨ s.tag h = tag then tag else 16

theorem tag_tagGranules_one (s : Slices) (start n : Nat) {tag : Nat} (htag : tag < 32) {g : Nat} (hg : g < 256) (h : Nat) :
    (tagGranules s start n tag g 1).tag h = if h = g then tagAfter s start n tag g else s.tag h := by
  have hstep {x : Nat} (hx : x < 32) : (s.setTag g x).tag h = if h = g then x else s.tag h := tag_setTag s hg h hx
  rw [tagGranules, tagGranules, tagAfter]
  simp only [Bool.or_eq_true, Bool.and_eq_true, decide_eq_true_eq, beq_iff_eq]
  split
  · exact hstep htag
  · exact hstep (by omega)

/-- R96 on the granules from g on. -/
theorem tag_tagGranules (s : Slices) (start n : Nat) {tag : Nat} (htag : tag < 32) (g count : Nat) (hle : g + count ≤ 256) (h : Nat) :
    (tagGranules s start n tag g count).tag h = if g ≤ h ∧ h < g + count then tagAfter s start n tag h else s.tag h := by
  induction count generalizing s g with
  | zero => rw [if_neg (by omega)]; rfl
  | succ count ih =>
    have hone := tag_tagGranules_one s start n htag (show g < 256 by omega) h
    have hsucc : tagGranules s start n tag g (count + 1) = tagGranules (tagGranules s start n tag g 1) start n tag (g + 1) count := rfl
    rw [hsucc, ih _ _ (by omega), tagAfter, hone]
    rcases eq_or_ne h g with rfl | hne
    · rw [if_neg (by omega), if_pos rfl, if_pos (by omega)]
    · rw [if_neg hne, ← tagAfter]
      split
      · rw [if_pos (by omega)]
      · rw [if_neg (by omega)]

/-! ### A write of slices lands (R86, R96) -/

@[simp] theorem preds_land (s : Slices) (start n v tag : Nat) : (s.land start n v tag).preds = s.preds := by
  rw [Slices.land]
  split <;> simp

theorem sf_land (s : Slices) {start n : Nat} (hn : 0 < n) (v tag : Nat) : (s.land start n v tag).sf = (s.put start n v).sf := by
  rw [Slices.land, if_neg (by omega)]
  exact sf_tagGranules ..

theorem span_land (s : Slices) {start n : Nat} (hn : 0 < n) (v tag x m : Nat) :
    (s.land start n v tag).span x m = (s.put start n v).span x m := by
  rw [Slices.span, sf_land s hn, Slices.span]

theorem tag_land (s : Slices) {start n : Nat} (hn : 0 < n) (h : start + n ≤ 4096) (v : Nat) {tag : Nat} (htag : tag < 32) (g : Nat) :
    (s.land start n v tag).tag g =
      if start < 16 * g + 16 ∧ 16 * g < start + n then tagAfter s start n tag g else s.tag g := by
  have htags := tag_tagGranules (s.put start n v) start n htag (start / 16) ((start + n - 1) / 16 + 1 - start / 16) (by omega) g
  rw [Slices.land, if_neg (by omega)]
  refine htags.trans ?_
  rw [tag_put]
  exact if_congr (by omega) rfl rfl

/-- The tile once the one write due has landed. -/
theorem landAll_single {t : Tile} {hand : Bool} {k : Nat} {p : PendWrite}
    (h : (t.pend.filter fun q => q.hand == hand && decide (q.land ≤ k)) = [p]) : t.landAll hand k =
      ({ t with pend := t.pend.filter fun q => !(q.hand == hand && decide (q.land ≤ k)) } : Tile).landWrite p [] 0 := by
  have hdue : byIssue [p] = [p] := rfl
  have hclash : clashes [p] = [] := rfl
  have hpred : predClashes [p] = [] := rfl
  have htag : tagClashes [p] = [] := rfl
  have hnone : clashTrap [] [] = none := rfl
  rw [Tile.landAll, h, hdue, hclash, hpred, htag]
  simp only [List.map_nil, List.append_nil, List.foldl_cons, List.foldl_nil, hnone]

/-- A write of slices that meets no other lands whole, and its events are counted. -/
theorem landWrite_slices {t : Tile} {p : PendWrite} {x n v : Nat} {tag : BitVec 5} (hp : p.dest = .slices x n v tag) :
    ∃ ev, t.landWrite p [] 0 = { t with evNow := ev, slices := t.slices.land x n v tag.toNat } := by
  rw [Tile.landWrite]
  simp only [hp, List.any_nil, Bool.false_eq_true, if_false]
  split
  · exact ⟨_, rfl⟩
  · exact ⟨_, rfl⟩

/-- Settles O13: the one write lands whole, and its granules take their tags by R96. -/
theorem dueSliceWriteLands : Obligations.DueSliceWriteLands := by
  intro s f t c p x n v tag h hdue hp hn hx hv
  obtain ⟨ev, hland⟩ := landWrite_slices
    (t := { t with pend := t.pend.filter fun q => !(q.hand == c.hand && decide (q.land ≤ c.k)) }) hp
  refine ⟨{ t with
      pend := t.pend.filter fun q => !(q.hand == c.hand && decide (q.land ≤ c.k))
      evNow := ev
      slices := t.slices.land x n v tag.toNat },
    ?_, ?_, fun y hy => ?_, fun g hg => ?_, rfl, preds_land .., rfl, rfl, rfl, rfl, rfl, rfl⟩
  · show execSliceWriteLanding s = _
    rw [execSliceWriteLanding, h]
    exact congrArg (fun u => Host.Outcome.next (s.putTile f u)) ((landAll_single hdue).trans hland)
  · exact (span_land t.slices hn v _ x n).trans (span_put_same t.slices hx hv)
  · refine (span_land t.slices hn v _ y 1).trans ?_
    rw [span_put_slice _ hx, if_neg (by omega)]
  · refine (tag_land t.slices hn hx v tag.isLt g).trans ?_
    rw [tagAfter]
    by_cases hwhole : x ≤ 16 * g ∧ 16 * g + 16 ≤ x + n
    · rw [if_pos hwhole, if_pos (by omega), if_pos (.inl hwhole)]
    · simp only [hwhole, false_or, if_false]

/-! ### Two writes that meet (R91) -/

/-- The digits of a number that is built from them. -/
theorem bitsAt_foldr_digits (f : Nat → Nat) (hf : ∀ i, f i < 16) (n i : Nat) (hi : i < n) :
    bitsAt ((List.range n).foldr (fun j x => f j + 16 * x) 0) (4 * i) 4 = f i := by
  induction n generalizing f i with
  | zero => exact absurd hi (Nat.not_lt_zero i)
  | succ n ih =>
    rw [List.range_succ_eq_map, List.foldr_cons, List.foldr_map, bitsAt_eq_div_mod]
    have h0 := hf 0
    cases i with
    | zero => simp only [Nat.mul_zero, pow_zero, Nat.div_one]; omega
    | succ i =>
      have htail := ih (fun j => f (j + 1)) (fun j => hf (j + 1)) i (by omega)
      rw [bitsAt_eq_div_mod] at htail
      rw [Nat.mul_succ, Nat.add_comm (4 * i), pow_add, ← Nat.div_div_eq_div_mul,
        show ∀ y, (f 0 + 16 * y) / 2 ^ 4 = y by intro y; omega]
      exact htail

theorem span_one_lt (s : Slices) (z : Nat) : s.span z 1 < 16 := Nat.mod_lt _ (by omega)

theorem foldl_tagGranules_sf (start n tag : Nat) (cond : Nat → Bool) (l : List Nat) (s : Slices) :
    (l.foldl (fun z g => if cond g then tagGranules z start n tag g 1 else z) s).sf = s.sf := by
  induction l generalizing s with
  | nil => rfl
  | cons g l ih =>
    rw [List.foldl_cons, ih]
    split
    · exact sf_tagGranules ..
    · rfl

/-- A slice of a write that lands but for its blocked slices. -/
theorem span_landExcept (s : Slices) {start n : Nat} (h : start + n ≤ 4096) (v tag : Nat) (blocked : Nat → Bool) (z : Nat) :
    (s.landExcept start n v tag blocked).span z 1 =
      if start ≤ z ∧ z < start + n ∧ blocked z = false then v / 16 ^ (z - start) % 16 else s.span z 1 := by
  have hsf : (s.landExcept start n v tag blocked).span z 1 = (s.put start n ((List.range n).foldr
      (fun i x => (if blocked (start + i) then s.span (start + i) 1 else bitsAt v (4 * i) 4) + 16 * x) 0)).span z 1 := by
    rw [Slices.landExcept, Slices.span, foldl_tagGranules_sf, Slices.span]
  rw [hsf, span_put_slice s h]
  by_cases hz : start ≤ z ∧ z < start + n
  · rw [if_pos hz, bitsAt_foldr_digits _ (fun i => ?_) n _ (by omega), Nat.add_sub_cancel' hz.1]
    · cases hb : blocked z with
      | true => simp
      | false => simp [hz, bitsAt_eq_div_mod, pow_mul]
    · split
      · exact span_one_lt s _
      · exact Nat.mod_lt _ (by omega)
  · rw [if_neg hz, if_neg fun h => hz ⟨h.1, h.2.1⟩]

theorem byIssue_pair (p q : PendWrite) : byIssue [p, q] = [p, q] ∨ byIssue [p, q] = [q, p] := by
  have hlist : byIssue [p, q] = if q.issue < p.issue then [q, p] else [p, q] := by
    simp only [byIssue, List.foldl_cons, List.foldl_nil, insertIssue]
  rw [hlist]
  split
  · exact .inr rfl
  · exact .inl rfl

/-- The slices from lo on and before hi are the ones that collide. -/
def shared (lo hi z : Nat) : Bool := decide (lo ≤ z) && decide (z < hi)

/-- A write of slices that meets a collision lands but for the slices that collide, and raises nothing itself. -/
theorem landWrite_clashed {t : Tile} {p : PendWrite} {x n v lo hi held : Nat} {tag : BitVec 5} (hp : p.dest = .slices x n v tag)
    (hm : meets x n lo (hi - lo) = true) : (t.landWrite p [(lo, hi)] held).raises = t.raises
      ∧ (t.landWrite p [(lo, hi)] held).slices = t.slices.landExcept x n v tag.toNat (shared lo hi) := by
  have hblock : (fun z => [(lo, hi)].any fun r => decide (r.1 ≤ z) && decide (z < r.2)) = shared lo hi := by
    funext z; simp [shared]
  rw [Tile.landWrite]
  simp only [hp, List.any_cons, List.any_nil, Bool.or_false, hm, if_true] at hblock ⊢
  split <;> exact ⟨rfl, rfl⟩

section Pair
variable {p q : PendWrite} {x n v y m w : Nat} {tp tq : BitVec 5}

theorem clashes_pair (hp : p.dest = .slices x n v tp) (hq : q.dest = .slices y m w tq) (hw : p.writer ≠ q.writer)
    (hxy : x < y + m) (hyx : y < x + n) :
    clashes [p, q] = [(max x y, min (x + n) (y + m), twoWriters p q)] := by
  simp [clashes, PendWrite.range, hp, hq, PendWrite.differs, hw, meets, hxy, hyx]

theorem predClashes_pair (hp : p.dest = .slices x n v tp) : predClashes [p, q] = [] := by
  simp [predClashes, PendWrite.mask, hp]

theorem tagClashes_pair (hp : p.dest = .slices x n v tp) (hq : q.dest = .slices y m w tq) : tagClashes [p, q] = [] := by
  simp [tagClashes, PendWrite.setsTag, hp, hq]

/-- The tile once two writes that meet have landed in the order of their issue. -/
theorem landAll_pair {t : Tile} {hand : Bool} {k : Nat}
    (hdue : byIssue (t.pend.filter fun r => r.hand == hand && decide (r.land ≤ k)) = [p, q])
    (hp : p.dest = .slices x n v tp) (hq : q.dest = .slices y m w tq) (hw : p.writer ≠ q.writer)
    (hn : x + n ≤ 4096) (hm : y + m ≤ 4096) (hx0 : 0 < n) (hy0 : 0 < m) (hxy : x < y + m) (hyx : y < x + n) :
    (∀ z, (t.landAll hand k).slices.span z 1 =
      if x ≤ z ∧ z < x + n ∧ (z < y ∨ y + m ≤ z) then v / 16 ^ (z - x) % 16
      else if y ≤ z ∧ z < y + m ∧ (z < x ∨ x + n ≤ z) then w / 16 ^ (z - y) % 16
      else t.slices.span z 1)
    ∧ ∃ r, (t.landAll hand k).raises = t.raises ++ [r] ∧ r.cause = 18 ∧ r.inst = false ∧ r.info % 4096 = max x y := by
  have hmp : meets x n (max x y) (min (x + n) (y + m) - max x y) = true := by simp [meets]; omega
  have hmq : meets y m (max x y) (min (x + n) (y + m) - max x y) = true := by simp [meets]; omega
  obtain ⟨hr1, hs1⟩ := landWrite_clashed (held := 0)
    (t := { t with pend := t.pend.filter fun r => !(r.hand == hand && decide (r.land ≤ k)) }) hp hmp
  generalize hu : Tile.landWrite _ p _ 0 = u at hr1 hs1
  obtain ⟨hr2, hs2⟩ := landWrite_clashed (held := 0) (t := u) hq hmq
  generalize hu' : u.landWrite q _ 0 = u' at hr2 hs2
  have hall : t.landAll hand k
      = u'.addRaise (clashRaise (max x y) (twoWriters p q).1 (twoWriters p q).2) := by
    rw [Tile.landAll, hdue, clashes_pair hp hq hw hxy hyx, predClashes_pair hp, tagClashes_pair hp hq]
    simp only [List.map_cons, List.map_nil, List.append_nil, List.foldl_cons, List.foldl_nil, hu, hu']
    rfl
  rw [hall]
  refine ⟨fun z => ?_, _, congrArg (· ++ [_]) (hr2.trans hr1), rfl, rfl, ?_⟩
  · refine (congrArg (fun a => a.span z 1) hs2).trans ?_
    rw [span_landExcept _ hm, hs1, span_landExcept _ hn]
    simp only [shared, Bool.and_eq_false_iff, decide_eq_false_iff_not]
    by_cases hxz : x ≤ z ∧ z < x + n <;> by_cases hyz : y ≤ z ∧ z < y + m
    · rw [if_neg (by omega), if_neg (by omega), if_neg (by omega), if_neg (by omega)]
    · rw [if_neg (by omega), if_pos (by omega), if_pos (by omega)]
    · rw [if_pos (by omega), if_neg (by omega), if_pos (by omega)]
    · rw [if_neg (by omega), if_neg (by omega), if_neg (by omega), if_neg (by omega)]
  · have hlow : max x y < 4096 := by omega
    simp only [clashRaise, raiseEnd]
    omega

end Pair

/-- Settles O14: whichever of the two was issued first, what each lands beside the other is the same. -/
theorem collidingWritesKeepSharedSlices : Obligations.CollidingWritesKeepSharedSlices := by
  intro t hand k p q x n v y m w tp tq hdue hp hq hw hn hm hx hy hxy hyx
  rcases byIssue_pair p q with hord | hord
  · obtain ⟨hspan, hraise⟩ := landAll_pair (t := t) (hand := hand) (k := k) (by rw [hdue, hord]) hp hq hw hx hy hn hm hxy hyx
    refine ⟨fun z h1 h2 h3 h4 => ?_, fun z h1 h2 h3 => ?_, fun z h1 h2 h3 => ?_, hraise⟩
    · rw [hspan, if_neg (by omega), if_neg (by omega)]
    · rw [hspan, if_pos ⟨h1, h2, h3⟩]
    · rw [hspan, if_neg (by omega), if_pos ⟨h1, h2, h3⟩]
  · obtain ⟨hspan, r, hr, hcause, hinst, hinfo⟩ := landAll_pair (t := t) (hand := hand) (k := k) (by rw [hdue, hord]) hq hp hw.symm hy hx hm hn hyx hxy
    refine ⟨fun z h1 h2 h3 h4 => ?_, fun z h1 h2 h3 => ?_, fun z h1 h2 h3 => ?_, r, hr, hcause, hinst, hinfo.trans (Nat.max_comm y x)⟩
    · rw [hspan, if_neg (by omega), if_neg (by omega)]
    · rw [hspan, if_neg (by omega), if_pos ⟨h1, h2, h3⟩]
    · rw [hspan, if_pos ⟨h1, h2, h3⟩]

end Sys2Proof.Machine

/-! PROOFS of the family 01_machine: what an issue changes. -/

namespace Sys2Proof.Machine

/-! ### What a read of the stores counts (R339, R474) -/

/-- WLD of one row of 256 bytes from the start of SPAD. -/
def loadRow : Mat := { ecl := 1, acc := 0, fa := 0, fb := 1, n := 1, sp := 0, wb := 0, acc2 := 0 }

/-- A folio of one tile with WLD at the head of MX, whose source's first word holds a correctable error. -/
def softWordFolio : Folio :=
  let f := folioOfWords .mx (encode (.wld loadRow))
  { f with tiles := f.tiles.map fun t => { t with stores := { t.stores with soft := [0] } } }

def softWordState : State := { State.reset with folios := [softWordFolio], cursor := ⟨0, 0, .mx, 0⟩ }

/-- The words that the tile at the cursor has corrected. -/
def correctedHere (s : State) : Option Nat := s.at?.map fun p => p.2.1.stores.cor

theorem correctedHere_softWordState : correctedHere softWordState = some 0 := by decide +kernel

/-- Issuing the WLD counts the corrected word. -/
theorem exec_loadRow : ∃ s', exec (.wld loadRow) softWordState = .next s' ∧ correctedHere s' = some 1 :=
  ⟨_, rfl, by decide +kernel⟩

/-- A tile put back at the cursor of the state is the one that stands there. -/
theorem correctedHere_putTile (t' : Tile) :
    correctedHere (softWordState.putTile softWordFolio t') = some t'.stores.cor := rfl

/-- Refutes O15: an issue that reads SPAD counts the correctable words it finds in the tile's stores, so that these do not stay as they
are: a WLD whose source's first word is such a word counts it. -/
theorem not_queueInstructionsKeepTheirFrame : ¬ Obligations.QueueInstructionsKeepTheirFrame := by
  rintro ⟨hframe, -⟩
  obtain ⟨s', hexec, hcount⟩ := exec_loadRow
  obtain ⟨f, t, c, t', hat, rfl, -, hstores, -⟩ := hframe _ _ _ rfl hexec
  obtain ⟨hf, -, -⟩ := at?_eq_some_iff.1 hat
  obtain rfl : softWordFolio = f := Option.some.inj hf
  have hbefore : correctedHere softWordState = some t.stores.cor := by rw [correctedHere, hat]; rfl
  rw [correctedHere_putTile, hstores, ← hbefore, correctedHere_softWordState] at hcount
  exact absurd hcount (by decide)

end Sys2Proof.Machine

/-! PROOFS of the family 04_progress_control_timing: redirects, loops, waits, tokens, prefixes and trap instructions. -/

namespace Sys2Proof.Machine

/-! ### A redirect (R71, R139) -/

theorem vget_map {α β : Type} [Inhabited α] [Inhabited β] {n : Nat} (v : Vector α n) (f : α → β) {i : Nat} (hi : i < n) :
    vget (v.map f) i = f (vget v i) := by
  simp [vget, hi]

theorem queueNum_pred_lt (q : Queue) : queueNum q - 1 < 6 := by cases q <;> decide

/-- The queues and the fetch unit once what stands behind the instruction in fetch order is cancelled. -/
def Tile.cancelled (t : Tile) (c : Ctx) : Control :=
  let f := t.ctl.fetch
  let keep := match f.owe with
    | some o => if o.seq < c.e.seq then [{ owe := o, from_ := c.k + 1, got := none }] else []
    | none => []
  { t.ctl.cancel c.e.seq with fetch := { f with
    owe := none, cross := f.cross ++ keep, buf := [], ifence := 0
    flags := f.flags.filter fun x => decide (x < c.e.seq) } }

/-- The tile after a redirect to nowhere. -/
def Tile.stopped (t : Tile) (c : Ctx) : Tile :=
  { t with
    ctl := { t.cancelled c with fetch := { (t.cancelled c).fetch with direct := [], running := false } }
    raises := t.raises.filter (t.cancelled c).stands }

/-- The tile after a redirect to line l, whose buffer began to fill in cycle fill. -/
def Tile.turnedTo (t : Tile) (c : Ctx) (l : Nat) (fill : Int) : Tile :=
  { t with
    ctl := { t.cancelled c with fetch := { (t.cancelled c).fetch with
      direct := [l, l + 1], directAt := max (c.k + 1) (fill + 5).toNat, nextRead := l + 2, readFrom := c.k + 1, running := true } }
    raises := t.raises.filter (t.cancelled c).stands }

theorem cancelled_entries (t : Tile) (c : Ctx) (q : Queue) :
    (t.cancelled c).entries q = (t.ctl.entries q).filter fun e => decide (e.seq ≤ c.e.seq) :=
  vget_map _ _ (queueNum_pred_lt q)

theorem cancelled_orphan_of_noOrphan {t : Tile} {c : Ctx} (h : t.noOrphan c) : (t.cancelled c).orphan = none := by
  rw [Control.orphan, List.findSome?_eq_none_iff]
  intro q _
  split
  · rfl
  · rw [cancelled_entries]
    split
    case h_1 e he => simp [h q e he]
    case h_2 => rfl

theorem not_orphan_of_noOrphan {t : Tile} {c : Ctx} (h : t.noOrphan c) : ¬(t.cancelled c).orphan.isSome = true := by
  rw [cancelled_orphan_of_noOrphan h]
  exact Bool.false_ne_true

theorem cancelled_orphan_of_orphaned {t : Tile} {c : Ctx} (h : t.orphaned c) : (t.cancelled c).orphan.isSome = true := by
  obtain ⟨q, e, he, hm, hpfx, howe, hcross⟩ := h
  rw [Control.orphan, List.findSome?_isSome_iff]
  refine ⟨q, by cases q <;> decide, ?_⟩
  have hkeep : ((t.cancelled c).fetch.cross.any fun o => o.owe.q == q) = false := by
    rw [List.any_eq_false]
    intro x hx
    rw [beq_iff_eq]
    rcases List.mem_append.1 hx with hx | hx
    · exact hcross x hx
    · split at hx
      case h_1 o ho =>
        split at hx
        case isTrue hlt =>
          obtain rfl := List.mem_singleton.1 hx
          exact fun hq => absurd (howe o ho hq) (Nat.not_le.2 hlt)
        case isFalse => cases hx
      case h_2 => cases hx
  have howed : ((t.cancelled c).fetch.owe.map fun o => o.q == q).getD false = false := rfl
  rw [howed, hkeep, cancelled_entries, he]
  simp [hm, hpfx]

section Redirect
variable {t : Tile} {c : Ctx} {fill : Int}

theorem redirect_orphaned (h : t.orphaned c) (target : Option Int) : t.redirect c target fill = .error (c.raise 7) :=
  if_pos (cancelled_orphan_of_orphaned h)

theorem redirect_none (h : t.noOrphan c) : t.redirect c none fill = .ok (t.stopped c) :=
  if_neg (not_orphan_of_noOrphan h)

theorem redirect_line {l : Int} (h : t.noOrphan c) (h0 : 0 ≤ l) (h1 : l ≤ 4095) :
    t.redirect c (some l) fill = .ok (t.turnedTo c l.toNat fill) :=
  (if_neg (not_orphan_of_noOrphan h)).trans
    (if_neg (by omega))

theorem redirect_noLine {l : Int} (h : t.noOrphan c) (hl : ¬(0 ≤ l ∧ l ≤ 4095)) :
    t.redirect c (some l) fill = .error (c.raiseInfo 9 (ofSigned 64 l) 0) :=
  (if_neg (not_orphan_of_noOrphan h)).trans
    (if_pos (by omega))

/-- A tile with the queues that the cancellation leaves, and a fetch unit without what was under way. -/
theorem redirected_of {t' : Tile} (hq : t'.ctl.queues = (t.cancelled c).queues)
    (hf : t'.ctl.fetch.buf = [] ∧ t'.ctl.fetch.owe = none ∧ t'.ctl.fetch.ifence = 0)
    (hk : t'.slices = t.slices ∧ t'.stores = t.stores ∧ t'.tok = t.tok ∧ t'.trap = t.trap ∧ t'.wins = t.wins) : Redirected t t' c :=
  ⟨fun q => (congrArg (fun v => vget v (queueNum q - 1)) hq).trans (cancelled_entries t c q), hf, hk⟩

/-- A tile with the queues and the fetch unit of a redirect to line l. -/
theorem redirected_to {t' : Tile} {l : Nat} (hq : t'.ctl.queues = (t.cancelled c).queues)
    (hf : t'.ctl.fetch = (t.turnedTo c l fill).ctl.fetch)
    (hk : t'.slices = t.slices ∧ t'.stores = t.stores ∧ t'.tok = t.tok ∧ t'.trap = t.trap ∧ t'.wins = t.wins) :
    Redirected t t' c ∧ fetchesFrom t' c l fill := by
  refine ⟨redirected_of hq (by rw [hf]; exact ⟨rfl, rfl, rfl⟩) hk, ?_⟩
  rw [fetchesFrom, hf]
  refine ⟨rfl, rfl, rfl, ?_⟩
  simp only [Tile.turnedTo]
  omega

end Redirect

/-! ### Redirecting instructions (R142 to R149, R155) -/

theorem foldl_fixed_of_mem {α β : Type} {f : α → β → α} {a : α} {l : List β} (h : ∀ x ∈ l, f a x = a) : l.foldl f a = a := by
  induction l with
  | nil => rfl
  | cons x l ih =>
    rw [List.foldl_cons, h x List.mem_cons_self]
    exact ih fun y hy => h y (List.mem_cons_of_mem _ hy)

/-- An effect that posts only writes of no predicate meets no predicate that awaits one (R466). -/
theorem predsApart_of_append {t t' : Tile} {c : Ctx} {l : List PendWrite} (h : t'.pend = t.pend ++ l)
    (hl : ∀ p ∈ l, ∀ m v, p.dest ≠ .preds m v) : t.predsApart c t' := by
  simp only [Tile.predsApart, Tile.folioPreds, h, List.drop_left]
  rw [foldl_fixed_of_mem (l := l)]
  · simp
  · intro p hp
    split
    case h_1 k v hd => exact absurd hd (hl p hp k v)
    case h_2 => rfl

/-- An instruction that redirects by its body's answer. -/
theorem redirects_of_body {i : Instr} {n : Tile → Info} {own : Ctx → Tile → Option Hold} {body : Ctx → Tile → Except Raise Tile}
    {ok : Ctx → Tile → Prop} {l : Ctx → Tile → Nat} {fill : Ctx → Tile → Int} {more : Ctx → Tile → Tile → Prop} {g : Ctx → Tile → Tile}
    (he : ∀ s, exec i s = issue n own body s) (ho : ∀ c t, ok c t → own c t = none)
    (hb : ∀ c t, t.noOrphan c → ok c t → body c t = .ok (g c t)) (hp : ∀ c (t : Tile), t.predsApart c (g c t))
    (hr : ∀ c t, ok c t → Redirected t (g c t) c ∧ fetchesFrom (g c t) c (l c t) (fill c t) ∧ more c t (g c t)) :
    Redirects i n ok l fill more := fun _ _ t c h hno hok =>
  ⟨g c t, by rw [he, issue_ok h (ho c t hok) (hb c t hno hok) (hp c t)], hr c t hok⟩

theorem redirectVia_valid {t : Tile} {c : Ctx} {b : Nat} (h : t.noOrphan c) (hv : t.targetValid b) :
    t.redirectVia c b = .ok (t.turnedTo c (t.targetLine b) (t.fillOf b)) :=
  redirect_line h hv.1 hv.2

theorem redirectVia_invalid {t : Tile} {c : Ctx} {b : Nat} (h : t.noOrphan c) (hv : ¬t.targetValid b) :
    t.redirectVia c b = .error (c.raiseInfo 9 (ofSigned 64 (vget t.ctl.btgt b).line) 0) :=
  redirect_noLine h hv

theorem redirectVia_orphaned {t : Tile} {c : Ctx} {b : Nat} (h : t.orphaned c) : t.redirectVia c b = .error (c.raise 7) :=
  redirect_orphaned (t := t) h (some (vget t.ctl.btgt b).line)

/-- Whether BR is taken (R144). -/
theorem brTaken_iff (t : Tile) (p : BitVec 4) (n u : Bool) :
    (u || (t.pred p.toNat != n)) = true ↔ u = true ∨ t.pred p.toNat ≠ n := by
  simp

/-- No queue whose emptiness OVL waits for is busy (R149). -/
theorem ovlWait_none {t : Tile} {c : Ctx} (h : ∀ i < 6, t.trailer.testBit i = true → t.queueBusy c (i + 1) = false) :
    (if (List.range 6).any fun i => t.trailer.testBit i && t.queueBusy c (i + 1) then some Hold.wait else none) = none := by
  refine if_neg ?_
  simp only [List.any_eq_true, List.mem_range, Bool.and_eq_true, not_exists, not_and, Bool.not_eq_true]
  exact fun i hi ht => h i hi ht

/-- TRET waits for no write or access of the handler's (R467). -/
theorem tretWait_none {t : Tile} {c : Ctx} (hp : ∀ p ∈ t.pend, p.hand = true → p.land ≤ c.k)
    (ha : ∀ a ∈ t.ap.accs, a.hand = false) :
    (if c.hand && ((t.pend.any fun p => p.hand && decide (c.k < p.land)) || t.ap.accs.any fun a => a.hand) then some Hold.wait
      else none) = none := by
  have hpend : (t.pend.any fun p => p.hand && decide (c.k < p.land)) = false := by
    simpa using hp
  have haccs : (t.ap.accs.any fun a => a.hand) = false := by simpa using ha
  rw [hpend, haccs, Bool.or_self, Bool.and_false]
  rfl

/-- Settles O16: each body redirects where no orphan PFX would be left, by the equations of the redirect. -/
theorem redirectsComplete : Obligations.RedirectsComplete := by
  refine ⟨?halt, ?tret, fun b p n u => ⟨?br, ?brNot⟩, fun b slide => ⟨?call, ?ret⟩, fun n => ?ovl⟩
  case halt =>
    intro s f t c h hno
    refine ⟨{ t.stopped c with halting := true }, ?_, redirected_of rfl ⟨rfl, rfl, rfl⟩ ⟨rfl, rfl, rfl, rfl, rfl⟩, rfl, rfl, rfl⟩
    exact issue_ok h rfl (by rw [redirect_none hno]; rfl) (Tile.predsApart_of_pend rfl)
  case tret =>
    intro s f t c h hno hhand hpend haccs
    refine ⟨{ t.stopped c with trap := { t.trap with ret := true } }, ?_, rfl, redirected_of rfl ⟨rfl, rfl, rfl⟩ ⟨rfl, rfl, rfl, rfl, rfl⟩, rfl, rfl, rfl⟩
    exact issue_ok h (tretWait_none hpend haccs) (by rw [if_pos hhand, redirect_none hno]; rfl) (Tile.predsApart_of_pend rfl)
  case br =>
    refine redirects_of_body (g := fun c t => t.turnedTo c (t.targetLine b.toNat) (t.fillOf b.toNat)) (fun _ => rfl) (fun _ _ _ => rfl) (fun c t hno hok => ?_) (fun c t => Tile.predsApart_of_pend rfl)
      fun c t hok => and_assoc.1 ⟨redirected_to rfl rfl ⟨rfl, rfl, rfl, rfl, rfl⟩, rfl⟩
    rw [if_pos ((brTaken_iff t p n u).2 hok.1), redirectVia_valid hno hok.2]
  case brNot =>
    exact completes_of_noHold (fun _ => rfl) fun c t hok => if_neg (by rw [brTaken_iff, hok.1, hok.2]; simp)
  case call =>
    refine redirects_of_body (g := fun c t => ((t.turnedTo c (t.targetLine b.toNat) (t.fillOf b.toNat)).loadTarget c 7
        ((c.e.line : Int) + 1)).later c 1 (.winb (t.ctl.winb + slide.toNat)) [])
      (fun _ => rfl) (fun _ _ _ => rfl) (fun c t hno hok => ?_) (fun c t => ?_)
      fun c t hok => and_assoc.1 ⟨redirected_to rfl rfl ⟨rfl, rfl, rfl, rfl, rfl⟩, rfl⟩
    · simp only [redirectVia_valid hno hok.1, if_neg (Nat.not_lt.2 hok.2)]
    · exact predsApart_of_append (List.append_assoc ..) (by simp)
  case ret =>
    refine redirects_of_body (g := fun c t => (t.turnedTo c (t.targetLine 7) (t.fillOf 7)).later c 1
        (.winb (t.ctl.winb - slide.toNat)) [])
      (fun _ => rfl) (fun _ _ _ => rfl) (fun c t hno hok => ?_) (fun c t => ?_)
      fun c t hok => and_assoc.1 ⟨redirected_to rfl rfl ⟨rfl, rfl, rfl, rfl, rfl⟩, rfl⟩
    · simp only [redirectVia_valid hno hok.1, if_neg (Nat.not_lt.2 hok.2)]
    · exact predsApart_of_append rfl (by simp)
  case ovl =>
    refine redirects_of_body (g := fun c t => { t.turnedTo c ((vget t.csr.ovt n.toNat).toNat % 4096) c.k with
        csr := { t.csr with ovcur := n.toNat } })
      (fun _ => rfl) (fun c t hok => ovlWait_none hok.1) (fun c t hno hok => ?_) (fun c t => Tile.predsApart_of_pend rfl)
      fun c t hok => and_assoc.1 ⟨redirected_to rfl rfl ⟨rfl, rfl, rfl, rfl, rfl⟩, rfl⟩
    have hline := redirect_line (fill := c.k) (l := (((vget t.csr.ovt n.toNat).toNat % 4096 : Nat) : Int)) hno (by omega) (by omega)
    have hset : (vget t.csr.ovt n.toNat).toNat.testBit 63 = true := hok.2
    simp only [hset, hline]
    rfl

/-- Settles O17: each body answers the redirect's own refusal, or that of its slide or overlay. -/
theorem redirectTraps : Obligations.RedirectTraps := by
  refine ⟨fun b p n u => ?br, fun b slide => ⟨?callLine, ?callSlide, ?retLine, ?retSlide⟩, fun n => ?ovl,
    ?haltOrphan, ?tretOrphan, fun b p n u => ?brOrphan, fun b slide => ⟨?callOrphan, ?retOrphan⟩, fun l p n => ?lbrkOrphan,
    fun n => ?ovlOrphan⟩
  case br =>
    refine traps_of_body (fun _ => rfl) (fun _ _ _ => rfl) fun c t ⟨hno, htaken, hv⟩ => ?_
    rw [if_pos ((brTaken_iff t p n u).2 htaken), redirectVia_invalid hno hv]
  case brOrphan =>
    refine traps_of_body (fun _ => rfl) (fun _ _ _ => rfl) fun c t ⟨ho, htaken, _⟩ => ?_
    rw [if_pos ((brTaken_iff t p n u).2 htaken), redirectVia_orphaned ho]
  case callLine | retLine =>
    exact traps_of_body (fun _ => rfl) (fun _ _ _ => rfl) fun c t ⟨hno, hv⟩ => by simp only [redirectVia_invalid hno hv]
  case callSlide =>
    exact traps_of_body (fun _ => rfl) (fun _ _ _ => rfl) fun c t ⟨hno, hv, hw⟩ => by
      simp only [redirectVia_valid hno hv, if_pos hw]
  case retSlide =>
    exact traps_of_body (fun _ => rfl) (fun _ _ _ => rfl) fun c t ⟨hno, hv, hw⟩ => by
      simp only [redirectVia_valid hno hv, if_pos hw]
  case callOrphan | retOrphan =>
    exact traps_of_body (fun _ => rfl) (fun _ _ _ => rfl) fun c t ⟨ho, _⟩ => by simp only [redirectVia_orphaned ho]
  case ovl =>
    refine traps_of_body (fun _ => rfl) (fun c t h => ovlWait_none h.1) fun c t ⟨_, hv⟩ => ?_
    have hunset : (vget t.csr.ovt n.toNat).toNat.testBit 63 = false := hv
    simp only [hunset, Bool.not_false, if_true]
  case ovlOrphan =>
    refine traps_of_body (fun _ => rfl) (fun c t h => ovlWait_none h.2.1) fun c t ⟨ho, _, hv⟩ => ?_
    have hset : (vget t.csr.ovt n.toNat).toNat.testBit 63 = true := hv
    simp only [hset, redirect_orphaned ho]
    rfl
  case haltOrphan =>
    exact traps_of_body (fun _ => rfl) (fun _ _ _ => rfl) fun c t ⟨ho, _⟩ => by simp only [redirect_orphaned ho]; rfl
  case tretOrphan =>
    refine traps_of_body (fun _ => rfl) (fun c t h => tretWait_none h.2.2.1 h.2.2.2) fun c t ⟨ho, hhand, _⟩ => ?_
    rw [if_pos hhand, redirect_orphaned ho]
    rfl
  case lbrkOrphan =>
    refine traps_of_body (fun _ => rfl) (fun _ _ _ => rfl) fun c t ⟨ho, hact, hp⟩ => ?_
    simp only [hact, redirect_orphaned ho, Bool.not_true, Bool.false_eq_true, if_false, beq_iff_eq, hp]
    rfl

/-! ### Leaving a loop (R147) -/

/-- A folio of one tile with LBRK at the head of SQ and level 0 open over a body whose last line is 2^64 - 1. -/
def lastLineFolio : Folio :=
  let f := folioOfWords .sq (encode (.lbrk 0 0 true))
  { f with tiles := f.tiles.map fun t => { t with ctl := { t.ctl with loops := vset t.ctl.loops 0 ⟨true, 1, 0, 2 ^ 64 - 1, 0⟩ } } }

def lastLineState : State := { State.reset with folios := [lastLineFolio], cursor := ⟨0, 0, .sq, 0⟩ }

/-- What the raises of the tile at the cursor say. -/
def raiseInfosHere (s : State) : Option (List Nat) := s.at?.map fun p => p.2.1.raises.map fun r => r.info

/-- Cause 9 says the line modulo 2^64. -/
theorem exec_lbrk_lastLine : ∃ s', exec (.lbrk 0 0 true) lastLineState = .next s' ∧ raiseInfosHere s' = some [0] :=
  ⟨_, rfl, by decide +kernel⟩

/-- An instruction outside a handler, with no PFX before it, that is no access issues where its operands are ready and it can pay. -/
theorem issues_of_ready {s : State} {f : Folio} {t : Tile} {c : Ctx} {n : Info} (hat : s.at? = some (f, t, c)) (hpfx : c.pfx = none)
    (hhand : c.hand = false) (hacc : n.acc = none) (hlegal : n.cause = none) (hfree : t.queueHeld c = false)
    (hready : t.violation c n = false) (hpaid : t.blocked = false ∧ n.debit c ≤ t.avail)
    (hinside : ∀ p ∈ n.srcs ++ n.dsts, p.1 + p.2 ≤ 4096) (hsound : t.badSlice n.srcs = none) : Issues s f t c n where
  here := hat
  free := hfree
  legal := hlegal
  ready := hready
  unfenced a ha := by rw [hacc] at ha; cases ha
  paid := .inr (.inr hpaid)
  accepts p hp := by rw [hpfx] at hp; cases hp
  allowed hc := by rw [hhand] at hc; cases hc
  inside := hinside
  settled := by rw [Tile.folioPending, hhand]; rfl
  sound := hsound

theorem noOrphan_of_noPfx {t : Tile} {c : Ctx} (h : ∀ q ∈ allQueues, ∀ e ∈ t.ctl.entries q, major e.w0 ≠ 0x5F) : t.noOrphan c :=
  fun q e he => h q (by cases q <;> decide) e (List.mem_filter.1 (List.mem_of_getLast? he)).1

theorem lastLine_issues : ∃ f t c, Issues lastLineState f t c (seqInfo none [] [] [0] false) ∧ t.noOrphan c ∧ c.hand = false
    ∧ (vget t.ctl.loops 0).act = true ∧ t.pred 0 ≠ true ∧ (vget t.ctl.loops 0).last = 2 ^ 64 - 1 := by
  refine ⟨_, _, _, issues_of_ready (by exact rfl) ?_ ?_ rfl rfl ?_ ?_ ?_ ?_ ?_, noOrphan_of_noPfx ?_, ?_, ?_, ?_, ?_⟩
  all_goals decide +kernel

theorem raiseInfosHere_putTile (t' : Tile) :
    raiseInfosHere (lastLineState.putTile lastLineFolio t') = some (t'.raises.map fun r => r.info) := rfl

/-- Refutes O18: LBRK out of a body whose last line is 2^64 - 1 raises cause 9 with the next line modulo 2^64, which is 0 and not the
2^64 of the statement. -/
theorem not_loopsComplete : ¬ Obligations.LoopsComplete := by
  rintro ⟨-, hlbrk, -⟩
  obtain ⟨-, -, -, htrap⟩ := hlbrk 0 0 true
  obtain ⟨f, t, c, hissues, hno, hhand, hact, hp, hlast⟩ := lastLine_issues
  obtain ⟨s', hexec, hinfos⟩ := exec_lbrk_lastLine
  have hline : 4095 ≤ (vget t.ctl.loops 0).last := by rw [hlast]; decide
  have hnext := htrap _ f t c hissues ⟨hno, hact, hp, hline⟩
  obtain ⟨hf, -, -⟩ := at?_eq_some_iff.1 hissues.here
  obtain rfl : lastLineFolio = f := Option.some.inj hf
  obtain rfl := Host.Outcome.next.inj (hexec.symm.trans hnext)
  have hinHand (r : Raise) : c.inHand r = r := if_pos (by rw [hhand]; rfl)
  rw [raiseInfosHere_putTile, hinHand] at hinfos
  have hsays : (c.raiseInfo 9 ((vget t.ctl.loops 0).last + 1) 0).info = 0 := by
    have hlist := congrArg List.getLast? (Option.some.inj hinfos)
    simpa [Tile.addRaise] using hlist
  exact absurd hsays (Nat.succ_ne_zero _)

/-- Settles O46: each body raises its cause, BRK only where no breakpoint is armed. -/
theorem trapInstructionsComplete : Obligations.TrapInstructionsComplete := by
  refine ⟨fun arg => ?trap, fun code => ⟨?brk, ?brkArmed⟩, ?tret⟩
  case trap => exact traps_of_body (fun _ => rfl) (fun _ _ _ => rfl) fun _ _ _ => rfl
  case brk =>
    exact traps_of_body (fun _ => rfl) (fun _ _ _ => rfl) fun c t h => if_neg (by rw [h]; exact Bool.false_ne_true)
  case brkArmed => exact completes_of_noHold (fun _ => rfl) fun c t h => if_pos h
  case tret =>
    refine traps_of_body (fun _ => rfl) (fun c t h => ?_) fun c t h => if_neg (by rw [h]; exact Bool.false_ne_true)
    rw [h, Bool.false_and]
    rfl

/-! ### Waits, tokens and prefixes (R69, R70, R143 to R154) -/

/-- An instruction that would issue and has a hold of its own waits with it at its head. -/
theorem holdOf_some {s : State} {f : Folio} {t : Tile} {c : Ctx} {n : Info} (h : Issues s f t c n) (x : Hold) :
    holdOf n (some x) c t = some x := by
  have hallowed : (c.hand && !n.hand) = false := by
    cases hc : c.hand with
    | false => rfl
    | true => simp [h.allowed hc]
  simp [holdOf, h.free, h.legal, h.ready, hallowed]

theorem issue_heldAt {info : Tile → Info} {own : Ctx → Tile → Option Hold} {body : Ctx → Tile → Except Raise Tile} {s : State}
    {f : Folio} {t : Tile} {c : Ctx} {x : Hold} (h : Issues s f t c (info t)) (ho : own c t = some x) :
    issue info own body s = .next (s.putTile f (t.heldAt c x)) := by
  simp only [issue, h.here, attempt, ho, holdOf_some h x]

/-- The same for a hold other than a fence's. -/
theorem issue_held {info : Tile → Info} {own : Ctx → Tile → Option Hold} {body : Ctx → Tile → Except Raise Tile} {s : State}
    {f : Folio} {t : Tile} {c : Ctx} {x : Hold} (h : Issues s f t c (info t)) (ho : own c t = some x) (hx : x ≠ .fence) :
    issue info own body s = .next (s.putTile f (t.held x)) := by
  have hno : (x == Hold.fence) = false := by simpa using hx
  rw [issue_heldAt h ho, Tile.heldAt, hno]
  simp

/-- Settles O19: each body answers the stated effect, WAITC with m = 1 by its hold. -/
theorem sequencerPlainComplete : Obligations.SequencerPlainComplete := by
  refine ⟨?nop, fun b disp => ?pbr, fun b a => ?pbrs, ?ifence, fun map => ⟨?penlift, ?penliftTrap⟩, fun delay => ?waitc,
    fun a => ?until_, fun a s f t c h hlt => ?untilHolds, fun s f t c h => ?expiry⟩
  case nop | pbrs | ifence | waitc => exact completes_of_noHold (fun _ => rfl) fun _ _ _ => rfl
  case pbr => exact completes_of_noHold (fun _ => rfl) fun c t _ => by rw [toSigned_toNat]; rfl
  case penlift => exact completes_of_noHold (fun _ => rfl) fun c t h => if_neg (by rw [h]; exact Bool.false_ne_true)
  case penliftTrap => exact traps_of_body (fun _ => rfl) (fun _ _ _ => rfl) fun c t h => if_pos h
  case until_ => exact completes_of_body (fun _ => rfl) (fun c t h => if_neg (Nat.not_lt.2 h)) fun _ _ _ => rfl
  case untilHolds => exact issue_held h (if_pos hlt) (by decide)
  case expiry =>
    show execWaitcDelayExpiry s = _
    rw [execWaitcDelayExpiry, h]
    dsimp only
    split <;> rfl

/-- Settles O20: WAITT by its grant, PFX by what stands behind it in its queue. -/
theorem tokensAndPfxComplete : Obligations.TokensAndPfxComplete := by
  refine ⟨fun t n => ⟨?waitt, fun s f tl c h hno => ?waittHolds, ?sigt⟩, fun p s f t c e h hfree hlegal he => ?pfx⟩
  case waitt => exact completes_of_body (fun _ => rfl) (fun c tl h => if_pos (List.contains_iff_mem.2 h)) fun _ _ _ => rfl
  case waittHolds => exact issue_held h (if_neg (mt List.contains_iff_mem.1 hno)) (by decide)
  case sigt => exact completes_of_noHold (fun _ => rfl) fun _ _ _ => rfl
  case pfx =>
    have hexec : exec (.pfx p) s = if e.marker.isNone && major e.w0 == 0x5F then .next (s.putTile f (t.addRaise (c.inHand (c.raise 8))))
        else .next (s.putTile f { t with ctl := { t.ctl with pfx := some (c.q, p) } }) := by
      show execPfx p s = _
      rw [execPfx, h]
      simp only [hfree, hlegal, he, Bool.false_eq_true, if_false]
    refine ⟨fun hno => hexec.trans (if_neg ?_), fun hm hpfx => hexec.trans (if_pos ?_)⟩
    · simp only [Bool.and_eq_true, beq_iff_eq, not_and]
      rcases hno with hm | hpfx
      · intro hnone; rw [Option.isNone_iff_eq_none.1 hnone] at hm; cases hm
      · exact fun _ => hpfx
    · simp [hm, hpfx]

/-! ### Tokens (R151) -/

/-- The tokens n that the WAITT at the head of a queue asks for. -/
def Tile.asks (t : Tile) (n : BitVec 3) (q : Queue) : Nat :=
  match t.headInstr q with
  | some (.waitt m k) => if m = n then k.toNat else 0
  | _ => 0

/-- What a cycle grants of a counter is no more than it holds. -/
theorem sum_asks_grantTokens_le (t : Tile) (c : Ctx) (n : BitVec 3) (qs : List Queue) (tok : Vector Nat 8) :
    ((grantTokens t c tok qs).map (t.asks n)).sum ≤ vget tok n.toNat := by
  induction qs generalizing tok with
  | nil => exact Nat.zero_le _
  | cons q r ih =>
    rw [grantTokens]
    split
    case h_2 => exact ih tok
    case h_1 m k hm =>
      split
      case isFalse => exact ih tok
      case isTrue hgo =>
        simp only [Bool.and_eq_true, decide_eq_true_eq] at hgo
        rw [List.map_cons, List.sum_cons]
        have hrest := ih (vset tok m.toNat (vget tok m.toNat - k.toNat))
        have hasks : t.asks n q = if m = n then k.toNat else 0 := by rw [Tile.asks, hm]
        rw [hasks]
        by_cases hmn : m = n
        · subst hmn
          rw [vget_vset_eq _ _ _ m.isLt] at hrest
          rw [if_pos rfl]
          omega
        · rw [vget_vset_ne _ _ _ _ fun h => hmn (BitVec.eq_of_toNat_eq h.symm)] at hrest
          rw [if_neg hmn]
          omega

/-- The signals of token n of a cycle join its counter (R151). -/
def Tile.joinToken (t : Tile) (n : Nat) : Tile :=
  let mine := t.sigs.filter fun x => x.1 == n && x.2.1 != 0
  let sum := (mine.map fun x => x.2.1).sum
  match mine.getLast? with
  | none => t
  | some l =>
    if 255 < vget t.tok n + sum then t.addRaise (raiseEnd 60 n 0)
    else { t with tok := vset t.tok n (vget t.tok n + sum), sigBy := vset t.sigBy n l.2.2 }

/-- What the signals of a cycle add to token n. -/
def Tile.signalled (t : Tile) (n : Nat) : Nat := ((t.sigs.filter fun x => x.1 == n).map fun x => x.2.1).sum

/-- Signals of nothing add nothing. -/
theorem sum_filter_ne_zero (l : List (Nat × Nat × Nat)) (n : Nat) :
    ((l.filter fun x => x.1 == n && x.2.1 != 0).map fun x => x.2.1).sum = ((l.filter fun x => x.1 == n).map fun x => x.2.1).sum := by
  induction l with
  | nil => rfl
  | cons x l ih =>
    rw [List.filter_cons, List.filter_cons]
    by_cases hn : x.1 = n
    · by_cases h0 : x.2.1 = 0
      · simp [hn, h0, ih]
      · simp [hn, h0, ih]
    · simp [hn, ih]

theorem sigs_joinToken (t : Tile) (n : Nat) : (t.joinToken n).sigs = t.sigs := by
  rw [Tile.joinToken]
  split
  · rfl
  · split <;> rfl

theorem tok_joinToken_ne (t : Tile) {n m : Nat} (h : n ≠ m) : vget (t.joinToken m).tok n = vget t.tok n := by
  rw [Tile.joinToken]
  split
  · rfl
  · split
    · rfl
    · exact vget_vset_ne _ _ _ _ h

theorem mem_raises_joinToken {t : Tile} {r : Raise} (h : r ∈ t.raises) (n : Nat) : r ∈ (t.joinToken n).raises := by
  rw [Tile.joinToken]
  split
  · exact h
  · split
    · exact List.mem_append_left _ h
    · exact h

/-- The counter takes the sum where it stays within 255, and else raises. -/
theorem joinToken_spec (t : Tile) {n : Nat} (hn : n < 8) :
    (vget t.tok n + t.signalled n ≤ 255 → vget (t.joinToken n).tok n = vget t.tok n + t.signalled n)
    ∧ (255 < vget t.tok n + t.signalled n → 0 < t.signalled n →
      vget (t.joinToken n).tok n = vget t.tok n ∧ raiseEnd 60 n 0 ∈ (t.joinToken n).raises) := by
  have hsum := sum_filter_ne_zero t.sigs n
  rw [Tile.joinToken, Tile.signalled]
  rw [hsum]
  split
  case h_1 hnone =>
    rw [List.getLast?_eq_none_iff] at hnone
    rw [hnone] at hsum
    rw [← hsum]
    exact ⟨fun _ => rfl, fun _ h => absurd h (Nat.lt_irrefl 0)⟩
  case h_2 =>
    split
    case isTrue hover => exact ⟨fun h => absurd hover (Nat.not_lt.2 h), fun _ _ => ⟨rfl, List.mem_append_right _ (List.mem_singleton_self _)⟩⟩
    case isFalse hfits => exact ⟨fun _ => vget_vset_eq _ _ _ hn, fun h => absurd h hfits⟩

/-- The other tokens' signals leave a counter, the signals and the raises so far. -/
theorem foldl_joinToken_frame (l : List Nat) (n : Nat) (hn : n ∉ l) (t : Tile) : (l.foldl Tile.joinToken t).sigs = t.sigs
    ∧ vget (l.foldl Tile.joinToken t).tok n = vget t.tok n ∧ ∀ r ∈ t.raises, r ∈ (l.foldl Tile.joinToken t).raises := by
  induction l generalizing t with
  | nil => exact ⟨rfl, rfl, fun _ h => h⟩
  | cons m l ih =>
    obtain ⟨hsigs, htok, hraises⟩ := ih (fun h => hn (List.mem_cons_of_mem _ h)) (t.joinToken m)
    have hm : n ≠ m := fun h => hn (h ▸ List.mem_cons_self)
    exact ⟨hsigs.trans (sigs_joinToken t m), htok.trans (tok_joinToken_ne t hm),
      fun r hr => hraises r (mem_raises_joinToken hr m)⟩

/-- Settles O21: grants by induction over the queues, the sums token by token. -/
theorem tokenCountersStayInRange : Obligations.TokenCountersStayInRange := by
  refine ⟨fun t c tok n qs => sum_asks_grantTokens_le t c n qs tok, fun t n hn => ?_⟩
  obtain ⟨before, after, hsplit⟩ := List.append_of_mem (List.mem_range.2 hn)
  have hnodup : (before ++ n :: after).Nodup := hsplit ▸ List.nodup_range
  have hb : n ∉ before := fun h => (List.disjoint_of_nodup_append hnodup) h List.mem_cons_self
  have ha : n ∉ after := (List.nodup_cons.1 (List.Nodup.of_append_right hnodup)).1
  have hall : t.addTokens = { after.foldl Tile.joinToken ((before.foldl Tile.joinToken t).joinToken n) with sigs := [] } := by
    have hfold : t.addTokens = { (List.range 8).foldl Tile.joinToken t with sigs := [] } := rfl
    rw [hfold, hsplit, List.foldl_append, List.foldl_cons]
  obtain ⟨hsigs, htok, -⟩ := foldl_joinToken_frame before n hb t
  obtain ⟨-, htok', hraises'⟩ := foldl_joinToken_frame after n ha ((before.foldl Tile.joinToken t).joinToken n)
  have hspec := joinToken_spec (before.foldl Tile.joinToken t) hn
  rw [Tile.signalled, hsigs, htok] at hspec
  rw [hall]
  exact ⟨fun h => htok'.trans (hspec.1 h), fun h h0 => ⟨htok'.trans (hspec.2 h h0).1, hraises' _ (hspec.2 h h0).2⟩⟩

end Sys2Proof.Machine

/-! PROOFS of the family 04_progress_control_timing: the control and status registers. -/

namespace Sys2Proof.Machine

/-! ### Control and status registers (R84, R102, R156) -/

section ReadBack
variable (t : Tile) (c : Ctx) {i : Nat} (v : Nat)

theorem readCsr_setCsr_target (hi : i < 8) :
    (t.setCsr (i + 0x018) (csrKeep (i + 0x018) v)).readCsr c (i + 0x018) = some (csrKeep (i + 0x018) v) := by
  have hrange : i + 0x018 < 0x020 := by omega
  have hkeep : csrKeep (i + 0x018) v = v % 4096 := by simp [csrKeep, hrange]
  have hline : ofSigned 12 ((v % 4096 : Nat) : Int) = v % 4096 := by rw [ofSigned_natCast]; exact Nat.mod_mod _ _
  rw [hkeep]
  simp [Tile.setCsr, Tile.readCsr, hrange, hi]
  exact hline

theorem readCsr_setCsr_eventConfig (hi : i < 6) :
    (t.setCsr (i + 0x058) (csrKeep (i + 0x058) v)).readCsr c (i + 0x058) = some (csrKeep (i + 0x058) v) := by
  have hrange : i + 0x058 < 0x05E ∧ ¬i + 0x058 < 0x020 ∧ ¬i + 0x058 < 0x034 := by omega
  have hkeep : csrKeep (i + 0x058) v = bitsAt v 62 2 * 2 ^ 62 + v % 2 ^ 56 := by simp [csrKeep, hrange]
  have hlt : bitsAt v 62 2 * 2 ^ 62 + v % 2 ^ 56 < 2 ^ 64 := by have := bitsAt_lt v 62 2; omega
  rw [hkeep]
  simp [Tile.setCsr, Tile.readCsr, hrange, hi]
  exact hlt

theorem readCsr_setCsr_eventCount (hi : i < 6) :
    (t.setCsr (i + 0x060) (csrKeep (i + 0x060) v)).readCsr c (i + 0x060) = some (csrKeep (i + 0x060) v) := by
  have hrange : i + 0x060 < 0x066 ∧ ¬i + 0x060 < 0x020 ∧ ¬i + 0x060 < 0x034 ∧ ¬i + 0x060 < 0x05E := by omega
  have hkeep : csrKeep (i + 0x060) v = bitsAt v 63 1 * 2 ^ 63 + v % 2 ^ 32 := by simp [csrKeep, hrange]
  have hlt : bitsAt v 63 1 * 2 ^ 63 + v % 2 ^ 32 < 2 ^ 64 := by have := bitsAt_lt v 63 1; omega
  rw [hkeep]
  simp [Tile.setCsr, Tile.readCsr, hrange, hi]
  exact hlt

/-- The number of a CSR that takes a value (R156). -/
theorem csr_of_accepted {n : Nat} (h : csrRefused n v = none) : n ∈ [0x010, 0x011, 0x012, 0x013, 0x014, 0x050, 0x051, 0x070, 0x080,
    0x098, 0x099, 0x09A, 0x09B] ∨ (∃ i < 8, n = i + 0x018) ∨ (∃ i < 6, n = i + 0x058) ∨ ∃ i < 6, n = i + 0x060 := by
  by_contra hno
  simp only [List.mem_cons, List.not_mem_nil, or_false, not_or, not_exists, not_and] at hno
  obtain ⟨hsingle, htarget, hconfig, hcount⟩ := hno
  have h1 : ¬(0x018 ≤ n ∧ n < 0x020) := fun hn => htarget (n - 0x018) (by omega) (by omega)
  have h2 : ¬(0x058 ≤ n ∧ n < 0x05E) := fun hn => hconfig (n - 0x058) (by omega) (by omega)
  have h3 : ¬(0x060 ≤ n ∧ n < 0x066) := fun hn => hcount (n - 0x060) (by omega) (by omega)
  simp [csrRefused, hsingle, h1, h2, h3] at h

theorem tvec_lt : bitsAt v 31 1 * 2147483648 + bitsAt v 16 8 * 65536 + v % 4096 < 18446744073709551616 := by
  have hact := bitsAt_lt v 31 1
  have hwinb := bitsAt_lt v 16 8
  omega

/-- What a CSR takes is what it then reads as. -/
theorem readCsr_setCsr {n : Nat} (hv : v < 2 ^ 64) (h : csrRefused n v = none) (hn : n ≠ 0x09B) :
    (t.setCsr n (csrKeep n v)).readCsr c n = some (csrKeep n v) := by
  have hsp : bitsAt v 3 17 * 8 < 1048576 := by have := bitsAt_lt v 3 17; omega
  have hmx : bitsAt v 8 4 * 256 + bitsAt v 4 2 * 16 + v % 4 < 4096 := by
    have := bitsAt_lt v 8 4; have := bitsAt_lt v 4 2; omega
  have htvec := tvec_lt v
  have hmod : v % 18446744073709551616 = v := Nat.mod_eq_of_lt (by simpa using hv)
  have hlow : tlocMask false % 18446744073709551616 = tlocMask false := by decide +kernel
  have hhigh : tlocMask true % 18446744073709551616 = tlocMask true := by decide +kernel
  rcases csr_of_accepted v h with hmem | ⟨i, hi, rfl⟩ | ⟨i, hi, rfl⟩ | ⟨i, hi, rfl⟩
  · simp only [List.mem_cons, List.not_mem_nil, or_false] at hmem
    rcases hmem with rfl | rfl | rfl | rfl | rfl | rfl | rfl | rfl | rfl | rfl | rfl | rfl | rfl
    case inr.inr.inr.inr.inr.inr.inr.inr.inr.inr.inr.inr => exact absurd rfl hn
    case inr.inl =>
      rcases Nat.mod_two_eq_zero_or_one v with hbit | hbit <;> simp [Tile.setCsr, Tile.readCsr, csrKeep, hbit]
    all_goals simp [Tile.setCsr, Tile.readCsr, csrKeep, hsp, hmx, htvec, hmod, hlow, hhigh]
  · exact readCsr_setCsr_target t c v hi
  · exact readCsr_setCsr_eventConfig t c v hi
  · exact readCsr_setCsr_eventCount t c v hi

end ReadBack

/-! ### The sequencer's reads and writes of them -/

theorem csrRefused_preds (v : Nat) : csrRefused 0x014 v = none := by simp [csrRefused]

theorem csrRefused_target {n : Nat} (hn : 0x018 ≤ n ∧ n < 0x020) (v : Nat) : csrRefused n v = none := by
  simp [csrRefused, hn]
  omega

theorem csrRefused_tctl (v : Nat) : csrRefused 0x09B v = none := by simp [csrRefused]

theorem csrKeep_target {n : Nat} (hn : 0x018 ≤ n ∧ n < 0x020) (v : Nat) : csrKeep n v = v % 4096 := by
  simp [csrKeep, hn, show n ≠ 0x010 ∧ n ≠ 0x011 ∧ n ≠ 0x012 ∧ n ≠ 0x013 ∧ n ≠ 0x014 by omega]

/-- Settles O22: each body lands or raises as the tables of the CSRs say, and each CSR keeps the fields that it reads as. -/
theorem controlRegistersComplete : Obligations.ControlRegistersComplete := by
  refine ⟨⟨fun sel d => ?rdid, fun d => ?rdclk, fun csr d => ⟨?csrrd, ?csrrdTrap⟩,
    fun csr a => ⟨fun x => ?refused, ?csrwr, fun hn => ?preds, fun hn => ?target, fun hn => ?tctl⟩⟩,
    fun t c n v hv h hn => readCsr_setCsr t c v hv h hn⟩
  case rdid => exact completes_of_noHold (fun _ => rfl) fun c t _ => by cases sel <;> rfl
  case rdclk => exact completes_of_noHold (fun _ => rfl) fun _ _ _ => rfl
  case csrrd =>
    refine completes_of_noHold (fun _ => rfl) fun c t h => ?_
    obtain ⟨v, hv⟩ := Option.isSome_iff_exists.1 h
    simp only [hv]
    rfl
  case csrrdTrap => exact traps_of_body (fun _ => rfl) (fun _ _ _ => rfl) fun c t h => by simp only [h]
  case refused => exact traps_of_body (fun _ => rfl) (fun _ _ _ => rfl) fun c t h => by simp only [h]
  case csrwr =>
    refine completes_of_noHold (fun _ => rfl) fun c t ⟨hok, hpreds, htarget, hhand⟩ => ?_
    have hignored : ¬(csr.toNat = 0x09B ∧ (!c.hand) = true) := fun ⟨h, hno⟩ => by simp [hhand h] at hno
    simp only [hok, if_neg hpreds, if_neg htarget, if_neg hignored]
  case preds =>
    refine completes_of_noHold (fun _ => rfl) fun c t _ => ?_
    have hkeep : BitVec.ofNat 16 (csrKeep 0x014 (t.pair a)) = BitVec.ofNat 16 (t.pair a) :=
      BitVec.eq_of_toNat_eq (by simp [csrKeep])
    simp only [hn, csrRefused_preds, if_true, hkeep]
  case target =>
    refine completes_of_noHold (fun _ => rfl) fun c t _ => ?_
    simp only [csrRefused_target hn, if_neg (show csr.toNat ≠ 0x014 by omega), if_pos hn, csrKeep_target hn]
    rfl
  case tctl =>
    refine completes_of_noHold (fun _ => rfl) fun c t hhand => ?_
    simp [hn, csrRefused_tctl, hhand]

end Sys2Proof.Machine

/-! PROOFS of the family 'other': loads, stores and local atomics -/

namespace Sys2Proof.Machine

/-! ### A memory that is not in its canonical form (log 2) -/

/-- A tile with one access of the AP that performs in cycle 0, whose memory lists byte 0 twice. -/
def twiceListed (kind : ApKind) : Tile :=
  { Tile.cleared with
    stores := { Tile.cleared.stores with mem := [(0, 1), (0, 1)] }
    ap := { Tile.cleared.ap with accs := [⟨0, 0, 0, 0, 0, false, kind⟩] } }

/-- What the pending writes of a tile write. -/
def destsOf (t : Tile) : List PendDest := t.pend.map fun p => p.dest

/-- Refutes O25: of a memory that lists a byte twice, which no hypothesis excludes, a load takes both bytes together, and not the byte
that the memory holds there. -/
theorem not_loadPerforms : ¬ Obligations.LoadPerforms := by
  intro h
  obtain ⟨hload, -⟩ := h (twiceListed (.load 0 1 0 32 false)) false 0 _ 0 1 0 32 false rfl rfl rfl rfl (by decide) (by decide)
  have hdests := congrArg destsOf (hload (by decide +kernel))
  exact absurd hdests (by decide +kernel)

/-- Refutes O28: the same memory, of which a local atomic returns both bytes together. -/
theorem not_atomicPerforms : ¬ Obligations.AtomicPerforms := by
  intro h
  let t := twiceListed (.atom .xchg 0 32 0 0 0 ⟨0, false⟩ 0)
  obtain ⟨hatom, -⟩ := h t false 0 _ .xchg 0 32 0 0 0 0 ⟨0, false⟩ rfl rfl rfl rfl (.inl rfl) (by decide) (by decide)
  obtain ⟨⟨ev, hpend⟩, -⟩ := hatom (by decide +kernel)
  have hdests : destsOf (t.apWrites false 0) = [.slices 0 8 (t.littleEndian 0 4) 0] :=
    congrArg (List.map fun p : PendWrite => p.dest) hpend
  exact absurd hdests (by decide +kernel)

/-! ### Accesses at issue (R332 to R346) -/

/-- No RATOM holds an access exactly where the model's own hold lets it go (R311, R351). -/
theorem ratomHold_none {t : Tile} {c : Ctx} {cls a nb : Nat} {range : Tile → Nat × Nat} (hr : range t = (a, nb))
    (h : t.noRatom c cls a nb) : ratomHold cls range c t = none := by
  rw [ratomHold, hr]
  refine if_neg ?_
  simp only [Bool.and_eq_true, Bool.not_eq_true', List.any_eq_true, not_and, not_exists]
  intro hhand m hm hland
  obtain hc | hall := h
  · exact absurd (hhand.symm.trans hc) Bool.false_ne_true
  · obtain ⟨hcls, h15, hc15, hmeet⟩ := hall m hm (of_decide_eq_true hland)
    simpa [hcls, h15, hc15, meets] using hmeet

theorem checkSpad_eq (c : Ctx) (a nb al : Nat) : checkSpad c a nb al =
    if 0xF8000 < a + nb then .error (c.raiseInfo 45 a 0) else if a % al ≠ 0 then .error (c.raiseInfo 46 a 0) else .ok () := rfl

/-- An instruction whose body is the check of its address and then its access. -/
theorem accesses_of {i : Instr} {n : Tile → Info} {cls nb al : Nat} {a : Tile → Nat} {more : Ctx → Tile → Prop}
    {kind : Ctx → Tile → ApKind} {own : Ctx → Tile → Option Hold} {body : Ctx → Tile → Except Raise Tile}
    (he : ∀ s, exec i s = issue n own body s) (ho : ∀ c t, t.noRatom c cls (a t) nb → own c t = none)
    (hb : ∀ c t, more c t → body c t = (checkSpad c (a t) nb al).map fun _ => t.access c cls (kind c t))
    (hal : alignOf nb = al) : Accesses i n cls a nb more kind := by
  subst hal
  refine ⟨completes_of_body he (fun c t h => ho c t h.1.1) fun c t ⟨⟨_, hfits, haligned⟩, hmore⟩ => ?_,
    traps_of_body he (fun c t h => ho c t h.1) fun c t ⟨_, hmore, hout⟩ => ?_,
    traps_of_body he (fun c t h => ho c t h.1) fun c t ⟨_, hmore, hfits, hodd⟩ => ?_⟩
  · rw [hb c t hmore, checkSpad_eq, if_neg (Nat.not_lt.2 hfits), if_neg (not_not.2 haligned)]
    rfl
  · rw [hb c t hmore, checkSpad_eq, if_pos hout]
    rfl
  · rw [hb c t hmore, checkSpad_eq, if_neg (Nat.not_lt.2 hfits), if_pos hodd]
    rfl

/-- The address of a short form (R341). -/
theorem shortAddr_eq (size : BitVec 2) (base : BitVec 7) (disp : BitVec 8) (t : Tile) : shortAddr size base disp t =
    (((t.word base : Int) + disp.toInt * (2 ^ size.toNat : Nat)) % 2 ^ 32).toNat := by
  rw [shortAddr, addr32, ofSigned, toSigned_toNat, sizeBytes]

/-- A spill slot is a whole number of words (R344). -/
theorem alignOf_slotBytes (o : LongMem) : alignOf (slotBytes o) = 8 := if_pos (Nat.mul_mod_left _ _)

/-- Settles O23: each body is a checked access at the address of its form. -/
theorem loadsComplete : Obligations.LoadsComplete := by
  refine ⟨fun size z d base disp => ?ld, fun o => ⟨?ldLong, ?ldx, ?fill⟩⟩
  case ld =>
    refine accesses_of (fun _ => rfl) (fun c t h => ratomHold_none ?_ h) (fun c t _ => ?_) rfl
    · rw [shortAddr_eq]; rfl
    · rw [loadBody, shortAddr_eq]; rfl
  case ldLong | ldx => exact accesses_of (fun _ => rfl) (fun c t h => ratomHold_none rfl h) (fun c t _ => rfl) rfl
  case fill =>
    exact accesses_of (fun _ => rfl) (fun c t h => ratomHold_none rfl h) (fun c t _ => rfl) (alignOf_slotBytes o)

/-- SPILL's body above the stack limit, and below it where its slot is an access that the checks let pass (R345). -/
theorem spillBody_eq (o : LongMem) (c : Ctx) (t : Tile) {e : Except Raise Tile} :
    (match e with
      | .error r => .error r
      | .ok t' => if slotAddr o t < t.csr.splim.toNat then .error (c.raiseInfo 47 (slotAddr o t) 0) else .ok t')
    = if slotAddr o t < t.csr.splim.toNat then e.bind fun _ => .error (c.raiseInfo 47 (slotAddr o t) 0) else e := by
  cases e <;> simp [Except.bind]

/-- Settles O24: each body is a checked access with its data read at issue, SPILL's where the slot lies above the limit. -/
theorem storesComplete : Obligations.StoresComplete := by
  refine ⟨fun size d base disp => ?st, fun o => ⟨?stLong, ?stx, ?spill, ?limit⟩⟩
  case st =>
    refine accesses_of (fun _ => rfl) (fun c t h => ratomHold_none ?_ h) (fun c t _ => ?_) rfl
    · rw [shortAddr_eq]; rfl
    · rw [storeBody, shortAddr_eq]; rfl
  case stLong | stx => exact accesses_of (fun _ => rfl) (fun c t h => ratomHold_none rfl h) (fun c t _ => rfl) rfl
  case spill =>
    refine accesses_of (fun _ => rfl) (fun c t h => ratomHold_none rfl h) (fun c t hroom => ?_) (alignOf_slotBytes o)
    exact (spillBody_eq o c t).trans (if_neg (Nat.not_lt.2 hroom))
  case limit =>
    refine traps_of_body (fun _ => rfl) (fun c t h => ratomHold_none rfl h.1.1) fun c t ⟨⟨_, hfits, haligned⟩, hroom⟩ => ?_
    refine (spillBody_eq o c t).trans ((if_pos (Nat.not_le.1 hroom)).trans ?_)
    have hcheck : checkSpad c (slotAddr o t) (slotBytes o) 8 = .ok () :=
      (if_neg (Nat.not_lt.2 hfits)).trans (if_neg (not_not.2 (alignOf_slotBytes o ▸ haligned)))
    rw [storeBody, hcheck]
    rfl

/-- The lower of two raises where the first is absent. -/
theorem orLower_none (b : Except Raise Tile) : orLower none b = b := rfl

theorem badTag_eq_none {s : Slices} {start n : Nat} {ok : List Nat} (h : ∀ g ∈ granules start n, s.tag g ∈ ok) :
    s.badTag start n ok = none := by
  rw [Slices.badTag, List.find?_eq_none]
  intro g hg
  simpa using h g hg

/-- FADD's operand has its format's tag (R97, R346). -/
theorem atomTag_none {op : AtomOp} {o : LongMem} {c : Ctx} {t : Tile}
    (h : op = .fadd → ∀ g ∈ granules o.vs.toNat (o.bits / 4), t.slices.tag g ∈ [0, if o.bits = 64 then 1 else 2]) :
    atomTag op o c t = none := by
  rw [atomTag]
  split
  · rename_i hop
    rw [badTag_eq_none (h hop)]
    rfl
  · rfl

theorem widthBits_mod_four (w : BitVec 4) : widthBits w % 4 = 0 := by revert w; decide

/-- An atomic's description, with its spans written out (R337, R346). -/
theorem atomInfo_eq (cause : Option Nat) (op : AtomOp) (base : Nat × Nat) (o : LongMem) (hand : Bool) : atomInfo cause op base o hand =
    apInfo cause [base, (o.vs.toNat, if op = .cas then 2 * (o.bits / 4) else o.bits / 4)] [(o.vs.toNat, o.bits / 4)] o.ecl.toNat 1
      o.ocl.toNat (op == .fadd) (op == .add || op == .fadd) hand := by
  have hspan : atomSpan op o = (o.vs.toNat, if op = .cas then 2 * (o.bits / 4) else o.bits / 4) := by
    have hw : o.bits % 4 = 0 := widthBits_mod_four o.wv
    rw [atomSpan, spanOf]
    congr 1
    split <;> omega
  rw [atomInfo, hspan]
  rfl

/-- ATOM ADD of w8 at the address that w0 holds. -/
def atomicAdd : LongMem := { ecl := 1, ocl := 0, wv := 5, x := 0, hi := 0, vs := 64, bas := 0, lo := 0 }

/-- A folio of one tile in cycle 16 with ATOM ADD at the head of AP, in cycle 5 of a local handler. -/
def handlerAtomicFolio : Folio :=
  let f := folioOfWords .ap (encode (.atomAdd atomicAdd))
  { f with tiles := f.tiles.map fun t => { t with trap := { t.trap with act := true, hcyc := 5 } } }

def handlerAtomicState : State := { State.reset with folios := [handlerAtomicFolio], cursor := ⟨0, 0, .ap, 0⟩ }

/-- The accesses under way in the tile at the cursor. -/
def accessesHere (s : State) : Option (List ApKind) := s.at?.map fun p => p.2.1.ap.accs.map fun a => a.kind

/-- The access takes its draw by the folio's cycle, 16. -/
theorem exec_handlerAtomic : ∃ s', exec (.atomAdd atomicAdd) handlerAtomicState = .next s'
    ∧ accessesHere s' = some [.atom .add 0 32 64 0 0 ⟨0, false⟩ (draw 0 16 0)] := ⟨_, rfl, by decide +kernel⟩

theorem handlerAtomic_issues : ∃ f t c, Issues handlerAtomicState f t c (atomInfo none .add atomicAdd.baseSpan atomicAdd true)
    ∧ t.admits c 0 (longAddr atomicAdd t) 4 ∧ c.k = 5 ∧ t.csr.rseed = 0 := by
  refine ⟨_, _, _, ⟨by exact rfl, ?free, ?legal, ?ready, fun a ha => ?unfenced, .inl ?hand, fun p hp => ?accepts, fun _ => rfl, ?inside,
    ?settled, ?sound⟩, ⟨.inl ?hand', ?fits, ?aligned⟩, ?k, ?seed⟩
  case unfenced => obtain rfl := Option.some.inj ha; decide +kernel
  case accepts => cases hp
  all_goals decide +kernel

theorem accessesHere_putTile (t' : Tile) :
    accessesHere (handlerAtomicState.putTile handlerAtomicFolio t') = some (t'.ap.accs.map fun a => a.kind) := rfl

/-- Refutes O27: inside a handler a local atomic takes its draw by the folio's cycle, and the statement by the handler's own. -/
theorem not_atomicsComplete : ¬ Obligations.AtomicsComplete := by
  intro h
  obtain ⟨hacc, -⟩ := h atomicAdd (.atomAdd atomicAdd) .add (by simp)
  obtain ⟨hcompletes, -⟩ := hacc (.inl rfl)
  obtain ⟨f, t, c, hissues, hadmits, hk, hseed⟩ := handlerAtomic_issues
  obtain ⟨s', hexec, hkinds⟩ := exec_handlerAtomic
  have hnext := hcompletes _ f t c hissues ⟨hadmits, fun hop => (nomatch hop)⟩ (Tile.predsApart_of_pend rfl)
  obtain ⟨hf, -, -⟩ := at?_eq_some_iff.1 hissues.here
  obtain rfl : handlerAtomicFolio = f := Option.some.inj hf
  obtain rfl := Host.Outcome.next.inj (hexec.symm.trans hnext)
  rw [accessesHere_putTile] at hkinds
  have hlast := congrArg List.getLast? (Option.some.inj hkinds)
  simp only [Tile.issued_ap, Tile.access, List.map_append, List.map_cons, List.map_nil, List.getLast?_concat, List.getLast?_singleton,
    Option.some.injEq, ApKind.atom.injEq, hk, hseed] at hlast
  exact absurd hlast.2.2.2.2.2.2.2 (by decide +kernel)

/-! ### A store that performs (R334, R339) -/

theorem apWrites_single {t : Tile} {a : ApAcc} {addr nb v : Nat} (h : t.ap.accs = [a]) (hkind : a.kind = .store addr nb v) :
    t.apWrites a.hand a.perf = t.performStore addr nb v := by
  simp [Tile.apWrites, h, hkind]

/-- What a tile keeps whatever its stores' marks and its raises are. -/
theorem poisonWords_frame (t : Tile) (l : List Nat) : ∃ poison bad,
    t.poisonWords l = { t with stores := { t.stores with poison := poison, bad := bad } }
      ∧ (∀ y ∈ t.stores.poison, y ∈ poison) ∧ ∀ y ∈ l, y ∈ poison := by
  induction l generalizing t with
  | nil => exact ⟨_, _, rfl, fun _ h => h, by simp⟩
  | cons x l ih =>
    obtain ⟨poison, bad, heq, hkeep, hmem⟩ := ih (t.poisonWord x)
    have hadd {y : Nat} (hy : y ∈ t.stores.poison ∨ y = x) : y ∈ addMark t.stores.poison x := by
      rw [addMark]
      split
      · rcases hy with hy | rfl
        · exact hy
        · exact List.contains_iff_mem.1 ‹_›
      · exact List.mem_cons.2 hy.symm
    refine ⟨poison, bad, heq, fun y hy => hkeep y (hadd (.inl hy)), fun y hy => ?_⟩
    rcases List.mem_cons.1 hy with rfl | hy
    · exact hkeep y (hadd (.inr rfl))
    · exact hmem y hy

theorem mem_badWords {t : Tile} {a n y : Nat} (h : y ∈ t.badWords a n) :
    y ∈ wordsOf a n ∧ (y ∈ t.stores.poison ∨ y ∈ t.stores.bad) := by
  rw [Tile.badWords] at h
  split at h
  · cases h
  · simpa using h

/-- Cleaning the marks of words changes nothing else of the stores. -/
theorem clean_frame (s : Stores) (a n : Nat) : (s.clean a n).mem = s.mem ∧ (s.clean a n).forms = s.forms := by
  rw [Stores.clean]
  split <;> exact ⟨rfl, rfl⟩

theorem wroteBy_frame (t : Tile) (a n x y u : Nat) : ∃ w, t.wroteBy a n x y u = { t with wrote := w } := by
  rw [Tile.wroteBy]
  split <;> exact ⟨_, rfl⟩

theorem byte_store_inside (t : Tile) (a n v : Nat) {i : Nat} (hi : i < n) : (t.store a n v).byte (a + i) = BitVec.ofNat 8 (v / 256 ^ i) := by
  rw [Tile.byte, Tile.store, (clean_frame t.stores a n).1, Memory.read_writeN_inside _ _ _ _ _ (by omega) (by omega), Nat.add_sub_cancel_left]

/-- Settles O26: the store's two outcomes, and the frame that both keep. -/
theorem storePerforms : Obligations.StorePerforms := by
  intro t hand k a addr nb v haccs hhand hperf hkind t'
  have hperforms : t' = t.performStore addr nb v := by
    show t.apWrites hand k = _
    rw [← hhand, ← hperf, apWrites_single haccs hkind]
  rw [hperforms]
  cases hpart : t.partBad addr nb with
  | nil =>
    obtain ⟨w, hw⟩ := wroteBy_frame (t.store addr nb v) addr nb 255 255 2
    have hstore : t.performStore addr nb v = { t.store addr nb v with wrote := w } := by rw [Tile.performStore, hpart]; exact hw
    rw [hstore]
    exact ⟨fun _ => ⟨fun i hi => byte_store_inside t addr nb v hi, fun x hx => t.byte_store_outside addr nb v x hx, rfl⟩,
      fun x l h => (nomatch h), rfl, rfl, rfl, rfl, rfl, rfl, (clean_frame t.stores addr nb).2, rfl⟩
  | cons y r =>
    obtain ⟨poison, bad, hframe, -, hmarked⟩ := poisonWords_frame t (y :: r)
    have htrap : t.performStore addr nb v
        = ({ t with stores := { t.stores with poison := poison, bad := bad } } : Tile).addRaise (raiseEnd 80 (8 * y) 0) := by
      rw [Tile.performStore, hpart, ← hframe]
    rw [htrap]
    refine ⟨fun h => (nomatch h), fun x l h => ?_, rfl, rfl, rfl, rfl, rfl, rfl, rfl, rfl⟩
    obtain ⟨rfl, rfl⟩ := List.cons.inj h
    have hmem : y ∈ t.partBad addr nb := by rw [hpart]; exact List.mem_cons_self
    rw [Tile.partBad, List.mem_filter, Bool.or_eq_true, decide_eq_true_eq, decide_eq_true_eq] at hmem
    exact ⟨(mem_badWords hmem.1).2, hmem.2, rfl, rfl, hmarked⟩

end Sys2Proof.Machine

/-! PROOFS of the family 'other': remote atomics -/

namespace Sys2Proof.Machine

/-! ### Remote atomics (R349 to R351) -/

/-- Outside a handler a queue counts the folio's cycles. -/
theorem k_eq_cyc_of_folio {s : State} {f : Folio} {t : Tile} {c : Ctx} (h : s.at? = some (f, t, c)) (hhand : c.hand = false) :
    c.k = c.cyc := by
  obtain ⟨-, -, rfl⟩ := at?_eq_some_iff.1 h
  exact if_neg (by rw [show t.inHandler = false from hhand]; exact Bool.false_ne_true)

/-- The base of a RATOM's window address (R349). -/
def ratomWindow (o : LongMem) (t : Tile) : Nat := t.slices.span o.bas.toNat 16

/-- The offset field once the displacement is added modulo 2^22. -/
def ratomOffset (o : LongMem) (t : Tile) : Nat := (((ratomWindow o t % 2 ^ 22 : Nat) : Int) + o.disp) % 2 ^ 22 |>.toNat

theorem windowOffset_lt (o : LongMem) (t : Tile) : ratomOffset o t < 4194304 := ofSigned_lt 22 _

theorem ratomAddr_eq (o : LongMem) (t : Tile) : ratomAddr o t = ratomWindow o t / 4194304 * 4194304 + ratomOffset o t := by
  have hlow : bitsAt (ratomWindow o t) 0 22 = ratomWindow o t % 2 ^ 22 := by rw [bitsAt_eq_div_mod, pow_zero, Nat.div_one]
  rw [ratomAddr, show t.spanBits o.bas.toNat 64 = ratomWindow o t from rfl, hlow]
  rfl

/-- The fields of a RATOM's window address: those of its base, but for the offset. -/
theorem bitsAt_ratomAddr (o : LongMem) (t : Tile) : bitsAt (ratomAddr o t) 0 22 = ratomOffset o t
    ∧ bitsAt (ratomAddr o t) 22 2 = ratomWindow o t / 2 ^ 22 % 4 ∧ bitsAt (ratomAddr o t) 24 8 = ratomWindow o t / 2 ^ 24 % 256
    ∧ bitsAt (ratomAddr o t) 32 8 = ratomWindow o t / 2 ^ 32 % 256 ∧ bitsAt (ratomAddr o t) 40 24 = ratomWindow o t / 2 ^ 40 % 2 ^ 24
    ∧ bitsAt (ratomAddr o t) 24 16 = ratomWindow o t / 2 ^ 24 % 2 ^ 16 := by
  have hlt := windowOffset_lt o t
  simp only [bitsAt_eq_div_mod, ratomAddr_eq]
  generalize ratomWindow o t = b at *
  generalize ratomOffset o t = off at *
  refine ⟨?_, ?_, ?_, ?_, ?_, ?_⟩ <;> omega

/-- The offsets of a target inside the folio's rectangle (R26). -/
theorem target_of_inside {p : Place} {fx fy dx dy x y : Nat} (hx : (x : Int) = fx + toSigned 8 dx) (hxw : x < p.w)
    (hy : (y : Int) = fy + toSigned 8 dy) (hyh : y < p.h) : p.target fx fy dx dy = some (x, y) := by
  have hsx : shift fx dx = x := hx.symm
  have hsy : shift fy dy = y := hy.symm
  rw [Place.target, hsx, hsy]
  simp only [if_pos (show (0 : Int) ≤ x ∧ (x : Int) < p.w ∧ (0 : Int) ≤ y ∧ (y : Int) < p.h by omega), Int.toNat_natCast]

theorem exec_remoteAtomic {o : LongMem} {i : Instr} {op : AtomOp}
    (h : (i, op) ∈ [(Instr.ratomAdd o, AtomOp.add), (.ratomMin o, .min), (.ratomMax o, .max), (.ratomAnd o, .and), (.ratomOr o, .or),
      (.ratomXor o, .xor), (.ratomXchg o, .xchg), (.ratomCas o, .cas), (.ratomFadd o, .fadd), (.ratomMinZ o, .minz),
      (.ratomMaxZ o, .maxz)]) (s : State) : exec i s = remoteAtomic i.cause op o s := by
  simp only [List.mem_cons, List.not_mem_nil, or_false, Prod.mk.injEq] at h
  rcases h with ⟨rfl, rfl⟩ | ⟨rfl, rfl⟩ | ⟨rfl, rfl⟩ | ⟨rfl, rfl⟩ | ⟨rfl, rfl⟩ | ⟨rfl, rfl⟩ | ⟨rfl, rfl⟩ | ⟨rfl, rfl⟩ | ⟨rfl, rfl⟩
    | ⟨rfl, rfl⟩ | ⟨rfl, rfl⟩ <;> rfl

section Goes
variable {o : LongMem} {op : AtomOp} {c : Ctx} {t : Tile} {x y : Nat}

/-- A RATOM's target and offset stand, and nothing holds it (R26, R311, R349). -/
structure RatomGoes (o : LongMem) (op : AtomOp) (c : Ctx) (t : Tile) (x y : Nat) : Prop where
  free : t.noRatom c o.ocl.toNat (if ratomWindow o t / 2 ^ 32 % 256 = 0 ∧ ratomWindow o t / 2 ^ 24 % 256 = 0 then ratomOffset o t else 0)
    (if ratomWindow o t / 2 ^ 32 % 256 = 0 ∧ ratomWindow o t / 2 ^ 24 % 256 = 0 then o.bits / 8 else 0)
  tagged : op = .fadd → ∀ g ∈ granules o.vs.toNat (o.bits / 4), t.slices.tag g ∈ [0, if o.bits = 64 then 1 else 2]
  high : ratomWindow o t / 2 ^ 40 = 0
  reserved : ratomWindow o t / 2 ^ 22 % 4 = 0
  left : (x : Int) = c.fx + toSigned 8 (ratomWindow o t / 2 ^ 32 % 256)
  width : x < c.place.w
  top : (y : Int) = c.fy + toSigned 8 (ratomWindow o t / 2 ^ 24 % 256)
  height : y < c.place.h
  fits : ratomOffset o t + o.bits / 8 ≤ 0xF8000
  aligned : ratomOffset o t % (o.bits / 8) = 0

theorem ratomWait_none (h : RatomGoes o op c t x y) : ratomHold o.ocl.toNat
    (fun t => if bitsAt (ratomAddr o t) 24 16 = 0 then (bitsAt (ratomAddr o t) 0 22, o.bits / 8) else (0, 0)) c t = none := by
  obtain ⟨hoff, -, -, -, -, hoffsets⟩ := bitsAt_ratomAddr o t
  refine ratomHold_none ?_ h.free
  have hown : ratomWindow o t / 2 ^ 24 % 2 ^ 16 = 0 ↔ ratomWindow o t / 2 ^ 32 % 256 = 0 ∧ ratomWindow o t / 2 ^ 24 % 256 = 0 := by omega
  simp only [hoff, hoffsets, hown]
  split <;> rfl

theorem ratomTarget (h : RatomGoes o op c t x y) :
    c.place.target c.fx c.fy (bitsAt (ratomAddr o t) 32 8) (bitsAt (ratomAddr o t) 24 8) = some (x, y) := by
  obtain ⟨-, -, hdy, hdx, -, -⟩ := bitsAt_ratomAddr o t
  rw [hdx, hdy]
  exact target_of_inside h.left h.width h.top h.height

theorem checkWindow_ratom (h : RatomGoes o op c t x y) (hw : 0 < o.bits / 8) :
    checkWindow c.place c.fx c.fy (ratomAddr o t) false = .ok (x, y, ratomOffset o t) := by
  obtain ⟨hoff, hres, -, -, hhigh, -⟩ := bitsAt_ratomAddr o t
  have hstore : windowStore (ratomOffset o t) = some (0, 0xF8000) := if_pos (by have := h.fits; omega)
  have hzero : bitsAt (ratomAddr o t) 40 24 = 0 ∧ bitsAt (ratomAddr o t) 22 2 = 0 := by
    rw [hhigh, hres, h.high, h.reserved]
    exact ⟨rfl, rfl⟩
  simp [checkWindow, ratomTarget h, hoff, hzero, hstore]

/-- The flit that carries a RATOM's request (R349). -/
def ratomFlit (o : LongMem) (op : AtomOp) (c : Ctx) (t : Tile) (x y : Nat) : Flit where
  srcX := c.fx
  srcY := c.fy
  tgts := [(x, y)]
  born := c.k + 1
  bad := false
  pay := .request c.k op (ratomOffset o t) o.bits (t.spanBits o.vs.toNat o.bits)
    (if op = .cas then t.spanBits (o.vs.toNat + o.bits / 4) o.bits else 0) (c.drawAt t 0) (atomRnd op c t)

/-- What a tile keeps of a RATOM under way (R350). -/
def ratomEntry (o : LongMem) (c : Ctx) (t : Tile) (x y : Nat) : Ratom where
  id := c.k
  issue := c.k
  land := c.k + t.csr.ralat
  cls := c.cls o.ocl.toNat
  own := x == c.fx && y == c.fy
  addr := ratomOffset o t
  w := o.bits
  vs := o.vs.toNat
  reply := none

/-- The tile once a RATOM has sent its request. -/
def ratomRequested (o : LongMem) (op : AtomOp) (c : Ctx) (t : Tile) (x y : Nat) : Tile :=
  { t with
    net := { t.net with router := { t.net.router with inj := t.net.router.inj ++ [ratomFlit o op c t x y] } }
    ap := { t.ap with ratoms := t.ap.ratoms ++ [ratomEntry o c t x y] } }

theorem ratomBody_eq (h : RatomGoes o op c t x y) (hw : 0 < o.bits / 8) : ratomBody op o c t =
    if t.csr.ralat < 2 * hops c.place c.fx c.fy x y then .error (c.raiseInfo 63 (c.k + t.csr.ralat) 0)
    else .ok (ratomRequested o op c t x y) := by
  have hfits : ¬0xF8000 < ratomOffset o t + o.bits / 8 := Nat.not_lt.2 h.fits
  rw [ratomBody, atomTag_none h.tagged, orLower_none]
  simp only [ratomTarget h, checkWindow_ratom h hw, hfits, h.aligned, if_false, ne_eq, not_true_eq_false]
  split <;> rfl

end Goes

/-- Settles O29: where the request's target and offset stand, only a RALAT below the round trip keeps it back. -/
theorem remoteAtomicsComplete : Obligations.RemoteAtomicsComplete := by
  intro o i op hi hw n info base off dx dy goes x y
  have hpos : 0 < o.bits / 8 := by omega
  have he (s : State) : exec i s = issue info (fun c t => ratomHold o.ocl.toNat
      (fun t => if bitsAt (ratomAddr o t) 24 16 = 0 then (bitsAt (ratomAddr o t) 0 22, o.bits / 8) else (0, 0)) c t)
      (ratomBody op o) s := by
    have hinfo : info = fun _ => atomInfo i.cause op (o.bas.toNat, 16) o false := funext fun _ => (atomInfo_eq ..).symm
    rw [exec_remoteAtomic hi, remoteAtomic, hinfo]
  have hgoes {c : Ctx} {t : Tile} (h : goes x y c t) : RatomGoes o op c t (x c t) (y c t) := by
    obtain ⟨h1, h2, h3, h4, h5, h6, h7, h8, h9, h10⟩ := h
    exact ⟨h1, h2, h3, h4, h5, h6, h7, h8, h9, h10⟩
  refine ⟨fun s f t c h hg hlat => ?_, ?_⟩
  · have hk : c.k = c.cyc := k_eq_cyc_of_folio h.here (by
      cases hc : c.hand with
      | false => rfl
      | true => exact absurd (h.allowed hc) Bool.false_ne_true)
    have hbody : ratomBody op o c t = .ok (ratomRequested o op c t (x c t) (y c t)) := by
      rw [ratomBody_eq (hgoes hg) hpos, if_neg (Nat.not_lt.2 hlat)]
    refine ⟨ratomRequested o op c t (x c t) (y c t), ?_, ?_, rfl, rfl, rfl, rfl⟩
    · rw [he, issue_ok h (ratomWait_none (hgoes hg)) hbody (Tile.predsApart_of_pend rfl)]
    · rw [ratomRequested, ratomEntry, ratomFlit, Ctx.drawAt, hk]
      rfl
  · exact traps_of_body he (fun c t h => ratomWait_none (hgoes h.1)) fun c t ⟨hg, hlat⟩ => by
      rw [ratomBody_eq (hgoes hg) hpos, if_pos hlat]

end Sys2Proof.Machine

/-! PROOFS of the family 'other': WAITA, fences, UNPIN and PROBE -/

namespace Sys2Proof.Machine

/-! ### A word of a memory that lists a byte twice -/

/-- A folio whose tile sleeps until the word at 0 is 1; its memory lists byte 0 twice, each time as 1. -/
def twiceListedFolio : Folio :=
  let f := folioOfWords .ap (encode (.nop))
  { f with tiles := f.tiles.map fun t =>
      { t with stores := { t.stores with mem := [(0, 1), (0, 1)] }, ap := { t.ap with sleep := some ⟨0, 1, 0, 0, 0, .eq, 0, 1, 0⟩ } } }

def twiceListedState : State := { State.reset with folios := [twiceListedFolio], cursor := ⟨0, 0, .ap, 0⟩ }

/-- Refutes O30: a WAITA that waits until its word is 1 takes both bytes that the memory lists at the word's first address together
and sleeps on, though the byte there is 1 and all others of the word are 0. -/
theorem not_waitsFencesAndProbesComplete : ¬ Obligations.WaitsFencesAndProbesComplete := by
  rintro ⟨-, -, -, -, -, -, hwake⟩
  obtain ⟨f, t, c, w, hat, hsleep, hlate, hsound, hmeets⟩ : ∃ f t c w, twiceListedState.at? = some (f, t, c) ∧ t.ap.sleep = some w
      ∧ w.issue + 2 ≤ c.cyc ∧ t.badWord w.addr 8 = none ∧ condHolds w.cond 64 (t.littleEndian w.addr 8) w.cmp = true :=
    ⟨_, _, _, _, rfl, rfl, by decide +kernel⟩
  obtain ⟨s', hexec, hnext⟩ := hwake twiceListedState f t c w hat hsleep
  obtain ⟨u, g, t', hexec', hg, ht', hsleeps⟩ : ∃ u g t', exec .waitaWake twiceListedState = .next u ∧ u.folio? 0 = some g
      ∧ g.tiles[0]? = some t' ∧ t'.ap.sleep.isSome = true :=
    ⟨_, _, _, rfl, rfl, rfl, by decide +kernel⟩
  obtain rfl : u = s' := Host.Outcome.next.inj (hexec'.symm.trans hexec)
  have hwakes := (hnext g t' hg ht').2.2 hlate hsound
  rw [if_pos hmeets] at hwakes
  rw [hwakes.1] at hsleeps
  exact Bool.false_ne_true hsleeps

end Sys2Proof.Machine

/-! PROOFS of the family 'other': a running MMA -/

namespace Sys2Proof.Machine

/-! ### Bytes inside a write -/

/-- The cells of a value of n + k bytes: those of its low n bytes, then those of the rest. -/
theorem bytesOf_add (a n k v : Nat) : bytesOf a (n + k) v = bytesOf a n v ++ bytesOf (a + n) k (v / 256 ^ n) := by
  induction n generalizing a v with
  | zero => simp [bytesOf]
  | succ n ih =>
    rw [show n + 1 + k = n + k + 1 by omega, bytesOf, bytesOf, ih, Nat.div_div_eq_div_mul, ← pow_succ', Nat.add_assoc, Nat.add_comm 1 n]
    split <;> rfl

/-- Part of a write is read back (R21). -/
theorem readN_writeN_inside (m : Memory) (a n v b k : Nat) (h : a ≤ b) (h' : b + k ≤ a + n) :
    (m.writeN a n v).readN b k = v / 256 ^ (b - a) % 256 ^ k := by
  obtain ⟨i, rfl⟩ := Nat.exists_eq_add_of_le h
  obtain ⟨j, rfl⟩ := Nat.exists_eq_add_of_le (show i + k ≤ n by omega)
  have hbelow : ∀ c ∈ m.below a ++ bytesOf a i v, ¬(a + i ≤ c.1 ∧ c.1 < a + i + k) := fun c hc => by
    rcases List.mem_append.1 hc with hc | hc
    · have := (List.mem_filter.1 hc).2
      simp at this
      omega
    · have := bytesOf_bounds _ _ _ c hc
      omega
  have habove : ∀ c ∈ bytesOf (a + (i + k)) j (v / 256 ^ (i + k)) ++ m.above (a + (i + k + j)),
      ¬(a + i ≤ c.1 ∧ c.1 < a + i + k) := fun c hc => by
    rcases List.mem_append.1 hc with hc | hc
    · have := bytesOf_bounds _ _ _ c hc
      omega
    · have := (List.mem_filter.1 hc).2
      simp at this
      omega
  have hcells : m.writeN a (i + k + j) v = (m.below a ++ bytesOf a i v) ++ bytesOf (a + i) k (v / 256 ^ i)
      ++ (bytesOf (a + (i + k)) j (v / 256 ^ (i + k)) ++ m.above (a + (i + k + j))) := by
    rw [Memory.writeN, bytesOf_add, bytesOf_add]
    simp only [List.append_assoc]
  rw [hcells, Memory.readN, List.foldl_append (l' := bytesOf _ _ _ ++ _), List.foldl_append (l := _ ++ _), foldl_outside _ _ _ _ hbelow,
    bytesOf_sum _ _ _ _ _ _ le_rfl le_rfl, foldl_outside _ _ _ _ habove]
  simp

/-! ### An MMA over a memory that lists a byte twice -/

/-- An MMA of no chunk into accumulator 0. -/
def emptyMma : Mma where
  line := 0
  lane := 1
  w0 := 0
  w1 := 0
  issue := 0
  cls := 0
  debit := 0
  acc := 0
  fa := 0
  fb := 0
  n := 0
  sp := 0
  wb := 0
  ablk := false
  path := 0
  sat := false
  t := 0
  recs := []
  noSize := none
  chunks := []
  lastStart := 0

/-- A folio whose tile ends the MMA; its memory lists byte 3 of element (0, 0) twice, each time as 255. -/
def twiceListedMmaFolio : Folio :=
  let f := folioOfWords .mx (encode .nop)
  { f with tiles := f.tiles.map fun t =>
      { t with stores := { t.stores with mem := [(0x140003, 255), (0x140003, 255)] }, mx := { t.mx with mma := some emptyMma } } }

def twiceListedMmaState : State := { State.reset with folios := [twiceListedMmaFolio], cursor := ⟨0, 0, .mx, 0⟩ }

/-- What lands of one accumulator write in its cycle. -/
theorem mxLand_accumulator {t : Tile} {k issue cls a v : Nat} {ev : List (Nat × Nat)}
    (h : t.mx.pend = [{ land := k, issue := issue, cls := cls, dest := .acc a v, events := ev, poison := none }]) :
    (t.mxLand k true).stores.mem = t.stores.mem.writeN (accBase a) 0x4000 v := by
  rw [Tile.mxLand, h]
  simp only [List.foldl_cons, List.foldl_nil, bne_self_eq_false, Bool.false_eq_true, if_false, Bool.not_true]
  rw [← (clean_frame t.stores (accBase a) 0x4000).1]
  split <;> rfl

/-- Refutes O40: an element of a memory that lists one of its bytes twice reads as more than 32 bits, and no MMA, even one without a
chunk, leaves it as it is. -/
theorem not_matrixMultiplyRuns : ¬ Obligations.MatrixMultiplyRuns := by
  intro h
  obtain ⟨-, hland⟩ := h
  obtain ⟨f, t, c, m, hat, hm, hn, hdue, hacc, hpath, hsound, hpend, hchunks, hacc0, hwide⟩ : ∃ f t c m,
      twiceListedMmaState.at? = some (f, t, c) ∧ t.mx.mma = some m ∧ m.n ≤ m.chunks.length ∧ m.lastStart + m.t ≤ c.cyc ∧ m.acc < 4
      ∧ m.path ≠ 3 ∧ t.accBad false m.acc = none ∧ t.mx.pend = [] ∧ m.chunks = [] ∧ m.acc = 0 ∧ 2 ^ 32 ≤ t.bytes (accBase 0) 4 :=
    ⟨_, _, _, _, rfl, rfl, by decide +kernel⟩
  obtain ⟨-, hresult, -⟩ := hland twiceListedMmaState f t c m hat hm hn hdue hacc
  obtain ⟨t', v, ev, -, -, -, -, -, hpost, -, helem⟩ :=
    hresult (by rw [hchunks]; rfl) hpath hsound (by rw [hpend]; exact fun p hp => absurd hp List.not_mem_nil)
  rw [hpend, List.nil_append] at hpost
  have hlanded := mxLand_accumulator hpost
  have hsame : (t'.mxLand c.cyc true).bytes (accBase 0) 4 = t.bytes (accBase 0) 4 := by
    simpa [hchunks, hacc0] using helem 0 (by decide) 0 (by decide)
  rw [hacc0] at hlanded
  have hnarrow : (t'.mxLand c.cyc true).bytes (accBase 0) 4 < 2 ^ 32 := by
    rw [Tile.bytes, hlanded, readN_writeN_inside _ _ _ _ _ _ le_rfl (by decide)]
    exact Nat.mod_lt _ (by decide)
  exact absurd (hwide.trans_eq hsame.symm) (Nat.not_le.2 hnarrow)

end Sys2Proof.Machine

/-! PROOFS of the family 'other': the recorded trap and the local handler -/

namespace Sys2Proof.Machine

/-! ### The recorded trap (R461, R464) -/

/-- Whether x outranks m among the raises of a cycle: a lower cause, or of two entries with one cause the earlier queue. -/
def outranks (x m : Raise) : Bool := x.cause < m.cause || (x.cause == m.cause && x.inst && m.inst && x.queue < m.queue)

/-- The raise that a cycle records (R461). -/
def recorded (r : Raise) (l : List Raise) : Raise := l.foldl (fun m x => if outranks x m then x else m) r

theorem recorded_mem (r : Raise) (l : List Raise) : recorded r l ∈ r :: l := by
  induction l generalizing r with
  | nil => exact List.mem_singleton_self r
  | cons x l ih =>
    rw [recorded, List.foldl_cons]
    split
    · exact List.mem_cons_of_mem _ (ih x)
    · rcases List.mem_cons.1 (ih r) with h | h
      · exact List.mem_cons.2 (.inl h)
      · exact List.mem_cons_of_mem _ (List.mem_cons_of_mem _ h)

theorem outranks_false {x m : Raise} : outranks x m = false ↔
    m.cause ≤ x.cause ∧ (m.inst = true → x.cause = m.cause → x.inst = true → m.queue ≤ x.queue) := by
  simp only [outranks, Bool.or_eq_false_iff, decide_eq_false_iff_not, Nat.not_lt, Bool.and_eq_false_iff, beq_eq_false_iff_ne]
  refine and_congr_right fun _ => ?_
  cases m.inst <;> cases x.inst <;> simp
  tauto

theorem outranks_self (x : Raise) : outranks x x = false := outranks_false.2 ⟨le_rfl, fun _ _ _ => le_rfl⟩

/-- What does not outrank a raise does not outrank one that outranks it. -/
theorem outranks_false_of_outranks {x y m : Raise} (hy : outranks y m = false) (hx : outranks x m = true) : outranks y x = false := by
  obtain ⟨hcause, hqueue⟩ := outranks_false.1 hy
  simp only [outranks, Bool.or_eq_true, decide_eq_true_eq, Bool.and_eq_true, beq_iff_eq] at hx
  refine outranks_false.2 ?_
  rcases hx with hlow | ⟨⟨⟨hsame, -⟩, hm⟩, hless⟩
  · exact ⟨by omega, fun _ h => by omega⟩
  · exact ⟨by omega, fun _ h hinst => hless.le.trans (hqueue hm (h.trans hsame) hinst)⟩

theorem not_outranks_recorded {y r : Raise} (l : List Raise) (h : outranks y r = false) : outranks y (recorded r l) = false := by
  induction l generalizing r with
  | nil => exact h
  | cons x l ih =>
    rw [recorded, List.foldl_cons]
    split
    next hx => exact ih (outranks_false_of_outranks h hx)
    next => exact ih h

/-- Nothing that a cycle raises outranks what it records. -/
theorem recorded_first {r y : Raise} {l : List Raise} (h : y ∈ r :: l) : outranks y (recorded r l) = false := by
  induction l generalizing r with
  | nil =>
    rw [List.mem_singleton.1 h]
    exact outranks_self r
  | cons x l ih =>
    have hstart : outranks y (if outranks x r then x else r) = false ∨ y ∈ l := by
      rcases List.mem_cons.1 h with rfl | h
      · refine .inl ?_
        split
        next hx => exact outranks_false_of_outranks (outranks_self y) hx
        next => exact outranks_self y
      · rcases List.mem_cons.1 h with rfl | h
        · refine .inl ?_
          split
          next => exact outranks_self y
          next hx => exact Bool.eq_false_iff.2 hx
        · exact .inr h
    rw [recorded, List.foldl_cons]
    rcases hstart with hy | hy
    · exact not_outranks_recorded l hy
    · exact ih (List.mem_cons_of_mem _ hy)

theorem recordTrap_cons (cyc : Nat) (r : Raise) (l : List Raise) (old : TrapCsrs) : recordTrap cyc (r :: l) old =
    { old with
      tcause := BitVec.ofNat 64 ((recorded r l).cause + (if l.isEmpty then 0 else 128)
        + 256 * (r :: l).foldl (fun m x => m ||| x.cls) 0)
      tcyc := BitVec.ofNat 64 cyc
      tpos := BitVec.ofNat 64 ((recorded r l).line * 4096 + (recorded r l).lane * 256 + (if (recorded r l).inst then 128 else 0)
        + (recorded r l).queue)
      targ := BitVec.ofNat 64 (recorded r l).arg
      tinfo := BitVec.ofNat 64 (recorded r l).info
      tinfo2 := BitVec.ofNat 64 (recorded r l).info2 } := rfl

/-- The cause in TCAUSE, and its bit 7 (R464). -/
theorem tcause_fields {cause cls : Nat} (several : Bool) (h : cause < 128) :
    let t : Dword := BitVec.ofNat 64 (cause + (if several then 128 else 0) + 256 * cls)
    t.toNat % 128 = cause ∧ t.getLsbD 7 = several := by
  intro t
  have hlow : t.toNat % 256 = cause + if several then 128 else 0 := by
    have hsmall : (if several = true then 128 else 0) ≤ 128 := by split <;> omega
    rw [BitVec.toNat_ofNat]
    omega
  have hbit : t.getLsbD 7 = decide (t.toNat % 256 / 128 % 2 = 1) := by
    rw [← BitVec.testBit_toNat, Nat.testBit_eq_decide_div_mod_eq]
    have hmod : t.toNat / 2 ^ 7 % 2 = t.toNat % 256 / 128 % 2 := by omega
    rw [hmod]
  rw [hbit, hlow]
  cases several
  · exact ⟨by rw [if_neg Bool.false_ne_true] at hlow; omega, decide_eq_false (by rw [if_neg Bool.false_ne_true]; omega)⟩
  · exact ⟨by rw [if_pos rfl] at hlow; omega, decide_eq_true (by rw [if_pos rfl]; omega)⟩

/-- The faulting entry at the head of its queue is discarded (R467). -/
theorem discard_head {c : Control} {tr : TrapCsrs} {q : Queue} {e : Entry} {rest : List Entry} (hq : tr.posQueue = some q)
    (he : c.entries q = e :: rest) (hline : e.line = tr.tpos.toNat / 4096 % 4096) (hlane : e.lane = tr.tpos.toNat / 256 % 8) :
    c.discard tr = { c.setEntries q rest with
      headAt := vset c.headAt (queueNum q - 1) none, pfx := none
      lost := if followFlag e.w0 = true then c.lost ++ [e.seq] else c.lost } := by
  have hhere : (e.line == tr.tpos.toNat / 4096 % 4096 && e.lane == tr.tpos.toNat / 256 % 8) = true := by simp [hline, hlane]
  have hlose : (c.lose [e]).lost = if followFlag e.w0 = true then c.lost ++ [e.seq] else c.lost := by
    rw [Control.lose]
    by_cases hf : followFlag e.w0 = true <;> simp [hf]
  have hentries : (c.lose [e]).entries q = e :: rest := he
  rw [Control.discard, hq]
  simp only [he, hhere, if_true]
  rw [Control.drop, hentries, ← hlose]
  rfl

/-- Settles O47: the fold that picks the recorded raise, then the entry and the return field by field. -/
theorem trapStateAndHandler : Obligations.TrapStateAndHandler := by
  refine ⟨fun cyc l old hl hcause => ?_, fun s f t c hat => ?_, fun t c hshadow => ?_⟩
  · obtain ⟨r, l, rfl⟩ := List.exists_cons_of_ne_nil hl
    obtain ⟨hlow, hbit⟩ := tcause_fields (cls := (r :: l).foldl (fun m x => m ||| x.cls) 0) (!l.isEmpty)
      (hcause _ (recorded_mem r l))
    refine ⟨recorded r l, recorded_mem r l, fun x hx => (outranks_false.1 (recorded_first hx)).1,
      fun hinst x hx hsame hx' => (outranks_false.1 (recorded_first hx)).2 hinst hsame hx', ?_⟩
    have hseveral : (!l.isEmpty) = decide (1 < (r :: l).length) := by cases l <;> simp
    rw [← hseveral, recordTrap_cons]
    have hflip : (if l.isEmpty then 0 else 128) = if (!l.isEmpty) = true then 128 else 0 := by cases l <;> rfl
    rw [hflip]
    exact ⟨hlow, hbit, rfl, rfl, rfl, rfl, rfl, rfl, rfl, rfl, rfl, rfl⟩
  · refine ⟨{ t.enterHandler with trap := { t.enterHandler.trap with ret := false } }, ?_, rfl, rfl, rfl, rfl,
      fun q => by cases q <;> rfl, rfl, rfl, rfl, fun b hb => ?_, fun l hl => ?_, rfl, rfl, rfl, rfl, rfl, rfl, rfl, rfl, rfl, rfl⟩
    · rw [exec, execLocalHandlerEntry, hat]
    · interval_cases b <;> rfl
    · interval_cases l <;> rfl
  · rw [Tile.leaveHandler, hshadow]
    refine ⟨rfl, rfl, rfl, rfl, rfl, rfl, fun h => if_neg ?_, fun q e rest hskip hentry hq he hline hlane => ?_⟩
    · rcases h with h | h <;> rw [h]
      · exact Bool.false_ne_true
      · rw [Bool.and_false]
        exact Bool.false_ne_true
    · exact (if_pos (by rw [hskip, hentry]; rfl)).trans (discard_head hq he hline hlane)

end Sys2Proof.Machine

/-! PROOFS of the family 'other': instructions of the copy engine -/

namespace Sys2Proof.Machine

/-! ### Instructions of the copy engine (R361 to R388) -/

/-- A CE body: it raises the fault of the lowest cause, or starts its command. -/
def ceChecked (c : Ctx) (faults : List CeFault) (t : Tile) : Except Raise Tile :=
  match lowestFault faults with
  | some x => .error (c.ceRaise x)
  | none => .ok t

section
variable {i : Instr} {info : Info} {own : Ctx → Tile → Option Hold} {body : Ctx → Tile → Except Raise Tile}
  {faults : List CeFault} {s : State} {f : Folio} {t u : Tile} {c : Ctx}

/-- A CE instruction without a fault starts its command, which adds no pending write. -/
theorem ce_starts (he : ∀ s, exec i s = issue (fun _ => info) own body s)
    (hb : body c t = ceChecked c faults u) (hpend : u.pend = t.pend)
    (h : Issues s f t c info) (ho : own c t = none) (hf : lowestFault faults = none) :
    exec i s = .next (s.putTile f (u.issued c (info.cost c))) := by
  rw [he]
  refine issue_ok (info := fun _ => info) h ho ?_ (Tile.predsApart_of_pend hpend)
  rw [hb, ceChecked, hf]

/-- A CE instruction with faults raises the lowest. -/
theorem ce_traps (he : ∀ s, exec i s = issue (fun _ => info) own body s)
    (hb : body c t = ceChecked c faults u) (h : Issues s f t c info) (ho : own c t = none) {x : CeFault}
    (hf : lowestFault faults = some x) :
    exec i s = .next (s.putTile f { t.addRaise (c.inHand (c.ceRaise x)) with ctl := { t.ctl with pfx := none } }) := by
  rw [he]
  refine issue_trap (info := fun _ => info) h ho ?_
  rw [hb, ceChecked, hf]

end

/-- The command that a copy instruction starts (R362, R365). -/
theorem copyCmd_fields (t : Tile) (c : Ctx) (o : CopyOp) (fn d : Nat) :
    let m : CeCmd := (copyCmd t c o fn d).1
    m.fn = fn ∧ m.mod = o.mod.toNat ∧ m.desc = d ∧ m.issue = c.k ∧ m.cls = c.cls o.ocl.toNat ∧ m.stop = none ∧ m.fault = []
    ∧ m.q0 = max (c.k + 1) t.ce.lastReq ∧ m.left = m.total ∧ m.targets = copyTargets c fn d
    ∧ m.total = (if isBlock fn o.mod.toNat then blocksBytes (t.blocks c fn o.mod.toNat d) / 64 else copyLines fn d)
    ∧ (copyCmd t c o fn d).2 = m.total
    ∧ m.e = (if usesLat fn o.mod.toNat then some (if fn = 6 then c.k + dLat d else c.k + dLat d + m.total - 1) else none)
    ∧ m.sig = sigOf c d ∧ (isBlock fn o.mod.toNat = false → m.kind = .plain) := by
  rw [copyCmd]
  split <;> split <;> simp_all [newCmd]

theorem copyStarts_of {i : Instr} {o : CopyOp} {fn least : Nat} (he : ∀ s, exec i s = copy i.cause o fn least s) :
    CopyStarts i o fn least := by
  intro s f t c n d md h hfree
  have hexec : ∀ s, exec i s = issue (fun _ => n) (ceHold o fun c t => t.copyExts c fn o.mod.toNat (t.desc o)) (copyBody o fn) s := he
  have hbody : copyBody o fn c t = ceChecked c (t.copyFaults c fn md d) (t.addCmd (copyCmd t c o fn d).1 (copyCmd t c o fn d).2) := rfl
  refine ⟨fun hf => ?_, fun x hf => ce_traps hexec hbody h hfree hf⟩
  obtain ⟨hfn, hmod, hdesc, hissue, hcls, hstop, hfault, hq0, hleft, htargets, htotal, hreq, he, hsig, hkind⟩ := copyCmd_fields t c o fn d
  refine ⟨_, _, ce_starts hexec hbody rfl h hfree hf, rfl, rfl, rfl, rfl, hfn, hmod, hdesc, hissue, hcls, hstop, hfault, hq0, hleft,
    htargets, htotal, ?_, he, hsig, hkind⟩
  rw [← hreq]
  rfl

/-- Bits of an overlay entry that TIMLD names are changed, the others kept (R378). -/
theorem setOvt_eq (t : Tile) (d : Nat) (v : Dword) {n : Nat} (hn : n < 256) :
    vget (t.setOvt (tlOvl d) v).csr.ovt n = if n = tlOvl d then v else vget t.csr.ovt n := by
  rw [Tile.setOvt]
  split
  next h =>
    subst h
    exact vget_vset_eq _ _ _ hn
  next h => exact vget_vset_ne _ _ _ _ h

/-- SIGW's own hold besides those of every command (R379): an earlier command that it follows. -/
def sigwFollows (o : CopyOp) (c : Ctx) (m : CeCmd) : Bool :=
  decide (m.issue < c.k) && (m.cls == c.cls o.ocl.toNat || inMask o.rmask.toNat m.cls || m.cls == 15 || c.cls o.ocl.toNat == 15)

/-- INKF's own hold besides those of every command (R388): an earlier Inkwell command of its class. -/
def inkfFollows (o : CopyOp) (c : Ctx) (m : CeCmd) : Bool :=
  m.fn == 10 && m.cls == c.cls o.ocl.toNat && decide (m.issue < c.k)

/-- The hold of a command that ceHold lets go, but which waits for some earlier ones to complete. -/
def followHold (hold : Option Hold) (follows : CeCmd → Bool) (c : Ctx) (t : Tile) : Option Hold :=
  match hold with
  | some h => some h
  | none => if t.ce.cmds.any fun m => follows m && !m.completed c.k then some .order else none

theorem followHold_none {hold : Option Hold} {follows : CeCmd → Bool} {c : Ctx} {t : Tile} (h : hold = none)
    (hc : ∀ m ∈ t.ce.cmds, follows m = true → m.completed c.k = true) : followHold hold follows c t = none := by
  subst h
  refine if_neg fun hany => ?_
  obtain ⟨m, hm, hw⟩ := List.any_eq_true.1 hany
  obtain ⟨hf, hn⟩ := Bool.and_eq_true_iff.1 hw
  rw [hc m hm hf] at hn
  exact Bool.false_ne_true hn

/-- Settles O48: every body raises the lowest fault of its checks or adds its command. -/
theorem copyInstructionsComplete : Obligations.CopyInstructionsComplete := by
  refine ⟨fun o => ⟨?_, ?_, ?_, ?_, ?_, ?_, ?_, ?_⟩, ?sigw, ?timld, ?coll, ?inkc, ?inkf, ?holds⟩
  iterate 8 exact copyStarts_of fun _ => rfl
  case sigw =>
    intro o info bad free
    have hexec (s : State) : exec (.sigw o) s = issue info (fun c t =>
        followHold (ceHold o (fun c t => [winExt c (dDst (t.desc o)) 8]) c t) (sigwFollows o c) c t) _ s := rfl
    have hgoes {c : Ctx} {t : Tile} (h : free c t) :
        followHold (ceHold o (fun c t => [winExt c (dDst (t.desc o)) 8]) c t) (sigwFollows o c) c t = none :=
      followHold_none h.1 fun m hm hw => h.2 m hm (of_decide_eq_true (Bool.and_eq_true_iff.1 hw).1)
    refine ⟨fun s f t c h hfree hf => ?_, fun s f t c x h hfree hf => ce_traps hexec rfl h (hgoes hfree) hf⟩
    exact ⟨_, _, ce_starts hexec rfl rfl h (hgoes hfree) hf, rfl, rfl, rfl, rfl, rfl, rfl, rfl, rfl, rfl⟩
  case timld =>
    intro o info
    refine ⟨fun s f t c h hfree hf => ?_, fun s f t c x h hfree hf =>
      ce_traps (own := ceHold o fun c t => t.timldExts c (t.desc o)) (fun _ => rfl) rfl h hfree hf⟩
    refine ⟨_, _, ce_starts (own := ceHold o fun c t => t.timldExts c (t.desc o)) (fun _ => rfl) rfl rfl h hfree hf, rfl, rfl, rfl, rfl, rfl, rfl,
      fun n hn => ?_, rfl, rfl⟩
    refine (setOvt_eq t (t.desc o) _ hn).trans ?_
    split
    next h => rw [h]
    next => rfl
  case coll =>
    intro o info
    refine ⟨fun s f t c h hfree hf => ?_, fun s f t c x h hfree hf =>
      ce_traps (own := ceHold o fun c t => collExts c (t.desc o)) (fun _ => rfl) rfl h hfree hf⟩
    exact ⟨_, _, _, ce_starts (own := ceHold o fun c t => collExts c (t.desc o)) (fun _ => rfl) rfl rfl h hfree hf, rfl, rfl, rfl, rfl, rfl, rfl, rfl, rfl,
      rfl, rfl, rfl, rfl, rfl, rfl, rfl, rfl, rfl⟩
  case inkc =>
    intro o info
    refine ⟨fun s f t c h hfree hf => ?_, fun s f t c x h hfree hf =>
      ce_traps (own := ceHold o fun c t => t.ikExts c (t.desc o)) (fun _ => rfl) rfl h hfree hf⟩
    exact ⟨_, _, ce_starts (own := ceHold o fun c t => t.ikExts c (t.desc o)) (fun _ => rfl) rfl rfl h hfree hf, rfl, rfl, rfl, rfl, rfl, rfl, rfl, rfl, rfl⟩
  case inkf =>
    intro o
    refine completes_of_body (own := fun c t => followHold (ceHold o (fun _ _ => []) c t) (inkfFollows o c) c t) (fun _ => rfl)
      (fun c t ⟨hfree, hdone⟩ => followHold_none hfree fun m hm hw => ?_) fun _ _ _ => rfl
    simp only [inkfFollows, Bool.and_eq_true, beq_iff_eq, decide_eq_true_eq] at hw
    exact hdone m hm hw.1.1 hw.1.2 hw.2
  case holds =>
    intro o exts c t hcmds hwrites hap
    simp [ceHold, hcmds, hwrites, hap]

end Sys2Proof.Machine

/-! PROOFS of the family 'other': the request stage -/

namespace Sys2Proof.Machine

/-! ### The request stage (R362 to R364) -/

/-- A slot some rotations on starts as many times 1,024 cycles later (R126, R130). -/
theorem slotStart_rotate (ch n k : Nat) : slotStart ch (n + k * slotsPer ch) = slotStart ch n + 1024 * k := by
  rw [slotStart, slotStart, slotsPer]
  split <;> omega

/-- A request's slot starts at least eight cycles after the request is ready (R127). -/
theorem slotFor_start (c : Ctx) (cursors : List SlotCursor) (ch ready : Nat) : ready + 8 ≤ slotStart ch (slotFor c cursors ch ready) := by
  rw [slotFor]
  simp only [slotStart_rotate]
  split <;> omega

/-- A tile whose one command is plain asks for no Inkwell write. -/
theorem inkWriteRequest_plain {t : Tile} {m : CeCmd} (c : Ctx) (hm : t.ce.cmds = [m]) (hk : m.kind = .plain) : t.inkWriteRequest c = t := by
  have hready : m.inkReady c.k = [] := by rw [CeCmd.inkReady, hk]
  simp [Tile.inkWriteRequest, hm, hready]

/-- The request stage of a tile whose one command is plain (R362). -/
theorem ceRequests_plain {t t' : Tile} {m m' : CeCmd} {c : Ctx} (hm : t.ce.cmds = [m]) (hk : m.kind = .plain)
    (hr : t.copyRequest c m = t') (hm' : t'.ce.cmds = [m']) (hk' : m'.kind = .plain) : t.ceRequests c = t' := by
  have hfind : [m].find? (fun x => x.id == m.id) = some m := by simp
  rw [Tile.ceRequests, hm, List.map_singleton, List.foldl_cons, List.foldl_nil, hm, hfind]
  simp only [hk]
  rw [hr, inkWriteRequest_plain c hm' hk']

/-- A tile whose one command is plain sends nothing over a link. -/
theorem exec_ceLineRequest {s : State} {f : Folio} {t t' : Tile} {c : Ctx} {m m' : CeCmd} (hat : s.at? = some (f, t, c))
    (hm : t.ce.cmds = [m]) (hk : m.kind = .plain) (hr : t.copyRequest c m = t') (hm' : t'.ce.cmds = [m']) (hk' : m'.kind = .plain) :
    exec .ceLineRequest s = .next (s.putTile f t') := by
  rw [exec, execCeLineRequest, hat]
  simp only [ceRequests_plain hm hk hr hm' hk', hm', List.foldl_cons, List.foldl_nil, hk']

/-- Outside its request cycles a command requests nothing (R362). -/
theorem copyRequest_idle {t : Tile} {m : CeCmd} {c : Ctx} (hk : m.kind = .plain) (h : ¬(m.q0 ≤ c.k ∧ c.k < m.q0 + m.total)) :
    t.copyRequest c m = t := by
  have hidle : (decide (c.k < m.q0) || decide (m.total ≤ c.k - m.q0)) = true := by
    simp only [Bool.or_eq_true, decide_eq_true_eq]
    omega
  simp only [Tile.copyRequest, hk, hidle, Bool.true_or, if_true]

/-- In them line i is requested as it stands (R362). -/
theorem copyRequest_line {t : Tile} {m : CeCmd} {c : Ctx} {r : LineReq} (hk : m.kind = .plain) (hstop : m.stop = none)
    (h : m.q0 ≤ c.k ∧ c.k < m.q0 + m.total) (hfn : m.fn ≠ 6) (hr : t.lineReq c m (c.k - m.q0) = .ok r) :
    t.copyRequest c m = t.startLine c m (c.k - m.q0) r := by
  have hsends : (decide (c.k < m.q0) || decide (m.total ≤ c.k - m.q0)) = false := by
    simp only [Bool.or_eq_false_iff, decide_eq_false_iff_not]
    omega
  simp [Tile.copyRequest, hk, hstop, hsends, hfn, hr]

/-- A command with one more line bound (R365). -/
def lineBound (m : CeCmd) (land : Nat) : CeCmd :=
  let m : CeCmd := { m with left := m.left - 1, perf := max m.perf land, fin := max m.fin land }
  if m.left = 0 then { m with e := some m.fin } else m

theorem lineBound_fields (m : CeCmd) (land : Nat) : (lineBound m land).left = m.left - 1 ∧ (lineBound m land).fin = max m.fin land
    ∧ (lineBound m land).e = (if m.left - 1 = 0 then some (max m.fin land) else m.e) ∧ (lineBound m land).kind = m.kind := by
  rw [lineBound]
  split <;> simp_all

/-- The line of a read that is bound to a slot (R363). -/
def slotRead (m : CeCmd) (c : Ctx) (i pa off start hlat : Nat) : CeLine where
  cmd := m.id
  idx := i
  route := .read
  start := start
  land := start + if inHostWindow pa then hlat else 240
  pa := pa
  off := off
  len := 64
  data := 0
  poison := 0
  targets := [(c.fx, c.fy)]
  got := []
  outside := none

/-- A line on the mesh (R364). -/
def meshRead (m : CeCmd) (c : Ctx) (i land off len data poison : Nat) : CeLine where
  cmd := m.id
  idx := i
  route := .mesh
  start := c.k
  land := land
  pa := 0
  off := off
  len := len
  data := data
  poison := poison
  targets := m.targets
  got := []
  outside := none

/-- The flit that carries it (R364). -/
def meshFlit (m : CeCmd) (c : Ctx) (i : Nat) : Flit where
  srcX := c.fx
  srcY := c.fy
  tgts := m.targets
  born := c.k + 1
  pay := .line m.id i
  bad := false

theorem corrects_frame (t : Tile) (a n : Nat) :
    ∃ st : Stores, t.corrects a n = { t with stores := st } ∧ st.mem = t.stores.mem := by
  rw [Tile.corrects]
  split
  · exact ⟨t.stores, rfl, rfl⟩
  · exact ⟨_, rfl, rfl⟩

/-- The cursor of the channel that a request uses (R363). -/
theorem cursor_bound (l : List SlotCursor) (ch n : Nat) :
    (((l.filter fun x => x.ch != ch) ++ [(⟨ch, n⟩ : SlotCursor)]).find? fun x => x.ch == ch).map (fun (x : SlotCursor) => x.last) = some n := by
  have hnone : (l.filter fun x => x.ch != ch).find? (fun x => x.ch == ch) = none := by
    simp [List.find?_eq_none]
  simp [List.find?_append, hnone]

/-- What line i of a CPYH asks for (R372). -/
def readReq (m : CeCmd) (c : Ctx) (i : Nat) : LineReq where
  srcVa := some (dSrc m.desc + 64 * i)
  src := 0
  dstVa := none
  dst := winOff (dDst m.desc) + 64 * i
  len := 64
  targets := [(c.fx, c.fy)]

theorem lineReq_cpyh (t : Tile) (c : Ctx) {m : CeCmd} (i : Nat) (h : m.fn = 1) : t.lineReq c m i = .ok (readReq m c i) := by
  rw [Tile.lineReq, h]
  rfl

/-- What line i of a CPY asks for: the bytes of the line that the destination meets (R372). -/
def meshReq (m : CeCmd) (i : Nat) : LineReq :=
  let dst := winOff (dDst m.desc)
  let base := dst / 64 * 64 + 64 * i
  { srcVa := none, src := winOff (dSrc m.desc) + (max dst base - dst), dstVa := none, dst := max dst base
    len := min (dst + dLen m.desc) (base + 64) - max dst base, targets := m.targets }

theorem lineReq_cpy (t : Tile) (c : Ctx) {m : CeCmd} (i : Nat) (h : m.fn = 0) : t.lineReq c m i = .ok (meshReq m i) := by
  rw [Tile.lineReq, h]
  rfl

/-- A CPY's line is read and sent in its request cycle (R364). -/
theorem startLine_mesh (t : Tile) (c : Ctx) (m : CeCmd) (i : Nat) : t.startLine c m i (meshReq m i) =
    (t.corrects (meshReq m i).src (meshReq m i).len).meshLine c m i (m.issue + dLat m.desc + i) (meshReq m i).dst (meshReq m i).len
      ((t.corrects (meshReq m i).src (meshReq m i).len).bytes (meshReq m i).src (meshReq m i).len)
      ((t.corrects (meshReq m i).src (meshReq m i).len).copyMarks (meshReq m i).src (meshReq m i).len (meshReq m i).dst) m.targets := rfl

/-- Settles O49: the stage finds the one command, which sends its line or none. -/
theorem lineRequestsBindSlots : Obligations.LineRequestsBindSlots := by
  intro s f t c m hat hm hk hstop i sends
  refine ⟨fun h => exec_ceLineRequest hat hm hk (copyRequest_idle hk h) hm hk, fun h hfn => ?_, fun h hfn => ?_⟩
  · intro pa ch
    have hsend := copyRequest_line hk hstop h (by rw [hfn]; decide) (lineReq_cpyh t c i hfn)
    obtain ⟨hleft, hfin, he, hkind⟩ := lineBound_fields m (slotStart ch (slotFor c t.ce.cursors ch c.k) + slotTime t pa)
    have hcmds : (t.startLine c m i (readReq m c i)).ce.cmds
        = [lineBound m (slotStart ch (slotFor c t.ce.cursors ch c.k) + slotTime t pa)] := by
      show List.map _ t.ce.cmds = _
      rw [hm, List.map_singleton, if_pos (beq_self_eq_true m.id)]
      rfl
    exact ⟨_, slotRead m c i pa (winOff (dDst m.desc) + 64 * i) (slotStart ch (slotFor c t.ce.cursors ch c.k)) t.csr.hlat, _,
      exec_ceLineRequest hat hm hk hsend hcmds (hkind.trans hk), rfl, rfl, rfl, rfl, rfl, rfl, rfl, rfl, slotFor_start _ _ _ _, rfl,
      hcmds, hleft, hfin, he, cursor_bound _ _ _, rfl, rfl, rfl⟩
  · intro dst base lo n
    have hsend := copyRequest_line hk hstop h (by rw [hfn]; decide) (lineReq_cpy t c i hfn)
    obtain ⟨st, hcor, hmem⟩ := corrects_frame t (meshReq m i).src (meshReq m i).len
    rw [startLine_mesh, hcor] at hsend
    exact ⟨_, meshRead m c i (m.issue + dLat m.desc + i) lo n _ _, meshFlit m c i, exec_ceLineRequest hat hm hk hsend hm hk, rfl, rfl, rfl,
      rfl, rfl, rfl, congrArg (fun x : Memory => x.readN _ _) hmem, rfl, rfl, rfl, rfl, rfl, hmem, rfl, rfl⟩

end Sys2Proof.Machine

/-! PROOFS of the family 'other': vector instructions and lanes (R252 to R268) -/

namespace Sys2Proof.Machine

/-! ### Vector instructions: one rule for all of them (R252 to R257) -/

/-- Sources whose tags all fit raise no tag trap (R97). -/
theorem tagCheck_eq_none {c : Ctx} {t : Tile} {l : List TagNeed} (h : t.tagsFit l) : tagCheck c t l = none := by
  rw [tagCheck, List.findSome?_eq_none_iff]
  intro p hp
  have hbad : t.slices.badTag p.1.1 p.1.2 p.2 = none := by
    rw [Slices.badTag, List.find?_eq_none]
    intro g hg
    simp [h p hp g hg]
  rw [hbad, Option.map_none]

/-- The first source whose tag does not fit raises cause 19 (R97). -/
theorem tagCheck_eq_some {c : Ctx} {t : Tile} {l l' : List TagNeed} {p : TagNeed} {g : Nat} (hl : t.tagsFit l)
    (hg : t.slices.badTag p.1.1 p.1.2 p.2 = some g) : tagCheck c t (l ++ p :: l') = some (c.raiseInfo 19 g (t.slices.tag g)) := by
  have hnone : l.findSome? (fun p => (t.slices.badTag p.1.1 p.1.2 p.2).map fun g => c.raiseInfo 19 g (t.slices.tag g)) = none :=
    tagCheck_eq_none hl
  rw [tagCheck, List.findSome?_append, hnone, Option.none_or, List.findSome?_cons, hg, Option.map_some]

/-- A vector instruction completes where its tags fit and its computation answers a value. -/
theorem vector_completes {i : Instr} {o : LongVec} {lat least : Nat} {rv sv readsD readsB : Bool} {needs : List TagNeed}
    {tag : Tile → Nat} {f : Ctx → Tile → Except Raise (Nat × List (Nat × Nat))} {r : Ctx → Tile → Nat × List (Nat × Nat)} {ok : Tile → Prop}
    (he : ∀ s, exec i s = vector i.cause o lat least rv sv readsD readsB needs tag f s)
    (hfit : ∀ t, ok t → t.tagsFit needs) (hf : ∀ c t, ok t → f c t = .ok (r c t)) :
    Completes i (fun _ => vecInfo i o least rv sv ((if readsD then [o.dSpan] else []) ++ [o.aSpan] ++ (if readsB then [o.bSpan] else [])))
      (fun _ t => ok t)
      (fun c t => t.later c lat (.slices (4 * o.ds.toNat) (o.dBits / 4) (r c t).1 (BitVec.ofNat 5 (tag t))) (r c t).2) := by
  refine completes_of_body he (fun _ _ _ => rfl) fun c t hok => ?_
  simp only [hf c t hok, tagCheck_eq_none (hfit t hok)]
  rfl

/-- A vector instruction traps with the lower of its own fault and cause 19. -/
theorem vector_traps {i : Instr} {o : LongVec} {lat least : Nat} {rv sv readsD readsB : Bool} {needs : List TagNeed}
    {tag : Tile → Nat} {f : Ctx → Tile → Except Raise (Nat × List (Nat × Nat))} {r : Ctx → Tile → Raise} {bad : Tile → Prop}
    (he : ∀ s, exec i s = vector i.cause o lat least rv sv readsD readsB needs tag f s)
    (hf : ∀ c t, bad t → f c t = .error (r c t) ∧ (t.tagsFit needs ∨ (r c t).cause < 19)) :
    Traps i (fun _ => vecInfo i o least rv sv ((if readsD then [o.dSpan] else []) ++ [o.aSpan] ++ (if readsB then [o.bSpan] else [])))
      (fun _ t => bad t) r := by
  refine traps_of_body he (fun _ _ _ => rfl) fun c t hbad => ?_
  obtain ⟨hr, hlow⟩ := hf c t hbad
  simp only [hr]
  cases htag : tagCheck c t needs with
  | none => rfl
  | some y =>
    have hy : y.cause = 19 := by
      rw [tagCheck, List.findSome?_eq_some_iff] at htag
      obtain ⟨_, p, _, _, hp, _⟩ := htag
      rw [Option.map_eq_some_iff] at hp
      obtain ⟨g, _, rfl⟩ := hp
      rfl
    have hlt : (r c t).cause < 19 := hlow.resolve_left fun hfit => by rw [tagCheck_eq_none hfit] at htag; cases htag
    simp only [hy, hlt, if_true]

/-- A vector instruction that computes without a fault lands its result or raises cause 19 (R253 to R257). -/
theorem vectorLands_of_exec {i : Instr} {o : LongVec} {lat least : Nat} {rv sv readsD readsB : Bool} {needs : List TagNeed}
    {tag : Tile → Nat} {r : Ctx → Tile → Nat × List (Nat × Nat)}
    (he : ∀ s, exec i s = vector i.cause o lat least rv sv readsD readsB needs tag (fun c t => .ok (r c t)) s) :
    VectorLands i o lat least rv sv ((if readsD then [o.dSpan] else []) ++ [o.aSpan] ++ (if readsB then [o.bSpan] else [])) needs tag r := by
  refine ⟨vector_completes he (fun _ h => h) fun _ _ _ => rfl, ?_⟩
  rintro l p l' g rfl
  refine traps_of_body he (fun _ _ _ => rfl) fun c t hbad => ?_
  simp only [tagCheck_eq_some hbad.1 hbad.2]

/-- Settles O33: each instruction is the vector rule at its own terms. -/
theorem vectorArithmeticCompletes : Obligations.VectorArithmeticCompletes := by
  intro o
  refine ⟨?_, ?_, ?_, ?_, ?_, ?_, ?_, ?_⟩
  case refine_1 =>
    exact vectorLands_of_exec (readsD := false) (readsB := true) fun s => by
      rw [exec, execVadd, vecFloat, if_neg (by decide), List.append_nil]; rfl
  case refine_2 =>
    exact vectorLands_of_exec (readsD := false) (readsB := true) fun s => by
      rw [exec, execVsub, vecFloat, if_neg (by decide), List.append_nil]; rfl
  case refine_3 =>
    exact vectorLands_of_exec (readsD := false) (readsB := true) fun s => by
      rw [exec, execVmul, vecFloat, if_neg (by decide), List.append_nil]; rfl
  case refine_4 => exact vectorLands_of_exec (readsD := true) (readsB := true) fun _ => rfl
  case refine_5 => exact vectorLands_of_exec (readsD := true) (readsB := true) fun _ => rfl
  case refine_6 => exact vectorLands_of_exec (readsD := false) (readsB := true) fun _ => rfl
  case refine_7 => exact vectorLands_of_exec (readsD := false) (readsB := false) fun _ => rfl
  case refine_8 => exact vectorLands_of_exec (readsD := true) (readsB := true) fun _ => rfl

/-! ### Packed lanes and their events (R179, R255) -/

/-- Packed lanes fill the low bits. -/
theorem packLanes_lt (w : Nat) (l : List Nat) : packLanes w l < 2 ^ (w * l.length) := by
  induction l with
  | nil => simp [packLanes]
  | cons x l ih =>
    rw [packLanes] at ih ⊢
    rw [List.foldr_cons, List.length_cons, Nat.mul_succ, Nat.pow_add]
    have hx : x % 2 ^ w < 2 ^ w := Nat.mod_lt _ (Nat.two_pow_pos w)
    calc x % 2 ^ w + l.foldr (fun x v => x % 2 ^ w + v * 2 ^ w) 0 * 2 ^ w
        < (l.foldr (fun x v => x % 2 ^ w + v * 2 ^ w) 0 + 1) * 2 ^ w := by rw [Nat.succ_mul]; omega
      _ ≤ 2 ^ (w * l.length) * 2 ^ w := Nat.mul_le_mul_right _ ih

/-- Lane i of packed lanes is the low bits of element i (R179). -/
theorem laneOf_packLanes {w : Nat} {l : List Nat} {i x : Nat} (h : l[i]? = some x) : laneOf w (packLanes w l) i = x % 2 ^ w := by
  induction l generalizing i with
  | nil => simp at h
  | cons y l ih =>
    have hy : y % 2 ^ w < 2 ^ w := Nat.mod_lt _ (Nat.two_pow_pos w)
    have hpack : packLanes w (y :: l) = y % 2 ^ w + packLanes w l * 2 ^ w := rfl
    cases i with
    | zero =>
      obtain rfl : y = x := by simpa using h
      rw [hpack, laneOf, bitsAt, Nat.mul_zero, Nat.shiftRight_zero, Nat.add_mul_mod_self_right, Nat.mod_mod]
    | succ i =>
      have hrest : packLanes w (y :: l) / 2 ^ w = packLanes w l := by
        rw [hpack, Nat.add_mul_div_right _ _ (Nat.two_pow_pos w), Nat.div_eq_of_lt hy, Nat.zero_add]
      rw [← ih (i := i) (by simpa using h), laneOf, laneOf, bitsAt, bitsAt, Nat.shiftRight_eq_div_pow, Nat.shiftRight_eq_div_pow,
        Nat.mul_succ, Nat.add_comm, Nat.pow_add, ← Nat.div_div_eq_div_mul, hrest]

/-- How many events of a class a list of counts holds. -/
def eventCount (k : Nat) (l : List (Nat × Nat)) : Nat := ((l.filter fun p => p.1 == k).map fun p => p.2).sum

/-- Adding events of a class counts them in that class alone. -/
theorem eventCount_addEv (k : Nat) (l : List (Nat × Nat)) (c n : Nat) :
    eventCount k (addEv l c n) = eventCount k l + if c = k then n else 0 := by
  induction l with
  | nil =>
    rw [addEv]
    by_cases hn : n = 0 <;> by_cases hc : c = k <;> simp [eventCount, hn, hc]
  | cons p l ih =>
    rw [addEv]
    unfold eventCount at ih ⊢
    by_cases hp : p.1 = c
    · rw [if_pos hp]
      by_cases hc : c = k
      · simp [hp, hc]; omega
      · simp [hp, hc]
    · rw [if_neg hp]
      by_cases hk : p.1 = k
      · simp [hk, ih]; omega
      · simp [hk, ih]

/-- One result's event joins the counts of its class. -/
theorem eventCount_sumEv_evOf (k : Nat) (l : List (Nat × Nat)) (o : Option Nat) :
    eventCount k (sumEv l (evOf o)) = eventCount k l + if o == some k then 1 else 0 := by
  cases o with
  | none => simp [sumEv, evOf]
  | some c => simpa [sumEv, evOf] using eventCount_addEv k l c 1

/-- The events of the lanes add up (R255). -/
theorem eventCount_packRounded (k w : Nat) (l : List Rounded) : eventCount k (packRounded w l).2 = l.countP fun r => r.2 == some k := by
  have hfold : ∀ (l : List Rounded) (e : List (Nat × Nat)),
      eventCount k (l.foldl (fun e r => sumEv e (evOf r.2)) e) = eventCount k e + l.countP fun r => r.2 == some k := by
    intro l
    induction l with
    | nil => simp
    | cons r l ih =>
      intro e
      rw [List.foldl_cons, ih, eventCount_sumEv_evOf, List.countP_cons]
      omega
  rw [packRounded, hfold, show eventCount k [] = 0 from rfl, Nat.zero_add]

/-- Settles O36: each instruction is the vector rule at its own lanes, and packed lanes stand in order. -/
theorem vectorLanesComplete : Obligations.VectorLanesComplete := by
  refine ⟨fun o => ⟨?_, ?_, ?_, ?_, ?_, ?_, ?_, ?_, ?_, ?_, ?_, ?_, ?_⟩, fun w l _ => ⟨fun i r hr => ?_, ?_, fun k => ?_⟩⟩
  case refine_1 => exact vectorLands_of_exec (readsD := false) (readsB := true) fun _ => rfl
  case refine_2 => exact vectorLands_of_exec (readsD := false) (readsB := true) fun _ => rfl
  case refine_3 => exact vectorLands_of_exec (readsD := false) (readsB := true) fun _ => rfl
  case refine_4 =>
    exact vectorLands_of_exec (readsD := false) (readsB := true) fun _ => by
      simp only [exec, execVshl, vecInt, lanewise, Nat.shiftLeft_eq]
  case refine_5 =>
    exact vectorLands_of_exec (readsD := false) (readsB := true) fun _ => by
      simp only [exec, execVshr, vecInt, lanewise, Nat.shiftRight_eq_div_pow, ofSigned,
        Int.fdiv_eq_ediv_of_nonneg _ (by positivity : (0 : ℤ) ≤ 2 ^ _)]
      congr 1
      funext c t
      congr 3
      funext i
      split <;> rfl
  case refine_6 => exact vectorLands_of_exec (readsD := false) (readsB := true) fun _ => rfl
  case refine_7 => exact vectorLands_of_exec (readsD := false) (readsB := true) fun _ => rfl
  case refine_8 => exact vectorLands_of_exec (readsD := false) (readsB := true) fun _ => rfl
  case refine_9 => exact vectorLands_of_exec (readsD := false) (readsB := true) fun _ => rfl
  case refine_10 => exact vectorLands_of_exec (readsD := false) (readsB := false) fun _ => rfl
  case refine_11 => exact vectorLands_of_exec (readsD := false) (readsB := true) fun _ => rfl
  case refine_12 => exact vectorLands_of_exec (readsD := false) (readsB := true) fun _ => rfl
  case refine_13 => exact vectorLands_of_exec (readsD := false) (readsB := false) fun _ => rfl
  case refine_14 => exact laneOf_packLanes (by rw [List.getElem?_map, hr, Option.map_some])
  case refine_15 => simpa [packRounded] using packLanes_lt w (l.map (·.1))
  case refine_16 => exact eventCount_packRounded k w l

end Sys2Proof.Machine

/-! PROOFS of the family 'other': Ductus instructions (R269 to R275) -/

namespace Sys2Proof.Machine

/-! ### Ductus instructions (R269 to R275) -/

/-- No need for a tag is always met. -/
theorem tagsFit_nil (t : Tile) : t.tagsFit [] := by simp [Tile.tagsFit]

/-- Replacing the lowest 12 bits of a number. -/
theorem putBits_low (h x : Nat) (hx : x < 2 ^ 12) : putBits h 0 12 x = h - h % 2 ^ 12 + x := by
  rw [putBits, Nat.shiftLeft_eq, Nat.shiftLeft_eq, Nat.shiftRight_eq_div_pow, Nat.mod_eq_of_lt hx]
  omega

/-- A header's scale is its lowest 12 bits (R204). -/
theorem hdrScale_eq (h : Nat) : hdrScale h = h % 2 ^ 12 := by rw [hdrScale, bitsAt, Nat.shiftRight_zero]

/-- DSCALE's header, out of range, in range or without a scale (R213, R275). -/
theorem scaleHeader_eq (h : Nat) (d : Int) :
    ((scaleHeader h d).1, if (scaleHeader h d).2 then [(5, 1)] else []) =
      (if hdrScale h = 0xFFF then (h, [])
       else if (hdrScale h : Int) + d < 0 ∨ 0xFFE < (hdrScale h : Int) + d then (h - hdrScale h + 0xFFF, [(5, 1)])
       else (h - hdrScale h + ((hdrScale h : Int) + d).toNat, [])) := by
  rw [scaleHeader]
  by_cases hnan : hdrScale h = 0xFFF
  · simp [hnan]
  · rw [if_neg hnan, if_neg hnan]
    by_cases hout : (hdrScale h : Int) + d < 0 ∨ 0xFFE < (hdrScale h : Int) + d
    · rw [if_pos hout, if_pos hout, putBits_low _ _ (by decide), ← hdrScale_eq]
      rfl
    · rw [if_neg hout, if_neg hout, putBits_low _ _ (by omega), ← hdrScale_eq]
      rfl

/-- Settles O37: each step is the vector rule, with its cursor and its header checked in that order. -/
theorem ductusInstructionsComplete : Obligations.DuctusInstructionsComplete := by
  intro o
  refine ⟨?survey, ?surveyBad, ?head, ?quant, ?quantCursor, ?quantHeader, ⟨?unscaled, ?scaled, ?cursor, ?width, ?header⟩, ?dscale, ?dscaleBad⟩
  case survey =>
    refine vector_completes (readsD := true) (readsB := true) (fun _ => rfl) (fun _ h => h.2) fun c t h => ?_
    have hcur : curBad (o.bVal t % 2 ^ 32) (dqNums o t).length = false := h.1
    refine (if_neg (Bool.eq_false_iff.mp hcur)).trans (congrArg Except.ok (Prod.ext rfl (congrArg (addEv [] 0) ?_)))
    refine List.countP_congr fun x _ => ?_
    cases x with
    | nan => rfl
    | inf s => cases s <;> rfl
    | fin s m e => rfl
  case surveyBad =>
    refine vector_traps (readsD := true) (readsB := true) (fun _ => rfl) fun c t h => ⟨?_, .inr (by decide : 5 < 19)⟩
    exact if_pos h
  case head =>
    have hexec : ∀ s, exec (.dqntHead o) s = execDqntHead o s := fun _ => rfl
    simp only [execDqntHead] at hexec
    exact vector_completes (readsD := false) (readsB := false) hexec (fun t _ => tagsFit_nil t) fun _ _ _ => rfl
  case quant =>
    refine vector_completes (readsD := false) (readsB := true) (fun _ => rfl) (fun _ h => h.2.2) fun c t h => ?_
    obtain ⟨hcur, hhdr, _⟩ := h
    have hcur' : curBad (o.bVal t / 2 ^ 192) (dqNums o t).length = false := hcur
    exact (if_neg (Bool.eq_false_iff.mp hcur')).trans (if_neg (Bool.eq_false_iff.mp hhdr))
  case quantCursor =>
    refine vector_traps (readsD := false) (readsB := true) (fun _ => rfl) fun c t h => ⟨?_, .inr (by decide : 5 < 19)⟩
    exact if_pos h
  case quantHeader =>
    refine vector_traps (readsD := false) (readsB := true) (fun _ => rfl) fun c t h => ⟨?_, .inl h.2.2⟩
    obtain ⟨hcur, hhdr, _⟩ := h
    have hcur' : curBad (o.bVal t / 2 ^ 192) (dqNums o t).length = false := hcur
    exact (if_neg (Bool.eq_false_iff.mp hcur')).trans (if_pos hhdr)
  case unscaled =>
    refine vector_completes (readsD := false) (readsB := true) (fun _ => rfl) (fun t _ => tagsFit_nil t) fun c t h => ?_
    obtain ⟨⟨hcur, hhdr, hwidth, htags⟩, hscale⟩ := h
    simp only [hcur, hhdr, hwidth, hscale, tagCheck_eq_none htags, ne_eq, not_true_eq_false, and_false, or_false, if_true, ite_self,
      Bool.false_eq_true, if_false]
  case scaled =>
    refine vector_completes (readsD := false) (readsB := true) (fun _ => rfl) (fun t _ => tagsFit_nil t) fun c t h => ?_
    obtain ⟨⟨hcur, hhdr, hwidth, htags⟩, hscale⟩ := h
    simp only [hcur, hhdr, hwidth, hscale, tagCheck_eq_none htags, ne_eq, not_true_eq_false, and_false, or_false, ite_self,
      Bool.false_eq_true, if_false]
    rfl
  case cursor =>
    refine vector_traps (readsD := false) (readsB := true) (fun _ => rfl) fun c t h => ⟨?_, .inl (tagsFit_nil t)⟩
    exact if_pos (.inl h)
  case width =>
    refine vector_traps (readsD := false) (readsB := true) (fun _ => rfl) fun c t h => ⟨?_, .inl (tagsFit_nil t)⟩
    exact if_pos (.inr h.2)
  case header =>
    refine vector_traps (readsD := false) (readsB := true) (fun _ => rfl) fun c t h => ⟨?_, .inl (tagsFit_nil t)⟩
    obtain ⟨hcur, hhdr, hfit⟩ := h
    by_cases hB : inB (hdrFmt (o.bVal t % 2 ^ 192)) = true
    · obtain ⟨hwidth, htags⟩ := hfit hB
      simp only [hcur, hhdr, hwidth, tagCheck_eq_none htags, ne_eq, not_true_eq_false, and_false, or_false, if_true, ite_self,
        Bool.false_eq_true, if_false]
      rfl
    · simp only [hcur, hhdr, hB, false_and, or_false, if_true, Bool.false_eq_true, if_false]
      rfl
  case dscale =>
    refine vector_completes (readsD := false) (readsB := true) (fun _ => rfl) (fun t _ => tagsFit_nil t) fun c t h => ?_
    exact (if_neg (Bool.eq_false_iff.mp h)).trans (congrArg Except.ok (scaleHeader_eq _ _))
  case dscaleBad =>
    refine vector_traps (readsD := false) (readsB := true) (fun _ => rfl) fun c t h => ⟨?_, .inl (tagsFit_nil t)⟩
    exact if_pos h

end Sys2Proof.Machine

/-! PROOFS of the family 'other': transposed Ductus blocks (R208, R210, R214, R215) -/

namespace Sys2Proof.Machine

/-! ### Transposed blocks (R208, R210, R214, R215) -/

/-- A field outside the replaced bits keeps its value. -/
theorem bitsAt_putBits_outside (v pos w x p k : Nat) (h : p + k ≤ pos ∨ pos + w ≤ p) : bitsAt (putBits v pos w x) p k = bitsAt v p k := by
  refine Nat.eq_of_testBit_eq fun i => ?_
  rw [testBit_bitsAt, testBit_bitsAt]
  by_cases hi : i < k
  · rw [testBit_putBits, if_neg (by omega)]
  · simp [hi]

/-- A field inside the replaced bits is a field of what replaces them. -/
theorem bitsAt_putBits_inside (v pos w x p k : Nat) (h : pos ≤ p) (h' : p + k ≤ pos + w) :
    bitsAt (putBits v pos w x) p k = bitsAt x (p - pos) k := by
  refine Nat.eq_of_testBit_eq fun i => ?_
  rw [testBit_bitsAt, testBit_bitsAt]
  by_cases hi : i < k
  · rw [testBit_putBits, if_pos (by omega), show p + i - pos = p - pos + i by omega]
  · simp [hi]

/-- A field of a field. -/
theorem bitsAt_bitsAt (v pos w p k : Nat) (h : p + k ≤ w) : bitsAt (bitsAt v pos w) p k = bitsAt v (pos + p) k := by
  refine Nat.eq_of_testBit_eq fun i => ?_
  rw [testBit_bitsAt, testBit_bitsAt, testBit_bitsAt, Nat.add_assoc]
  by_cases hi : i < k
  · simp [hi, show p + i < w by omega]
  · simp [hi]

@[simp] theorem hdrScale_transposeHdr (h : Nat) : hdrScale (transposeHdr h) = hdrScale h := by
  rw [hdrScale, transposeHdr, bitsAt_putBits_outside _ _ _ _ _ _ (by decide), bitsAt_putBits_outside _ _ _ _ _ _ (by decide), hdrScale]

@[simp] theorem hdrFmt_transposeHdr (h : Nat) : hdrFmt (transposeHdr h) = hdrFmt h := by
  rw [hdrFmt, transposeHdr, bitsAt_putBits_outside _ _ _ _ _ _ (by decide), bitsAt_putBits_outside _ _ _ _ _ _ (by decide), hdrFmt]

/-- A row's micro-exponent in the transposed header is the column's (R210). -/
theorem hdrRow_transposeHdr (h i : Nat) (hi : i < 32) : hdrRow (transposeHdr h) i = hdrCol h i := by
  rw [hdrRow, transposeHdr, bitsAt_putBits_outside _ _ _ _ _ _ (by omega), bitsAt_putBits_inside _ _ _ _ _ _ (by omega) (by omega),
    bitsAt_bitsAt _ _ _ _ _ (by omega), hdrCol, show 128 + (64 + 2 * i - 64) = 128 + 2 * i by omega]

/-- A column's micro-exponent in the transposed header is the row's (R210). -/
theorem hdrCol_transposeHdr (h j : Nat) (hj : j < 32) : hdrCol (transposeHdr h) j = hdrRow h j := by
  rw [hdrCol, transposeHdr, bitsAt_putBits_inside _ _ _ _ _ _ (by omega) (by omega), bitsAt_bitsAt _ _ _ _ _ (by omega), hdrRow,
    show 64 + (128 + 2 * j - 128) = 64 + 2 * j by omega]

/-- The sum of an element's exponents does not change under transposition. -/
theorem hdrShift_transposeHdr (h i j : Nat) (hi : i < 32) (hj : j < 32) :
    (hdrScale (transposeHdr h) : Int) - 2048 + hdrRow (transposeHdr h) i + hdrCol (transposeHdr h) j
      = (hdrScale h : Int) - 2048 + hdrRow h j + hdrCol h i := by
  rw [hdrScale_transposeHdr, hdrRow_transposeHdr h i hi, hdrCol_transposeHdr h j hj]
  omega

/-- The transpose of a block's element (R208). -/
theorem ductusValue_transposeHdr (h e i j : Nat) (hi : i < 32) (hj : j < 32) :
    ductusValue (transposeHdr h) e i j = ductusValue h e j i := by
  rw [ductusValue, ductusValue, hdrShift_transposeHdr h i j hi hj, hdrScale_transposeHdr, hdrFmt_transposeHdr]

/-- An element of a payload is below 2^w. -/
theorem payElem_lt (w pay i j : Nat) : payElem w pay i j < 2 ^ w := Nat.mod_lt _ (Nat.two_pow_pos w)

/-- The transpose of a payload holds at row i and column j what the payload holds at row j and column i (R210). -/
theorem payElem_transposePay (w pay i j : Nat) (hi : i < 32) (hj : j < 32) : payElem w (transposePay w pay) i j = payElem w pay j i := by
  have hk : 32 * i + j < 1024 := by omega
  have hget : ((List.range 1024).map fun k => payElem w pay (k % 32) (k / 32))[32 * i + j]? = some (payElem w pay j i) := by
    rw [List.getElem?_map, List.getElem?_range hk, Option.map_some, show (32 * i + j) % 32 = j by omega, show (32 * i + j) / 32 = i by omega]
  rw [payElem, transposePay, laneOf_packLanes hget, Nat.mod_eq_of_lt (payElem_lt ..)]

/-- Packing sees only the low bits of its elements. -/
theorem packLanes_map_mod (w : Nat) (l : List Nat) : packLanes w (l.map (· % 2 ^ w)) = packLanes w l := by
  induction l with
  | nil => rfl
  | cons x l ih => simpa [packLanes] using ih

/-- The transpose of a payload packed element by element. -/
theorem transposePay_packLanes (w : Nat) (g : Nat → Nat → Nat) :
    transposePay w (packLanes w ((List.range 1024).map fun k => g (k / 32) (k % 32)))
      = packLanes w ((List.range 1024).map fun k => g (k % 32) (k / 32)) := by
  rw [transposePay, ← packLanes_map_mod w ((List.range 1024).map fun k => g (k % 32) (k / 32)), List.map_map]
  refine congrArg (packLanes w) (List.map_congr_left fun k hk => ?_)
  have hk1 := List.mem_range.mp hk
  have hk' : 32 * (k % 32) + k / 32 < 1024 := by omega
  have hget : ((List.range 1024).map fun k => g (k / 32) (k % 32))[32 * (k % 32) + k / 32]? = some (g (k % 32) (k / 32)) := by
    rw [List.getElem?_map, List.getElem?_range hk', Option.map_some, show (32 * (k % 32) + k / 32) / 32 = k % 32 by omega,
      show (32 * (k % 32) + k / 32) % 32 = k / 32 by omega]
  exact laneOf_packLanes hget

/-- The empty payload is its own transpose. -/
theorem transposePay_zero (w : Nat) : transposePay w 0 = 0 := by
  have hzero : ∀ l : List Nat, packLanes w (l.map fun k => payElem w 0 (k % 32) (k / 32)) = 0 := by
    intro l
    induction l with
    | nil => rfl
    | cons k l ih => simpa [packLanes, payElem, laneOf, bitsAt] using ih
  exact hzero _

/-- A header's row and column words, exchanged. -/
theorem transposeHdr_add {a R C : Nat} (ha : a < 2 ^ 64) (hR : R < 2 ^ 64) (hC : C < 2 ^ 64) :
    transposeHdr (a + R * 2 ^ 64 + C * 2 ^ 128) = a + C * 2 ^ 64 + R * 2 ^ 128 := by
  have hrow : bitsAt (a + R * 2 ^ 64 + C * 2 ^ 128) 64 64 = R := by rw [bitsAt_eq_div_mod]; omega
  have hcol : bitsAt (a + R * 2 ^ 64 + C * 2 ^ 128) 128 64 = C := by rw [bitsAt_eq_div_mod]; omega
  have hput : putBits (a + R * 2 ^ 64 + C * 2 ^ 128) 64 64 C = a + C * 2 ^ 64 + C * 2 ^ 128 := by
    rw [putBits, Nat.shiftLeft_eq, Nat.shiftLeft_eq, Nat.shiftRight_eq_div_pow]
    omega
  have hdiv : (a + C * 2 ^ 64 + C * 2 ^ 128) / 2 ^ (128 + 64) = 0 := Nat.div_eq_of_lt (by omega)
  have hmod : (a + C * 2 ^ 64 + C * 2 ^ 128) % 2 ^ 128 = a + C * 2 ^ 64 := by omega
  rw [transposeHdr, hrow, hcol, hput, putBits, Nat.shiftLeft_eq, Nat.shiftLeft_eq, Nat.shiftRight_eq_div_pow, hdiv, hmod, Nat.mod_eq_of_lt hR]
  omega

/-- The micro-exponents of 32 rows or columns fill one word. -/
theorem packMicro_lt (l : List Nat) (h : l.length = 32) : packMicro l < 2 ^ 64 := by
  have hlt := packLanes_lt 2 l
  rwa [h] at hlt

/-- The header of exchanged entries is the transposed header (R214). -/
theorem headerOf_swap {f gen : Nat} {rows cols : List Nat} (hf : f < 16) (hg : gen < 16) (hr : rows.length = 32) (hc : cols.length = 32) :
    (headerOf f gen cols rows).1 = transposeHdr (headerOf f gen rows cols).1 := by
  have hself : ∀ a < 2 ^ 64, transposeHdr a = a := fun a ha => by simpa using transposeHdr_add (R := 0) (C := 0) ha (by decide) (by decide)
  have hmax : (cols ++ rows).foldl max 0 = (rows ++ cols).foldl max 0 := List.perm_append_comm.foldl_eq 0
  have hnan : (cols ++ rows).contains 0xFFFF = (rows ++ cols).contains 0xFFFF := by
    rw [List.contains_append, List.contains_append, Bool.or_comm]
  have hzero : ((cols ++ rows).all fun e => e == 0) = (rows ++ cols).all fun e => e == 0 := by
    rw [List.all_append, List.all_append, Bool.and_comm]
  simp only [headerOf, hmax, hnan, hzero]
  split
  · exact (hself _ (by omega)).symm
  · split
    · exact (hself _ (by omega)).symm
    · split
      · exact (hself _ (by omega)).symm
      · exact (transposeHdr_add (by omega) (packMicro_lt _ (by simpa using hr)) (packMicro_lt _ (by simpa using hc))).symm

/-- A header without micro-exponents stays so under transposition. -/
theorem micro_transposeHdr (h : Nat) : bitsAt (transposeHdr h) 64 128 = 0 ↔ bitsAt h 64 128 = 0 := by
  simp only [transposeHdr, putBits, bitsAt_eq_div_mod, Nat.shiftLeft_eq, Nat.shiftRight_eq_div_pow]
  omega

/-- An element quantised under the transposed header at the exchanged place (R214). -/
theorem quantElem_transposeHdr (h rm u i j : Nat) (x : Num) (hi : i < 32) (hj : j < 32) :
    quantElem (transposeHdr h) rm u i j x = quantElem h rm u j i x := by
  simp only [quantElem, hdrShift_transposeHdr h i j hi hj]
  simp only [hdrScale_transposeHdr, hdrFmt_transposeHdr, micro_transposeHdr]

/-- The draw of an element does not depend on the order of its indices (R215). -/
theorem drawIndex_comm (i j : Nat) : drawIndex i j = drawIndex j i := by rw [drawIndex, drawIndex, Nat.min_comm, Nat.max_comm]

/-- Settles O38: headers and payloads transpose field by field, and quantisation commutes with the exchange of rows and columns. -/
theorem ductusTransposes : Obligations.DuctusTransposes := by
  refine ⟨ductusValue_transposeHdr, fun w pay i j _ => payElem_transposePay w pay i j, fun f gen rm u x hf hg => ?_⟩
  have hf' : f < 16 := by
    rw [inB] at hf
    simp only [Bool.or_eq_true, Bool.and_eq_true, decide_eq_true_eq] at hf
    omega
  have hhead : (headerOf f gen (surveyAll fun i j => x j i).1 (surveyAll fun i j => x j i).2).1
      = transposeHdr (headerOf f gen (surveyAll x).1 (surveyAll x).2).1 :=
    headerOf_swap hf' hg (by simp [surveyAll]) (by simp [surveyAll])
  simp only [quantise, hhead, hdrScale_transposeHdr]
  split
  case isTrue => exact ⟨rfl, (transposePay_zero _).symm⟩
  case isFalse =>
    refine ⟨rfl, ?_⟩
    simp only [packRounded, List.map_map, Function.comp_def]
    rw [transposePay_packLanes (elemBits f) fun i j =>
      (quantElem (headerOf f gen (surveyAll x).1 (surveyAll x).2).1 rm (u (drawIndex i j)) i j (x i j)).1]
    refine congrArg (packLanes _) (List.map_congr_left fun k hk => ?_)
    have hk' := List.mem_range.mp hk
    rw [quantElem_transposeHdr _ _ _ _ _ _ (by omega) (by omega), drawIndex_comm]

end Sys2Proof.Machine

/-! PROOFS of the family 'other': exact values and sums (R181 to R188) -/

namespace Sys2Proof.Machine

/-! ### Exact values (R181, R186) -/

/-- A significand and an exponent, as a product. -/
theorem ratOf_mk (m : Nat) (e : Int) : ratOf (m, e) = (m : ℚ) * 2 ^ e := rfl

/-- Values under one exponent are in the order of their significands. -/
theorem ratOf_strictMono (e : Int) : StrictMono fun m : Nat => ratOf (m, e) := fun a b h => by
  have hpow : (0 : ℚ) < 2 ^ e := zpow_pos (by norm_num) e
  simp only [ratOf_mk]
  exact mul_lt_mul_of_pos_right (by exact_mod_cast h) hpow

/-- A value written with a lower exponent. -/
theorem ratOf_shiftLeft (m : Nat) {e g : Int} (h : g ≤ e) : ratOf (m <<< (e - g).toNat, g) = ratOf (m, e) := by
  rw [ratOf_mk, ratOf_mk, Nat.shiftLeft_eq, Nat.cast_mul, Nat.cast_pow, mul_assoc, Nat.cast_ofNat, ← zpow_natCast,
    ← zpow_add₀ (by norm_num), Int.toNat_of_nonneg (by omega), sub_add_cancel]

/-- The comparison of two dyadic values is the order of the rationals. -/
theorem cmpDyadic_eq_cmp (m n : Nat) (e g : Int) : cmpDyadic m e n g = cmp (ratOf (m, e)) (ratOf (n, g)) := by
  rw [cmpDyadic]
  split
  case isTrue h => rw [← cmp_eq_compare, ← (ratOf_strictMono e).cmp_map_eq, ratOf_shiftLeft n h]
  case isFalse h => rw [← cmp_eq_compare, ← (ratOf_strictMono g).cmp_map_eq, ratOf_shiftLeft m (by omega)]

/-- A value is zero exactly where its significand is. -/
theorem ratOf_eq_zero (m : Nat) (e : Int) : ratOf (m, e) = 0 ↔ m = 0 := by
  rw [ratOf_mk, mul_eq_zero, Nat.cast_eq_zero, or_iff_left (zpow_ne_zero e (by norm_num))]

theorem ratOf_nonneg (m : Nat) (e : Int) : 0 ≤ ratOf (m, e) := by
  rw [ratOf_mk]
  positivity

theorem ratOf_pos {m : Nat} (h : m ≠ 0) (e : Int) : 0 < ratOf (m, e) := lt_of_le_of_ne (ratOf_nonneg m e) fun h0 => h ((ratOf_eq_zero m e).mp h0.symm)

/-! ### Exact sums (R186 to R188, R264) -/

/-- The value of a sum under way. -/
def sumValue (a : Int × Int) : ℚ := (a.1 : ℚ) * 2 ^ a.2

/-- An integer significand written with a lower exponent. -/
theorem sumValue_shift (v : Int) {e g : Int} (h : g ≤ e) : ((v * 2 ^ (e - g).toNat : Int) : ℚ) * 2 ^ g = v * 2 ^ e := by
  rw [Int.cast_mul, Int.cast_pow, mul_assoc, Int.cast_ofNat, ← zpow_natCast, ← zpow_add₀ (by norm_num), Int.toNat_of_nonneg (by omega),
    sub_add_cancel]

/-- A finite term adds its value. -/
theorem sumValue_addTerm (a : Int × Int) {x : Num} (hx : x.isFinite = true) : sumValue (addTerm a x) = sumValue a + x.rat := by
  cases x with
  | nan => cases hx
  | inf s => cases hx
  | fin s m e =>
    rw [addTerm]
    by_cases hm : m = 0
    · simp [hm, Num.rat, ratOf]
    · rw [if_neg hm]
      have hterm : (Num.fin s m e).rat = ((if s then -(m : Int) else m : Int) : ℚ) * 2 ^ e := by
        cases s <;> simp [Num.rat, ratOf]
      simp only [sumValue]
      rw [hterm, Int.cast_add, add_mul, sumValue_shift _ (min_le_left ..), sumValue_shift _ (min_le_right ..)]

/-- The sum of finite terms is exact (R188). -/
theorem sumValue_foldl (ts : List Num) (a : Int × Int) (h : ts.all Num.isFinite = true) :
    sumValue (ts.foldl addTerm a) = sumValue a + (ts.map Num.rat).sum := by
  induction ts generalizing a with
  | nil => simp
  | cons x ts ih =>
    rw [List.all_cons, Bool.and_eq_true] at h
    rw [List.foldl_cons, ih _ h.2, sumValue_addTerm a h.1, List.map_cons, List.sum_cons, add_assoc]

/-- A sum under way is zero exactly where its significand is. -/
theorem sumValue_eq_zero (a : Int × Int) : sumValue a = 0 ↔ a.1 = 0 := by
  rw [sumValue, mul_eq_zero, Int.cast_eq_zero, or_iff_left (zpow_ne_zero _ (by norm_num))]

/-- A sum under way, as a sign and a magnitude. -/
theorem sumValue_eq_rat (a : Int × Int) : sumValue a = (Num.fin (decide (a.1 < 0)) a.1.natAbs a.2).rat := by
  rw [sumValue, Num.rat, ratOf_mk, Nat.cast_natAbs]
  by_cases h : a.1 < 0
  · rw [abs_of_neg h]; simp [h]
  · rw [abs_of_nonneg (by omega)]; simp [h]

/-- The terms that are there. -/
theorem filterMap_map_some (ts : List Num) : (ts.map some).filterMap id = ts := by simp [List.filterMap_map]

/-- Finite terms hold no NaN and no infinity. -/
theorem any_eq_false_of_finite {ts : List Num} (h : ts.all Num.isFinite = true) {p : Num → Bool} (hp : ∀ s m e, p (.fin s m e) = false) :
    ts.any p = false := by
  rw [List.any_eq_false]
  intro x hx
  have hfin := List.all_eq_true.mp h x hx
  cases x with
  | nan => cases hfin
  | inf s => cases hfin
  | fin s m e => simp [hp]

/-- Where no term is a NaN, none is found. -/
theorem any_isNan_eq_false {ts : List Num} (h : Num.nan ∉ ts) : ts.any Num.isNan = false := by
  rw [List.any_eq_false]
  rintro x hx
  cases x with
  | nan => exact absurd hx h
  | inf s => simp [Num.isNan]
  | fin s m e => simp [Num.isNan]

/-- An infinity of a sign is found exactly where it stands among the terms. -/
theorem any_isInf (ts : List Num) (s : Bool) : ts.any (Num.isInf s) = decide (Num.inf s ∈ ts) := by
  rw [Bool.eq_iff_iff, List.any_eq_true, decide_eq_true_iff]
  constructor
  · rintro ⟨x, hx, hs⟩
    cases x with
    | nan => cases hs
    | inf t =>
      obtain rfl : t = s := by simpa [Num.isInf] using hs
      exact hx
    | fin t m e => cases hs
  · exact fun h => ⟨_, h, by simp [Num.isInf]⟩

/-- A sum of finite terms, in its three cases (R187, R188). -/
theorem accumulate_finite (f : Nat) (r : Rnd) (u : Nat) (scaled : Bool) {ts : List Num} (h : ts.all Num.isFinite = true) :
    accumulate f r u scaled false (ts.map some) =
      if ts.all Num.isNegZero then (zeroOf f true, none)
      else if (ts.foldl addTerm (0, 0)).1 = 0 then (zeroOf f (r.rm == 3 && !ts.all Num.isPosZero), none)
      else roundFin f r u scaled (decide ((ts.foldl addTerm (0, 0)).1 < 0)) (ts.foldl addTerm (0, 0)).1.natAbs (ts.foldl addTerm (0, 0)).2 := by
  have hsome : (ts.map some).any Option.isNone = false := by simp
  simp only [accumulate, filterMap_map_some, hsome, any_eq_false_of_finite h (p := Num.isNan) fun _ _ _ => rfl,
    any_eq_false_of_finite h (p := Num.isInf true) fun _ _ _ => rfl, any_eq_false_of_finite h (p := Num.isInf false) fun _ _ _ => rfl,
    Bool.or_false, Bool.and_false, Bool.false_eq_true, if_false]

/-- Negative zeros add up to zero. -/
theorem sum_negZeros {ts : List Num} (h : ts.all Num.isNegZero = true) : (ts.map Num.rat).sum = 0 := by
  refine List.sum_eq_zero fun q hq => ?_
  obtain ⟨x, hx, rfl⟩ := List.mem_map.mp hq
  have hzero := List.all_eq_true.mp h x hx
  cases x with
  | nan => rfl
  | inf s => rfl
  | fin s m e =>
    have hm : m = 0 := by simp only [Num.isNegZero, Bool.and_eq_true, beq_iff_eq] at hzero; exact hzero.2
    simp [hm, Num.rat, ratOf]

/-- Settles O32: the fold over the terms keeps their exact sum, and each special case is one test of accumulate. -/
theorem sumsAreExactAndRoundOnce : Obligations.SumsAreExactAndRoundOnce := by
  intro f r u scaled ts
  have hsome : (ts.map some).any Option.isNone = false := by simp
  have hval : ∀ h : ts.all Num.isFinite = true, sumValue (ts.foldl addTerm (0, 0)) = (ts.map Num.rat).sum := fun h => by
    rw [sumValue_foldl ts _ h, show sumValue (0, 0) = 0 by simp [sumValue], zero_add]
  refine ⟨fun hfin hsum => ?exact, fun hne hfin hsum => ?zero, fun hnan => ?nan, fun hnan hneg hpos => ?both, fun hnan => ?invalid,
    fun s hnan hinf hother => ?inf⟩
  case exact =>
    have hne : (ts.foldl addTerm (0, 0)).1 ≠ 0 := fun h0 => hsum (by rw [← hval hfin, (sumValue_eq_zero _).mpr h0])
    refine ⟨decide ((ts.foldl addTerm (0, 0)).1 < 0), (ts.foldl addTerm (0, 0)).1.natAbs, (ts.foldl addTerm (0, 0)).2,
      Int.natAbs_ne_zero.mpr hne, ?_, ?_⟩
    · rw [← sumValue_eq_rat, hval hfin]
    · rw [accumulate_finite f r u scaled hfin, if_neg (fun h => hsum (sum_negZeros h)), if_neg hne]
  case zero =>
    have h0 : (ts.foldl addTerm (0, 0)).1 = 0 := (sumValue_eq_zero _).mp (by rw [hval hfin, hsum])
    rw [accumulate_finite f r u scaled hfin, if_pos h0]
    by_cases hneg : ts.all Num.isNegZero = true
    · rw [if_pos hneg, if_pos hneg]
    · rw [if_neg hneg, if_neg hneg]
      cases ts.all Num.isPosZero <;> simp
  case nan =>
    have hany : ts.any Num.isNan = true := List.any_eq_true.mpr ⟨_, hnan, rfl⟩
    simp only [accumulate, filterMap_map_some, hany, Bool.or_true, if_true]
  case both =>
    simp only [accumulate, filterMap_map_some, hsome, any_isNan_eq_false hnan, any_isInf, hneg, hpos]
    rfl
  case invalid =>
    have hterms : (none :: ts.map some).filterMap id = ts := filterMap_map_some ts
    simp only [accumulate, hterms, any_isNan_eq_false hnan, List.any_cons, Option.isNone_none, Bool.true_or, Bool.or_false,
      Bool.false_eq_true, if_false, if_true]
  case inf =>
    cases s with
    | false =>
      have hnone : Num.inf true ∉ ts := hother
      simp only [accumulate, filterMap_map_some, hsome, any_isNan_eq_false hnan, any_isInf, hinf, decide_eq_false hnone]
      rfl
    | true =>
      have hnone : Num.inf false ∉ ts := hother
      simp only [accumulate, filterMap_map_some, hsome, any_isNan_eq_false hnan, any_isInf, hinf, decide_eq_false hnone]
      rfl

end Sys2Proof.Machine

/-! PROOFS of the family 'other': signs, minima, compares and selects of lanes (R260 to R264) -/

namespace Sys2Proof.Machine

/-! ### The order of decoded values (R260 to R264) -/

/-- The order of two finite values is the order of the rationals (R262). -/
theorem numCmp_fin (s t : Bool) (m n : Nat) (e g : Int) : numCmp (.fin s m e) (.fin t n g) = cmp (Num.fin s m e).rat (Num.fin t n g).rat := by
  simp only [numCmp, Num.rat]
  by_cases hm : m = 0
  · have hm0 := (ratOf_eq_zero m e).mpr hm
    by_cases hn : n = 0
    · have hn0 := (ratOf_eq_zero n g).mpr hn
      rw [if_pos ⟨hm, hn⟩, hm0, hn0, mul_zero, mul_zero, cmp_self_eq_eq]
    · have hpos := ratOf_pos hn g
      rw [if_neg (fun h => hn h.2), if_pos hm, hm0, mul_zero]
      cases t
      · exact ((cmp_eq_lt_iff _ _).mpr (by simpa using hpos)).symm
      · exact ((cmp_eq_gt_iff _ _).mpr (by simpa using hpos)).symm
  · have hpos := ratOf_pos hm e
    rw [if_neg (fun h => hm h.1), if_neg hm]
    by_cases hn : n = 0
    · rw [if_pos hn, (ratOf_eq_zero n g).mpr hn, mul_zero]
      cases s
      · exact ((cmp_eq_gt_iff _ _).mpr (by simpa using hpos)).symm
      · exact ((cmp_eq_lt_iff _ _).mpr (by simpa using hpos)).symm
    · have hpos' := ratOf_pos hn g
      rw [if_neg hn]
      cases s <;> cases t
      · simp [cmpDyadic_eq_cmp]
      · exact ((cmp_eq_gt_iff _ _).mpr (by simp only [Bool.false_eq_true, if_true, if_false]; linarith)).symm
      · exact ((cmp_eq_lt_iff _ _).mpr (by simp only [Bool.false_eq_true, if_true, if_false]; linarith)).symm
      · simp only [bne_self_eq_false, Bool.false_eq_true, if_false, if_true, cmpDyadic_eq_cmp, neg_mul, one_mul]
        exact (StrictAnti.cmp_map_eq (fun _ _ h => neg_lt_neg h) _ _).symm

/-- Conditions 0 to 5 of an order of rationals (R67, R262). -/
theorem orderHolds_cmp (p q : ℚ) :
    orderHolds 0 (cmp p q) = decide (p = q) ∧ orderHolds 1 (cmp p q) = decide (p ≠ q) ∧ orderHolds 2 (cmp p q) = decide (p < q)
    ∧ orderHolds 3 (cmp p q) = decide (p ≤ q) ∧ orderHolds 4 (cmp p q) = decide (q < p) ∧ orderHolds 5 (cmp p q) = decide (q ≤ p) := by
  rcases lt_trichotomy p q with h | h | h
  · rw [(cmp_eq_lt_iff p q).mpr h]
    simp [orderHolds, h, h.le, h.ne, not_lt.mpr h.le, not_le.mpr h]
  · rw [(cmp_eq_eq_iff p q).mpr h]
    simp [orderHolds, h]
  · rw [(cmp_eq_gt_iff p q).mpr h]
    simp [orderHolds, h, h.le, h.ne', not_lt.mpr h.le, not_le.mpr h]

/-- Outside the integer formats a lane compares decoded values; a NaN meets ≠ alone (R262). -/
theorem vcmpLane_float {f : Nat} (hf : inI f = false) (k x y : Nat) :
    vcmpLane f k x y = if (decodeElem f x).isNan || (decodeElem f y).isNan then k == 1 else orderHolds k (numCmp (decodeElem f x) (decodeElem f y)) := by
  simp only [vcmpLane, hf, Bool.false_eq_true, if_false]

theorem isNan_eq_false {x : Num} (h : x ≠ .nan) : x.isNan = false := by
  cases x with
  | nan => exact absurd rfl h
  | inf s => rfl
  | fin s m e => rfl

/-- An infinity against any other value (R262). -/
theorem numCmp_inf (s : Bool) {q : Num} (hq : q ≠ .nan) :
    numCmp (.inf s) q = (if q = .inf s then .eq else if s then .lt else .gt)
    ∧ numCmp q (.inf s) = (if q = .inf s then .eq else if s then .gt else .lt) := by
  cases q with
  | nan => exact absurd rfl hq
  | inf t => cases s <;> cases t <;> decide
  | fin t m e => cases s <;> exact ⟨rfl, rfl⟩

/-- The integer that a lane of an integer format stands for. -/
def laneSigned (f x : Nat) : ℤ := if x < 2 ^ (elemBits f - 1) then x else (x : ℤ) - 2 ^ elemBits f

theorem elemBits_pos (f : Nat) : 0 < elemBits f := by
  unfold elemBits
  split <;> decide

theorem toSigned_eq_laneSigned {f x : Nat} (hx : x < 2 ^ elemBits f) : toSigned (elemBits f) x = laneSigned f x := by
  have hbit : x.testBit (elemBits f - 1) = true ↔ ¬x < 2 ^ (elemBits f - 1) := by
    refine ⟨fun h => Nat.not_lt.mpr (Nat.ge_two_pow_of_testBit h), fun h => ?_⟩
    exact Nat.testBit_of_two_pow_le_and_two_pow_add_one_gt (Nat.not_lt.mp h) (by rwa [Nat.sub_add_cancel (elemBits_pos f)])
  rw [toSigned_of_lt hx, laneSigned]
  by_cases h : x < 2 ^ (elemBits f - 1)
  · rw [if_neg (fun hb => hbit.mp hb h), if_pos h]
  · rw [if_pos (hbit.mpr h), if_neg h]

/-! ### The sign bit (R260) -/

/-- Encodings of one magnitude decode to one magnitude, each with its own sign. -/
theorem decodeElem_sameMag {f x y : Nat} (hf : inI f = false) (hxy : y % 2 ^ (elemBits f - 1) = x % 2 ^ (elemBits f - 1)) :
    (∀ s m e, decodeElem f x = .fin s m e → (m ≠ 0 ∨ f < 13) → decodeElem f y = .fin (y.testBit (elemBits f - 1)) m e)
    ∧ ∀ s, decodeElem f x = .inf s → decodeElem f y = .inf (y.testBit (elemBits f - 1)) := by
  simp only [decodeElem, hxy, fmtIsInt, hf, Bool.false_eq_true, if_false, fmtIsSerif]
  by_cases hserif : 13 ≤ f
  · simp only [hserif, decide_true, if_true]
    split
    · refine ⟨fun s m e h hm => ?_, fun s h => ?_⟩
      · split at h
        · cases h
        · cases h
          omega
      · split at h <;> cases h
    · exact ⟨fun s m e h _ => (by cases h; rfl), fun s h => nomatch h⟩
  · simp only [hserif, decide_false, Bool.false_eq_true, if_false]
    split
    · split
      · exact ⟨fun s m e h _ => (nomatch h), fun s _ => rfl⟩
      · exact ⟨fun s m e h _ => (nomatch h), fun s h => nomatch h⟩
    · split
      · exact ⟨fun s m e h _ => (nomatch h), fun s h => nomatch h⟩
      · exact ⟨fun s m e h _ => (by cases h; rfl), fun s h => nomatch h⟩

/-- VNEG and VABS of an encoding that decodes to a value with a sign (R260). -/
theorem signOp_eq {f x : Nat} (hx : decodeElem f x ≠ .nan) (hm : ∀ s m e, decodeElem f x = .fin s m e → m ≠ 0 ∨ f < 13) (clear : Bool) :
    signOp f clear x = if clear then x % 2 ^ (elemBits f - 1) else x ^^^ 2 ^ (elemBits f - 1) := by
  rw [signOp]
  cases h : decodeElem f x with
  | nan => exact absurd h hx
  | inf s => rfl
  | fin s m e =>
    have hm' := hm s m e h
    simp only [fmtIsSerif, decide_eq_true_eq]
    rw [if_neg (by omega)]

/-- Flipping the sign bit keeps the magnitude. -/
theorem xor_sign (w x : Nat) : (x ^^^ 2 ^ w) % 2 ^ w = x % 2 ^ w ∧ (x ^^^ 2 ^ w).testBit w = !x.testBit w := by
  constructor
  · rw [Nat.xor_mod_two_pow, Nat.mod_self, Nat.xor_zero]
  · rw [Nat.testBit_xor, Nat.testBit_two_pow_self, Bool.xor_true]

/-- Clearing the sign bit keeps the magnitude. -/
theorem clear_sign (w x : Nat) : x % 2 ^ w % 2 ^ w = x % 2 ^ w ∧ (x % 2 ^ w).testBit w = false :=
  ⟨Nat.mod_mod _ _, Nat.testBit_lt_two_pow (Nat.mod_lt _ (Nat.two_pow_pos w))⟩

/-- VNEG flips the sign of a value and VABS clears it (R260). -/
theorem decodeElem_signOp {f x : Nat} (hf : inI f = false) (hx : decodeElem f x ≠ .nan) :
    (∀ m e s, decodeElem f x = .fin s m e → (m ≠ 0 ∨ f < 13) →
      decodeElem f (signOp f false x) = .fin (!s) m e ∧ decodeElem f (signOp f true x) = .fin false m e)
    ∧ ∀ s, decodeElem f x = .inf s → decodeElem f (signOp f false x) = .inf !s ∧ decodeElem f (signOp f true x) = .inf false := by
  obtain ⟨hflip, hflipSign⟩ := xor_sign (elemBits f - 1) x
  obtain ⟨hclear, hclearSign⟩ := clear_sign (elemBits f - 1) x
  refine ⟨fun m e s h hm => ?_, fun s h => ?_⟩
  · have hm' : ∀ s m e, decodeElem f x = .fin s m e → m ≠ 0 ∨ f < 13 := fun s' m' e' h' => by
      rw [h] at h'
      cases h'
      exact hm
    have hs : s = x.testBit (elemBits f - 1) := by
      have hself := (decodeElem_sameMag hf rfl).1 s m e h hm
      rw [h] at hself
      injection hself
    have hcleared := (decodeElem_sameMag hf hclear).1 s m e h hm
    rw [hclearSign] at hcleared
    rw [signOp_eq hx hm' false, signOp_eq hx hm' true, if_neg Bool.false_ne_true, if_pos rfl, hs, ← hflipSign]
    exact ⟨(decodeElem_sameMag hf hflip).1 s m e h hm, hcleared⟩
  · have hm' : ∀ s m e, decodeElem f x = .fin s m e → m ≠ 0 ∨ f < 13 := fun s' m' e' h' => by
      rw [h] at h'
      cases h'
    have hs : s = x.testBit (elemBits f - 1) := by
      have hself := (decodeElem_sameMag hf rfl).2 s h
      rw [h] at hself
      injection hself
    have hcleared := (decodeElem_sameMag hf hclear).2 s h
    rw [hclearSign] at hcleared
    rw [signOp_eq hx hm' false, signOp_eq hx hm' true, if_neg Bool.false_ne_true, if_pos rfl, hs, ← hflipSign]
    exact ⟨(decodeElem_sameMag hf hflip).2 s h, hcleared⟩

/-! ### Minimum and maximum (R261) -/

/-- Of two finite values, the one below by value, or minus zero before plus zero (R261). -/
theorem numLess_fin {s t : Bool} {m n : Nat} {e g : Int}
    (h : (Num.fin s m e).rat < (Num.fin t n g).rat ∨ (m = 0 ∧ n = 0 ∧ s = true ∧ t = false)) :
    numLess (.fin s m e) (.fin t n g) = true ∧ numLess (.fin t n g) (.fin s m e) = false := by
  rw [numLess, numLess]
  rcases h with h | ⟨rfl, rfl, rfl, rfl⟩
  · rw [numCmp_fin, numCmp_fin, (cmp_eq_lt_iff _ _).mpr h, (cmp_eq_gt_iff _ _).mpr h]
    exact ⟨rfl, rfl⟩
  · exact ⟨rfl, rfl⟩

/-- VMIN and VMAX of two numbers in order (R261). -/
theorem minMax_of_less {f x y : Nat} (hx : decodeElem f x ≠ .nan) (hy : decodeElem f y ≠ .nan)
    (h : numLess (decodeElem f x) (decodeElem f y) = true ∧ numLess (decodeElem f y) (decodeElem f x) = false) :
    minMax f false x y = x ∧ minMax f true x y = y ∧ minMax f false y x = x ∧ minMax f true y x = y := by
  simp [minMax, isNan_eq_false hx, isNan_eq_false hy, h.1, h.2]

/-! ### The instructions -/

/-- A reduction of a source with lanes folds from its first lane on (R264). -/
theorem extreme_lanes {n : Nat} (hn : 0 < n) (a : Nat → Nat) (g : Nat → Nat → Nat) :
    ∃ x r, (List.range n).map a = x :: r ∧ r.foldl g (g x x) = ((List.range (n - 1)).map fun i => a (i + 1)).foldl g (g (a 0) (a 0)) := by
  obtain ⟨k, rfl⟩ : ∃ k, n = k + 1 := ⟨n - 1, by omega⟩
  exact ⟨a 0, _, by rw [List.range_succ_eq_map, List.map_cons, List.map_map]; rfl, rfl⟩

/-- VMAXR and VMINR of a source with lanes (R264). -/
theorem vecExtreme_eq {cause : Option Nat} {o : LongVec} (h : 0 < o.aBits / o.w) (big : Bool) (s : State) :
    vecExtreme cause o big s = vector cause o 6 2 false false false false (plainTags o.aSpan o.fmt) (fun _ => o.fmt) (fun _ t =>
      .ok (packRounded o.w [(((List.range (o.aBits / o.w - 1)).map fun i => laneOf o.w (o.aVal t) (i + 1)).foldl (minMax o.fmt big)
        (minMax o.fmt big (laneOf o.w (o.aVal t) 0) (laneOf o.w (o.aVal t) 0)), none)])) s := by
  rw [vecExtreme]
  congr 1
  funext c t
  obtain ⟨x, r, hl, hfold⟩ := extreme_lanes h (fun i => laneOf o.w (o.aVal t) i) (minMax o.fmt big)
  simp only [hl, hfold]

/-- Settles O35: the instructions are the vector rule, and the lane operations follow the order of the decoded values. -/
theorem vectorPicksComplete : Obligations.VectorPicksComplete := by
  refine ⟨fun o => ⟨?_, ?_, ?_, ?_, ?_, ?_, ?_, fun hlanes big => ?extreme⟩, fun f x _ hf _ hx => ?sign, fun f x y k hf => ⟨fun h => ?unordered, fun s t m n e g hp hq => ?value⟩,
    fun f x y s hf hx hy => ?infinite, fun f x y hf hx hy => ?integer, fun f x h => ?nan, fun f x y _ => ⟨fun h big => ?minNan, fun s t m n e g hx hy h => ?min⟩⟩
  case refine_1 => exact vectorLands_of_exec (readsD := false) (readsB := false) fun _ => rfl
  case refine_2 => exact vectorLands_of_exec (readsD := false) (readsB := false) fun _ => rfl
  case refine_3 => exact vectorLands_of_exec (readsD := false) (readsB := true) fun _ => rfl
  case refine_4 => exact vectorLands_of_exec (readsD := false) (readsB := true) fun _ => rfl
  case refine_5 => exact vectorLands_of_exec (readsD := false) (readsB := true) fun _ => rfl
  case refine_6 => exact vectorLands_of_exec (readsD := false) (readsB := true) fun _ => rfl
  case refine_7 => exact vectorLands_of_exec (readsD := true) (readsB := true) fun _ => rfl
  case extreme =>
    cases big with
    | true => exact vectorLands_of_exec (readsD := false) (readsB := false) fun s => vecExtreme_eq hlanes true s
    | false => exact vectorLands_of_exec (readsD := false) (readsB := false) fun s => vecExtreme_eq hlanes false s
  case sign =>
    have hint : inI f = false := by simp only [inN, Bool.and_eq_true, Bool.not_eq_true'] at hf; exact hf.2
    exact decodeElem_signOp hint hx
  case unordered =>
    have hnan : ((decodeElem f x).isNan || (decodeElem f y).isNan) = true := by rcases h with h | h <;> simp [h, Num.isNan]
    rw [vcmpLane_float hf, if_pos hnan]
  case value =>
    simp only [vcmpLane_float hf, hp, hq, numCmp_fin, Num.isNan, Bool.or_self, Bool.false_eq_true, if_false]
    exact orderHolds_cmp _ _
  case infinite =>
    obtain ⟨hinf, hinf'⟩ := numCmp_inf s hy
    simp only [vcmpLane_float hf, hx, Num.isNan, Bool.or_self, Bool.false_eq_true, if_false, hinf, hinf']
    by_cases heq : decodeElem f y = .inf s
    · cases s <;> simp [heq, orderHolds]
    · cases s <;> simp [heq, orderHolds]
  case integer =>
    have hpx := toSigned_eq_laneSigned hx
    have hpy := toSigned_eq_laneSigned hy
    simp only [laneSigned] at hpx hpy
    simp only [vcmpLane, hf, if_true, condNumber, condHolds, hpx, hpy]
    simp [beq_eq_decide, bne]
  case nan => simp [signOp, h]
  case minNan =>
    have hnan : ((decodeElem f x).isNan || (decodeElem f y).isNan) = true := by rcases h with h | h <;> simp [h, Num.isNan]
    simp [minMax, hnan]
  case min =>
    exact minMax_of_less (by rw [hx]; exact Num.noConfusion) (by rw [hy]; exact Num.noConfusion) (by rw [hx, hy]; exact numLess_fin h)

end Sys2Proof.Machine

/-! PROOFS of the family 'other': the rounding function (R190 to R192) -/

namespace Sys2Proof.Machine

/-! ### Magnitudes of a format (R180 to R184, R190) -/

/-- A binary floating magnitude: below the first binade a plain count, then one more bit per binade (R181). -/
def binMag (frac bias code : Nat) : Nat × Int :=
  if code / 2 ^ frac = 0 then (code % 2 ^ frac, 1 - (bias : Int) - frac)
  else (2 ^ frac + code % 2 ^ frac, ((code / 2 ^ frac : Nat) : Int) - bias - frac)

theorem magValue_eq_binMag {f : Nat} (hint : fmtIsInt f = false) (hserif : fmtIsSerif f = false) (c : Nat) :
    magValue f c = binMag (fmtFrac f) (fmtBias f) c := by
  simp only [magValue, hint, hserif, Bool.false_eq_true, if_false, Nat.shiftRight_eq_div_pow, binMag]

/-- Binary floating magnitudes grow with their codes. -/
theorem binMag_lt_succ (frac bias c : Nat) : ratOf (binMag frac bias c) < ratOf (binMag frac bias (c + 1)) := by
  have hp := Nat.two_pow_pos frac
  by_cases hcarry : c % 2 ^ frac + 1 < 2 ^ frac
  · have hdiv : (c + 1) / 2 ^ frac = c / 2 ^ frac := by
      calc (c + 1) / 2 ^ frac = (c % 2 ^ frac + 1 + 2 ^ frac * (c / 2 ^ frac)) / 2 ^ frac := by
            rw [Nat.add_right_comm, Nat.mod_add_div]
        _ = c / 2 ^ frac := by rw [Nat.add_mul_div_left _ _ hp, Nat.div_eq_of_lt hcarry, Nat.zero_add]
    have hmod : (c + 1) % 2 ^ frac = c % 2 ^ frac + 1 := by
      rw [Nat.add_mod, Nat.mod_eq_of_lt (show 1 < 2 ^ frac by omega), Nat.mod_eq_of_lt hcarry]
    rw [binMag, binMag, hdiv, hmod]
    split
    · exact ratOf_strictMono _ (by omega)
    · exact ratOf_strictMono _ (by omega)
  · have hlast : c % 2 ^ frac + 1 = 2 ^ frac := by have := Nat.mod_lt c hp; omega
    have hc : c + 1 = 2 ^ frac * (c / 2 ^ frac + 1) := by
      have := Nat.div_add_mod c (2 ^ frac)
      rw [Nat.mul_succ]
      omega
    have hdiv : (c + 1) / 2 ^ frac = c / 2 ^ frac + 1 := by rw [hc, Nat.mul_div_cancel_left _ hp]
    have hmod : (c + 1) % 2 ^ frac = 0 := by rw [hc, Nat.mul_mod_right]
    rw [binMag, binMag, hdiv, hmod, if_neg (Nat.succ_ne_zero _), Nat.add_zero]
    split
    case isTrue h0 =>
      rw [h0]
      refine lt_of_lt_of_eq (ratOf_strictMono _ (show c % 2 ^ frac < 2 ^ frac by omega)) ?_
      simp
    case isFalse h0 =>
      have hexp : ((c / 2 ^ frac : Nat) : Int) - bias - frac ≤ ((c / 2 ^ frac + 1 : Nat) : Int) - bias - frac := by omega
      rw [← ratOf_shiftLeft (2 ^ frac) hexp]
      refine ratOf_strictMono _ ?_
      have hone : (((c / 2 ^ frac + 1 : Nat) : Int) - bias - frac - (((c / 2 ^ frac : Nat) : Int) - bias - frac)).toNat = 1 := by omega
      rw [hone, Nat.shiftLeft_eq]
      omega

/-- A comparison that answers less says less. -/
theorem ratOf_lt_of_cmp {p q : Nat × Int} (h : cmpDyadic p.1 p.2 q.1 q.2 = .lt) : ratOf p < ratOf q := by
  rw [cmpDyadic_eq_cmp, cmp_eq_lt_iff] at h
  exact h

/-- The magnitudes of a Serif format grow with their codes (R183). -/
theorem serif_lt_succ : (∀ c < 0x7F, cmpDyadic (magValue 13 c).1 (magValue 13 c).2 (magValue 13 (c + 1)).1 (magValue 13 (c + 1)).2 = .lt)
    ∧ (∀ c < 0x1F, cmpDyadic (magValue 14 c).1 (magValue 14 c).2 (magValue 14 (c + 1)).1 (magValue 14 (c + 1)).2 = .lt)
    ∧ ∀ c < 0x7, cmpDyadic (magValue 15 c).1 (magValue 15 c).2 (magValue 15 (c + 1)).1 (magValue 15 (c + 1)).2 = .lt := by
  decide +kernel

/-- Up to Max, the magnitudes of a format grow with their codes (R190). -/
theorem magValue_lt_succ {f c : Nat} (hf : f ≤ 15) (neg : Bool) (hc : c < maxCode f neg) : ratOf (magValue f c) < ratOf (magValue f (c + 1)) := by
  by_cases hint : fmtIsInt f = true
  · simp only [magValue, hint, if_true]
    exact ratOf_strictMono 0 (Nat.lt_succ_self c)
  · rw [Bool.not_eq_true] at hint
    by_cases hserif : 13 ≤ f
    · obtain ⟨h13, h14, h15⟩ := serif_lt_succ
      have hcases : f = 13 ∨ f = 14 ∨ f = 15 := by omega
      rcases hcases with rfl | rfl | rfl
      · exact ratOf_lt_of_cmp (h13 c hc)
      · exact ratOf_lt_of_cmp (h14 c hc)
      · exact ratOf_lt_of_cmp (h15 c hc)
    · have hs : fmtIsSerif f = false := by simp [fmtIsSerif]; omega
      rw [magValue_eq_binMag hint hs, magValue_eq_binMag hint hs]
      exact binMag_lt_succ _ _ c

/-- Max lies below N (R190). -/
theorem magValue_maxCode_lt {f : Nat} (hf : f ≤ 15) (neg : Bool) : ratOf (magValue f (maxCode f neg)) < ratOf (beyondMax f neg) := by
  have hall : ∀ f ≤ 15, ∀ neg : Bool, cmpDyadic (magValue f (maxCode f neg)).1 (magValue f (maxCode f neg)).2 (beyondMax f neg).1 (beyondMax f neg).2 = .lt := by
    decide +kernel
  exact ratOf_lt_of_cmp (hall f hf neg)

/-- The least normal magnitude of a format that is no integer format lies below N (R190). -/
theorem minNorm_lt_beyondMax {f : Nat} (hf : f ≤ 15) (neg : Bool) (hint : fmtIsInt f = false) :
    ratOf (1, minNormExp f) < ratOf (beyondMax f neg) := by
  have hall : ∀ f ≤ 15, ∀ neg : Bool, fmtIsInt f = false → cmpDyadic 1 (minNormExp f) (beyondMax f neg).1 (beyondMax f neg).2 = .lt := by
    decide +kernel
  exact ratOf_lt_of_cmp (hall f hf neg hint)

/-- Code 0 is zero. -/
theorem magValue_zero {f : Nat} (hf : f ≤ 15) : ratOf (magValue f 0) = 0 := by
  have hall : ∀ f ≤ 15, (magValue f 0).1 = 0 := by decide +kernel
  exact (ratOf_eq_zero _ _).mpr (hall f hf)

/-- Max has its code among the encodings. -/
theorem maxCode_lt {f : Nat} (hf : f ≤ 15) (neg : Bool) : maxCode f neg < 2 ^ elemBits f := by
  have hall : ∀ f ≤ 15, ∀ neg : Bool, maxCode f neg < 2 ^ elemBits f := by decide +kernel
  exact hall f hf neg

/-- Up to Max, a greater code has a greater magnitude. -/
theorem magValue_mono {f c d : Nat} (hf : f ≤ 15) (neg : Bool) (hcd : c ≤ d) (hd : d ≤ maxCode f neg) :
    ratOf (magValue f c) ≤ ratOf (magValue f d) := by
  induction d, hcd using Nat.le_induction with
  | base => exact le_rfl
  | succ d hcd ih => exact (ih (by omega)).trans (magValue_lt_succ hf neg (by omega)).le

/-! ### The rounding function (R191, R192) -/

/-- An oracle that knows a real magnitude: it compares it with every dyadic value. -/
def Oracle.Knows (o : Oracle) (x : ℝ) : Prop := ∀ m e, o m e = cmp x (ratOf (m, e) : ℚ)

theorem Oracle.Knows.lt_iff {o : Oracle} {x : ℝ} (h : o.Knows x) (p : Nat × Int) : o p.1 p.2 = .lt ↔ x < (ratOf p : ℚ) := by
  rw [h, cmp_eq_lt_iff]

theorem Oracle.Knows.eq_iff {o : Oracle} {x : ℝ} (h : o.Knows x) (p : Nat × Int) : o p.1 p.2 = .eq ↔ x = (ratOf p : ℚ) := by
  rw [h, cmp_eq_eq_iff]

/-- The code that the search by bits finds is the largest whose magnitude is at most x (R191). -/
theorem floorCode_spec {f top : Nat} {o : Oracle} {x : ℝ} (hk : o.Knows x)
    (hmono : ∀ c d, c ≤ d → d ≤ top → ratOf (magValue f c) ≤ ratOf (magValue f d)) (n c : Nat) (hc : c ≤ top)
    (hlo : (ratOf (magValue f c) : ℚ) ≤ x) (hhi : ∀ d, c + 2 ^ n ≤ d → d ≤ top → x < (ratOf (magValue f d) : ℚ)) :
    floorCode f top o n c ≤ top ∧ (ratOf (magValue f (floorCode f top o n c)) : ℚ) ≤ x
      ∧ ∀ d, floorCode f top o n c < d → d ≤ top → x < (ratOf (magValue f d) : ℚ) := by
  induction n generalizing c with
  | zero => exact ⟨hc, hlo, fun d h => hhi d (by rw [pow_zero]; exact h)⟩
  | succ n ih =>
    rw [floorCode]
    split
    case isTrue h =>
      refine ih _ h.1 (not_lt.mp fun hlt => h.2 ((hk.lt_iff _).mpr hlt)) fun d hd => hhi d ?_
      rw [pow_succ]
      omega
    case isFalse h =>
      refine ih _ hc hlo fun d hd htop => ?_
      have hlt : x < (ratOf (magValue f (c + 2 ^ n)) : ℚ) := by
        refine (hk.lt_iff _).mp (by_contra fun hne => h ⟨by omega, hne⟩)
      exact hlt.trans_le (by exact_mod_cast hmono _ _ hd htop)

/-- A point between two values (R191). -/
theorem ratOf_between {lo hi : Nat × Int} (h : ratOf lo ≤ ratOf hi) (k s : Nat) :
    ratOf (between lo hi k s) = ratOf lo + k * (ratOf hi - ratOf lo) / 2 ^ s := by
  have hlo := ratOf_shiftLeft lo.1 (min_le_left lo.2 hi.2)
  have hhi := ratOf_shiftLeft hi.1 (min_le_right lo.2 hi.2)
  have hle : lo.1 <<< (lo.2 - min lo.2 hi.2).toNat ≤ hi.1 <<< (hi.2 - min lo.2 hi.2).toNat := by
    refine (ratOf_strictMono (min lo.2 hi.2)).le_iff_le.mp ?_
    simp only [hlo, hhi]
    exact h
  rw [between, ← hlo, ← hhi]
  simp only [ratOf_mk, Nat.cast_add, Nat.cast_mul, Nat.cast_pow, Nat.cast_ofNat, Nat.cast_sub hle]
  rw [zpow_sub₀ (by norm_num), zpow_natCast]
  field_simp

/-- Whether a magnitude between lo and hi goes up (R191). -/
def upRule (rm u : Nat) (neg : Bool) (tie : Prop) (lo hi a : ℝ) : Prop :=
  match rm with
  | 0 => hi - a < a - lo ∨ hi - a = a - lo ∧ tie
  | 1 => False
  | 2 => neg = false
  | 3 => neg = true
  | 4 => hi - a ≤ a - lo
  | _ => (u : ℤ) < ⌊2 ^ 32 * (a - lo) / (hi - lo)⌋

/-- The comparisons with the midpoint and with the draw's threshold decide each mode (R191). -/
theorem goesUp_iff {rm u : Nat} (hrm : rm ≤ 5) (neg tie : Bool) {lo hi a : ℝ} (h : lo < hi) :
    goesUp rm neg (cmp a (lo + 1 * (hi - lo) / 2 ^ 1)) tie (cmp a (lo + (u + 1 : ℕ) * (hi - lo) / 2 ^ 32) != .lt) = true
      ↔ upRule rm u neg (tie = true) lo hi a := by
  interval_cases rm
  · -- to nearest, ties to even
    rcases lt_trichotomy a (lo + 1 * (hi - lo) / 2 ^ 1) with hm | hm | hm
    · simp only [goesUp, upRule, (cmp_eq_lt_iff _ _).mpr hm, Bool.false_eq_true, false_iff, not_or, not_and]
      exact ⟨by linarith, fun _ => by linarith⟩
    · simp only [goesUp, upRule, (cmp_eq_eq_iff _ _).mpr hm]
      exact ⟨fun ht => .inr ⟨by linarith, ht⟩, fun ht => ht.elim (fun hlt => by linarith) And.right⟩
    · simp only [goesUp, upRule, (cmp_eq_gt_iff _ _).mpr hm, true_iff]
      exact .inl (by linarith)
  · -- towards zero
    simp [goesUp, upRule]
  · -- up
    simp [goesUp, upRule]
  · -- down
    simp [goesUp, upRule]
  · -- to nearest, ties away from zero
    simp only [goesUp, upRule, bne_iff_ne, ne_eq, cmp_eq_lt_iff, not_lt]
    constructor <;> intro _ <;> linarith
  · -- by the draw
    simp only [goesUp, upRule, bne_iff_ne, ne_eq, cmp_eq_lt_iff, not_lt]
    rw [← Int.add_one_le_iff, Int.le_floor, le_div_iff₀ (by linarith)]
    push_cast
    constructor <;> intro _ <;> linarith

/-- Beyond the last magnitude the value stands for N (R191). -/
theorem goesUp_top_iff {rm u : Nat} (hrm : rm ≤ 5) (hu : u < 2 ^ 32) (neg : Bool) {lo hi : ℝ} (h : lo < hi) (tie : Prop) (htie : tie) :
    goesUp rm neg .gt true true = true ↔ upRule rm u neg tie lo hi hi := by
  have hu' : ((u + 1 : ℕ) : ℝ) ≤ 2 ^ 32 := by exact_mod_cast hu
  have hmid : cmp hi (lo + 1 * (hi - lo) / 2 ^ 1) = .gt := (cmp_eq_gt_iff _ _).mpr (by linarith)
  have hthr : (cmp hi (lo + (u + 1 : ℕ) * (hi - lo) / 2 ^ 32) != .lt) = true := by
    rw [bne_iff_ne, ne_eq, cmp_eq_lt_iff, not_lt, ← le_sub_iff_add_le', div_le_iff₀ (by norm_num)]
    nlinarith
  have hiff := goesUp_iff (u := u) hrm neg true (a := hi) h
  rw [hmid, hthr] at hiff
  rw [hiff, show tie = (true = true) from propext ⟨fun _ => rfl, fun _ => htie⟩]

/-- Below the smallest normal magnitude of a format that is no integer format (R192). -/
def Tiny (f : Nat) (a : ℝ) : Prop := fmtIsInt f = false ∧ a < (2 : ℝ) ^ minNormExp f

/-- What rounding to a neighbour of code c asks, with the next magnitude named. -/
theorem roundsTo_of {f : Nat} {r : Rnd} {u : Nat} {scaled neg : Bool} {x hi : ℝ} {out : Rounded} {c : Nat} (hc : c ≤ maxCode f neg)
    (hhi : hi = if c = maxCode f neg then ((ratOf (beyondMax f neg) : ℚ) : ℝ) else (ratOf (magValue f (c + 1)) : ℚ))
    (hlo : (ratOf (magValue f c) : ℚ) ≤ min x (ratOf (beyondMax f neg) : ℚ)) (hle : min x (ratOf (beyondMax f neg) : ℚ) ≤ hi)
    (htop : min x (ratOf (beyondMax f neg) : ℚ) = hi → c = maxCode f neg)
    (hexact : (ratOf (magValue f c) : ℚ) = min x (ratOf (beyondMax f neg) : ℚ) → out = (encodeMag f neg c, none))
    (hover : (ratOf (magValue f c) : ℚ) ≠ min x (ratOf (beyondMax f neg) : ℚ) →
      upRule r.rm u neg (c = maxCode f neg ∨ c % 2 = 1) (ratOf (magValue f c) : ℚ) hi (min x (ratOf (beyondMax f neg) : ℚ)) →
      c = maxCode f neg → out = overflowOf f neg r.sat scaled)
    (hnext : (ratOf (magValue f c) : ℚ) ≠ min x (ratOf (beyondMax f neg) : ℚ) → ∀ n,
      (upRule r.rm u neg (c = maxCode f neg ∨ c % 2 = 1) (ratOf (magValue f c) : ℚ) hi (min x (ratOf (beyondMax f neg) : ℚ))
          ∧ c ≠ maxCode f neg ∧ n = c + 1
        ∨ ¬upRule r.rm u neg (c = maxCode f neg ∨ c % 2 = 1) (ratOf (magValue f c) : ℚ) hi (min x (ratOf (beyondMax f neg) : ℚ)) ∧ n = c) →
      (Tiny f (min x (ratOf (beyondMax f neg) : ℚ)) → out = (encodeMag f neg n, some 2))
        ∧ (¬Tiny f (min x (ratOf (beyondMax f neg) : ℚ)) → out = (encodeMag f neg n, none))) :
    RoundsTo f r u scaled neg x out := by
  subst hhi
  exact ⟨c, hc, hlo, hle, htop, hexact, hover, hnext⟩

/-- A magnitude beyond the last one goes to Max or overflows (R192). -/
theorem roundMag_beyond {f : Nat} {r : Rnd} {u : Nat} {scaled neg : Bool} {o : Oracle} {x : ℝ} (hf : f ≤ 15) (hrm : r.rm ≤ 5)
    (hu : u < 2 ^ 32) (hk : o.Knows x) (hge : ((ratOf (beyondMax f neg) : ℚ) : ℝ) ≤ x) :
    RoundsTo f r u scaled neg x (roundMag f r u scaled neg o) := by
  have htop : ((ratOf (magValue f (maxCode f neg)) : ℚ) : ℝ) < (ratOf (beyondMax f neg) : ℚ) := by
    exact_mod_cast magValue_maxCode_lt hf neg
  have hup := goesUp_top_iff (u := u) hrm hu neg htop (maxCode f neg = maxCode f neg ∨ maxCode f neg % 2 = 1) (.inl rfl)
  have hnormal : ¬Tiny f (ratOf (beyondMax f neg) : ℚ) := by
    rintro ⟨hint, hlt⟩
    have hnorm : ((ratOf (1, minNormExp f) : ℚ) : ℝ) < (ratOf (beyondMax f neg) : ℚ) := by exact_mod_cast minNorm_lt_beyondMax hf neg hint
    rw [ratOf_mk] at hnorm
    push_cast at hnorm
    linarith
  have hout : roundMag f r u scaled neg o
      = if goesUp r.rm neg .gt true true then overflowOf f neg r.sat scaled else (encodeMag f neg (maxCode f neg), none) :=
    if_pos fun h => absurd ((hk.lt_iff _).mp h) (not_lt.mpr hge)
  have hmin := min_eq_right hge
  refine roundsTo_of le_rfl (if_pos rfl).symm ?_ ?_ ?_ ?_ ?_ ?_
  · rw [hmin]; exact htop.le
  · exact hmin.le
  · exact fun _ => rfl
  · rw [hmin]; exact fun h => absurd h htop.ne
  · rw [hmin, hout]; exact fun _ hmode _ => if_pos (hup.mpr hmode)
  · rw [hmin, hout]
    rintro - n (⟨-, hne, -⟩ | ⟨hdown, rfl⟩)
    · exact absurd rfl hne
    · rw [if_neg fun h => hdown (hup.mp h)]
      exact ⟨fun h => absurd h hnormal, fun _ => rfl⟩

/-- The magnitude behind code c, with N behind Max (R191). -/
def magAfter (f : Nat) (neg : Bool) (c : Nat) : Nat × Int := if c = maxCode f neg then beyondMax f neg else magValue f (c + 1)

/-- Whether the magnitude that an oracle knows goes up from code c (R191). -/
def goesUpFrom (f : Nat) (r : Rnd) (u : Nat) (neg : Bool) (o : Oracle) (c : Nat) : Bool :=
  goesUp r.rm neg (o (between (magValue f c) (magAfter f neg c) 1 1).1 (between (magValue f c) (magAfter f neg c) 1 1).2)
    (c == maxCode f neg || c % 2 == 1)
    (o (between (magValue f c) (magAfter f neg c) (u + 1) 32).1 (between (magValue f c) (magAfter f neg c) (u + 1) 32).2 != .lt)

/-- The rounding function below N, from the code that the search finds (R191, R192). -/
theorem roundMag_eq {f : Nat} {r : Rnd} {u : Nat} {scaled neg : Bool} {o : Oracle} {c : Nat}
    (h : o (beyondMax f neg).1 (beyondMax f neg).2 = .lt) (hc : floorCode f (maxCode f neg) o (elemBits f) 0 = c) :
    roundMag f r u scaled neg o =
      if o (magValue f c).1 (magValue f c).2 = .eq then (encodeMag f neg c, none)
      else if goesUpFrom f r u neg o c && c == maxCode f neg then overflowOf f neg r.sat scaled
      else (encodeMag f neg (if goesUpFrom f r u neg o c then c + 1 else c),
        if !fmtIsInt f && o 1 (minNormExp f) == .lt then some 2 else none) := by
  subst hc
  exact if_neg (by rw [h]; decide)

/-- The model's test for going up is the rule of the mode (R191). -/
theorem goesUpFrom_iff {f : Nat} {r : Rnd} {u : Nat} {neg : Bool} {o : Oracle} {x : ℝ} {c : Nat} (hrm : r.rm ≤ 5) (hk : o.Knows x)
    (h : ratOf (magValue f c) < ratOf (magAfter f neg c)) :
    goesUpFrom f r u neg o c = true
      ↔ upRule r.rm u neg (c = maxCode f neg ∨ c % 2 = 1) (ratOf (magValue f c) : ℚ) (ratOf (magAfter f neg c) : ℚ) x := by
  have htie : (c = maxCode f neg ∨ c % 2 = 1) = ((c == maxCode f neg || c % 2 == 1) = true) := by simp
  have hat : ∀ k s, o (between (magValue f c) (magAfter f neg c) k s).1 (between (magValue f c) (magAfter f neg c) k s).2
      = cmp x (((ratOf (magValue f c) : ℚ) : ℝ) + k * ((ratOf (magAfter f neg c) : ℚ) - (ratOf (magValue f c) : ℚ)) / 2 ^ s) := by
    intro k s
    rw [hk]
    congr 1
    exact_mod_cast congrArg (fun q : ℚ => (q : ℝ)) (ratOf_between h.le k s)
  rw [goesUpFrom, hat, hat, htie, Nat.cast_one]
  exact goesUp_iff hrm neg _ (by exact_mod_cast h)

/-- A magnitude below N goes to one of its two neighbours (R191, R192). -/
theorem roundMag_inside {f : Nat} {r : Rnd} {u : Nat} {scaled neg : Bool} {o : Oracle} {x : ℝ} (hf : f ≤ 15) (hrm : r.rm ≤ 5)
    (hx : 0 < x) (hk : o.Knows x) (hlt : x < (ratOf (beyondMax f neg) : ℚ)) :
    RoundsTo f r u scaled neg x (roundMag f r u scaled neg o) := by
  obtain ⟨hc, hlo, hnext⟩ := floorCode_spec hk (fun c d => magValue_mono hf neg (c := c) (d := d)) (elemBits f) 0 (Nat.zero_le _)
    (by rw [magValue_zero hf, Rat.cast_zero]; exact hx.le) fun d hd htop => absurd (maxCode_lt hf neg) (by omega)
  have hout := roundMag_eq (r := r) (u := u) (scaled := scaled) ((hk.lt_iff _).mpr hlt) rfl
  generalize floorCode f (maxCode f neg) o (elemBits f) 0 = c at hc hlo hnext hout
  have hmin := min_eq_left hlt.le
  have hhi : x < ((ratOf (magAfter f neg c) : ℚ) : ℝ) := by
    rw [magAfter]
    split
    · exact hlt
    · exact hnext _ (Nat.lt_succ_self c) (by omega)
  have hup := goesUpFrom_iff (u := u) (neg := neg) hrm hk (by exact_mod_cast hlo.trans_lt hhi)
  have htiny : (!fmtIsInt f && o 1 (minNormExp f) == .lt) = true ↔ Tiny f x := by
    rw [Bool.and_eq_true, Bool.not_eq_true', beq_iff_eq, hk, cmp_eq_lt_iff, ratOf_mk, Tiny]
    push_cast
    rw [one_mul]
  have hexact : o (magValue f c).1 (magValue f c).2 = .eq ↔ ((ratOf (magValue f c) : ℚ) : ℝ) = x := (hk.eq_iff _).trans eq_comm
  refine roundsTo_of (hi := (ratOf (magAfter f neg c) : ℚ)) hc (by rw [magAfter]; split <;> rfl) ?_ ?_ ?_ ?_ ?_ ?_
  · rw [hmin]; exact hlo
  · rw [hmin]; exact hhi.le
  · rw [hmin]; exact fun h => absurd h hhi.ne
  · rw [hmin, hout]; exact fun h => if_pos (hexact.mpr h)
  · rw [hmin, hout]
    intro hne hmode htop
    rw [if_neg fun h => hne (hexact.mp h), hup.mpr hmode, htop, beq_self_eq_true, Bool.and_self, if_pos rfl]
  · rw [hmin, hout]
    intro hne n hn
    have hshape : (goesUpFrom f r u neg o c && c == maxCode f neg) = false ∧ (if goesUpFrom f r u neg o c then c + 1 else c) = n := by
      rcases hn with ⟨hmode, htop, rfl⟩ | ⟨hmode, rfl⟩
      · simp [hup.mpr hmode, htop]
      · simp [Bool.eq_false_iff.mpr fun h => hmode (hup.mp h)]
    rw [if_neg fun h => hne (hexact.mp h), if_neg (Bool.eq_false_iff.mp hshape.1), hshape.2]
    exact ⟨fun h => by rw [if_pos (htiny.mpr h)], fun h => by rw [if_neg fun h' => h (htiny.mp h')]⟩

/-- A magnitude that an oracle knows rounds to the neighbour that its mode names (R191, R192). -/
theorem roundMag_roundsTo {f : Nat} {r : Rnd} {u : Nat} {scaled neg : Bool} {o : Oracle} {x : ℝ} (hf : f ≤ 15) (hrm : r.rm ≤ 5)
    (hu : u < 2 ^ 32) (hx : 0 < x) (hk : o.Knows x) : RoundsTo f r u scaled neg x (roundMag f r u scaled neg o) := by
  rcases lt_or_ge x ((ratOf (beyondMax f neg) : ℚ) : ℝ) with h | h
  · exact roundMag_inside hf hrm hx hk h
  · exact roundMag_beyond hf hrm hu hk h

/-- The comparison of dyadic values knows its value. -/
theorem cmpDyadic_knows (m : Nat) (e : Int) : Oracle.Knows (fun n g => cmpDyadic m e n g) (ratOf (m, e) : ℚ) := fun n g =>
  (cmpDyadic_eq_cmp m n e g).trans (Rat.cast_strictMono.cmp_map_eq _ _).symm

/-- Settles O31: the search by bits finds the neighbour below, and the comparisons with midpoint and threshold decide the mode. -/
theorem roundingFollowsTheMode : Obligations.RoundingFollowsTheMode := by
  intro f r u scaled neg m e hf hrm hu hm
  rw [roundFin, if_neg hm]
  exact roundMag_roundsTo hf hrm hu (by exact_mod_cast ratOf_pos hm e) (cmpDyadic_knows m e)

end Sys2Proof.Machine

/-! PROOFS of the family 'other': correctly rounded functions and conversions (R194 to R196, R265) -/

namespace Sys2Proof.Machine

/-! ### Reciprocals and roots (R265) -/

theorem ratOf_mul (m n : Nat) (e g : Int) : ratOf (m * n, e + g) = ratOf (m, e) * ratOf (n, g) := by
  rw [ratOf_mk, ratOf_mk, ratOf_mk, zpow_add₀ (by norm_num)]
  push_cast
  ring

/-- The comparison of dyadic values, among the reals. -/
theorem cmpDyadic_eq_cmp_real (m n : Nat) (e g : Int) : cmpDyadic m e n g = cmp ((ratOf (m, e) : ℚ) : ℝ) (ratOf (n, g) : ℚ) :=
  cmpDyadic_knows m e n g

theorem ratOf_one : ratOf (1, 0) = 1 := by norm_num [ratOf]

/-- The oracle of 1/A knows it. -/
theorem rcp_knows {m : Nat} (hm : m ≠ 0) (e : Int) : Oracle.Knows (fun n g => cmpDyadic 1 0 (n * m) (g + e)) (1 / ((ratOf (m, e) : ℚ) : ℝ)) := by
  have ha : (0 : ℝ) < (ratOf (m, e) : ℚ) := by exact_mod_cast ratOf_pos hm e
  intro n g
  change cmpDyadic 1 0 (n * m) (g + e) = _
  rw [cmpDyadic_eq_cmp_real, ratOf_mul, ← cmp_mul_pos_right ha (1 / _), one_div_mul_cancel ha.ne', ratOf_one]
  push_cast
  rfl

/-- Nonnegative numbers are in the order of their squares. -/
theorem cmp_sq {x y : ℝ} (hx : 0 ≤ x) (hy : 0 ≤ y) : cmp (x ^ 2) (y ^ 2) = cmp x y :=
  (pow_left_strictMonoOn₀ two_ne_zero).cmp_map_eq hx hy

/-- The oracle of √A knows it. -/
theorem sqrt_knows (m : Nat) (e : Int) : Oracle.Knows (fun n g => cmpDyadic m e (n * n) (2 * g)) √((ratOf (m, e) : ℚ) : ℝ) := by
  intro n g
  change cmpDyadic m e (n * n) (2 * g) = _
  rw [← cmp_sq (Real.sqrt_nonneg _) (by exact_mod_cast ratOf_nonneg n g), Real.sq_sqrt (by exact_mod_cast ratOf_nonneg m e),
    cmpDyadic_eq_cmp_real, two_mul, ratOf_mul, sq]
  push_cast
  rfl

/-- The oracle of 1/√A knows it. -/
theorem rsq_knows {m : Nat} (hm : m ≠ 0) (e : Int) :
    Oracle.Knows (fun n g => cmpDyadic 1 0 (n * n * m) (2 * g + e)) (1 / √((ratOf (m, e) : ℚ) : ℝ)) := by
  have ha : (0 : ℝ) < (ratOf (m, e) : ℚ) := by exact_mod_cast ratOf_pos hm e
  intro n g
  change cmpDyadic 1 0 (n * n * m) (2 * g + e) = _
  rw [← cmp_sq (by positivity) (by exact_mod_cast ratOf_nonneg n g), div_pow, Real.sq_sqrt ha.le, one_pow,
    ← cmp_mul_pos_right ha (1 / _), one_div_mul_cancel ha.ne', cmpDyadic_eq_cmp_real, two_mul, ratOf_mul, ratOf_mul, ratOf_one, sq]
  push_cast
  rfl

/-! ### Rounding asks few questions -/

/-- The search never passes the last magnitude. -/
theorem floorCode_le {f top : Nat} (o : Oracle) (n : Nat) {c : Nat} (hc : c ≤ top) : floorCode f top o n c ≤ top := by
  induction n generalizing c with
  | zero => exact hc
  | succ n ih =>
    rw [floorCode]
    split
    case isTrue h => exact ih h.1
    case isFalse h => exact ih hc

/-- The search asks for magnitudes up to the last one alone. -/
theorem floorCode_congr {f top : Nat} {o o' : Oracle} (h : ∀ c ≤ top, o (magValue f c).1 (magValue f c).2 = o' (magValue f c).1 (magValue f c).2)
    (n c : Nat) : floorCode f top o n c = floorCode f top o' n c := by
  induction n generalizing c with
  | zero => rfl
  | succ n ih =>
    have hand : (c + 2 ^ n ≤ top ∧ o (magValue f (c + 2 ^ n)).1 (magValue f (c + 2 ^ n)).2 ≠ .lt)
        ↔ (c + 2 ^ n ≤ top ∧ o' (magValue f (c + 2 ^ n)).1 (magValue f (c + 2 ^ n)).2 ≠ .lt) :=
      and_congr_right fun hle => by rw [h _ hle]
    simp only [floorCode, hand, ih]

/-- The values that the rounding function compares a magnitude with (R191). -/
def Asked (f : Nat) (u : Nat) (neg : Bool) (p : Nat × Int) : Prop :=
  p = beyondMax f neg ∨ p = (1, minNormExp f) ∨ (∃ c ≤ maxCode f neg, p = magValue f c)
  ∨ ∃ c ≤ maxCode f neg, p = between (magValue f c) (magAfter f neg c) 1 1 ∨ p = between (magValue f c) (magAfter f neg c) (u + 1) 32

/-- Oracles that agree on what is asked round alike. -/
theorem roundMag_congr {f : Nat} {r : Rnd} {u : Nat} {scaled neg : Bool} {o o' : Oracle}
    (h : ∀ p, Asked f u neg p → o p.1 p.2 = o' p.1 p.2) : roundMag f r u scaled neg o = roundMag f r u scaled neg o' := by
  have hbey := h _ (.inl rfl)
  have hmag : ∀ c ≤ maxCode f neg, o (magValue f c).1 (magValue f c).2 = o' (magValue f c).1 (magValue f c).2 :=
    fun c hc => h _ (.inr (.inr (.inl ⟨c, hc, rfl⟩)))
  by_cases hlt : o (beyondMax f neg).1 (beyondMax f neg).2 = .lt
  · have hc := floorCode_congr hmag (elemBits f) 0
    have hle : floorCode f (maxCode f neg) o' (elemBits f) 0 ≤ maxCode f neg := floorCode_le o' _ (Nat.zero_le _)
    rw [roundMag_eq hlt hc, roundMag_eq (hbey ▸ hlt) rfl, hmag _ hle, goesUpFrom, goesUpFrom,
      h _ (.inr (.inr (.inr ⟨_, hle, .inl rfl⟩))), h _ (.inr (.inr (.inr ⟨_, hle, .inr rfl⟩))), h (1, minNormExp f) (.inr (.inl rfl))]
  · have hlt' : ¬o' (beyondMax f neg).1 (beyondMax f neg).2 = .lt := by rwa [← hbey]
    exact (if_pos hlt).trans (if_pos hlt').symm

/-- Magnitudes of FP64 to FP16 have significands and exponents of FP64. -/
theorem magValue_bounds {f c : Nat} (hf : 1 ≤ f ∧ f ≤ 4) (neg : Bool) (hc : c ≤ maxCode f neg) :
    (magValue f c).1 < 2 ^ 53 ∧ -1074 ≤ (magValue f c).2 ∧ (magValue f c).2 ≤ 1024 := by
  have hbin : magValue f c = binMag (fmtFrac f) (fmtBias f) c :=
    magValue_eq_binMag (by obtain ⟨h1, h4⟩ := hf; interval_cases f <;> rfl) (by obtain ⟨h1, h4⟩ := hf; interval_cases f <;> rfl) c
  rw [hbin, binMag]
  obtain ⟨h1, h4⟩ := hf
  interval_cases f <;> simp only [maxCode, fmtFrac, fmtBias] at hc ⊢ <;> split <;> omega

/-- So has the magnitude behind a code. -/
theorem magAfter_bounds {f c : Nat} (hf : 1 ≤ f ∧ f ≤ 4) (neg : Bool) (hc : c ≤ maxCode f neg) :
    (magAfter f neg c).1 < 2 ^ 53 ∧ -1074 ≤ (magAfter f neg c).2 ∧ (magAfter f neg c).2 ≤ 1024 := by
  rw [magAfter]
  split
  case isTrue =>
    obtain ⟨h1, h4⟩ := hf
    interval_cases f <;> simp only [beyondMax] <;> omega
  case isFalse h => exact magValue_bounds hf neg (by omega)

/-- The significand of a point between two magnitudes is as long as the distance of their exponents lets it be. -/
theorem between_le {lo hi : Nat × Int} {k s n : Nat} (hlo : lo.1 < 2 ^ 53) (hhi : hi.1 < 2 ^ 53) (hk : k ≤ 2 ^ 32) (hs : s ≤ 32)
    (hl : (lo.2 - min lo.2 hi.2).toNat ≤ n) (hh : (hi.2 - min lo.2 hi.2).toNat ≤ n) : (between lo hi k s).1 ≤ 2 ^ (n + 86) := by
  have hshift : ∀ {m d : Nat}, m < 2 ^ 53 → d ≤ n → m <<< d ≤ 2 ^ 53 * 2 ^ n := fun hm hd => by
    rw [Nat.shiftLeft_eq]
    exact Nat.mul_le_mul hm.le (Nat.pow_le_pow_right (by decide) hd)
  have h2s : 2 ^ s ≤ 2 ^ 32 := Nat.pow_le_pow_right (by decide) hs
  calc (between lo hi k s).1 ≤ 2 ^ 53 * 2 ^ n * 2 ^ 32 + 2 ^ 32 * (2 ^ 53 * 2 ^ n) :=
        Nat.add_le_add (Nat.mul_le_mul (hshift hlo hl) h2s) (Nat.mul_le_mul hk ((Nat.sub_le _ _).trans (hshift hhi hh)))
    _ = 2 ^ (n + 86) := by ring

/-- A point between two such magnitudes has a small significand. -/
theorem between_lt {lo hi : Nat × Int} (hlo : lo.1 < 2 ^ 53 ∧ -1074 ≤ lo.2 ∧ lo.2 ≤ 1024) (hhi : hi.1 < 2 ^ 53 ∧ -1074 ≤ hi.2 ∧ hi.2 ≤ 1024)
    {k s : Nat} (hk : k ≤ 2 ^ 32) (hs : s ≤ 32) : (between lo hi k s).1 < 2 ^ 2560 :=
  (between_le (n := 2098) hlo.1 hhi.1 hk hs (by omega) (by omega)).trans_lt (Nat.pow_lt_pow_right (by decide) (by decide))

/-- What is asked in the formats FP64 to FP16 has small significands. -/
theorem asked_lt {f u : Nat} {neg : Bool} {p : Nat × Int} (hf : 1 ≤ f ∧ f ≤ 4) (hu : u < 2 ^ 32) (h : Asked f u neg p) : p.1 < 2 ^ 2560 := by
  have h53 : ∀ {n : Nat}, n < 2 ^ 53 → n < 2 ^ 2560 := fun h => h.trans (Nat.pow_lt_pow_right (by decide) (by decide))
  rcases h with rfl | rfl | ⟨c, hc, rfl⟩ | ⟨c, hc, rfl | rfl⟩
  · have hbey := magAfter_bounds hf neg (le_refl (maxCode f neg))
    rw [magAfter, if_pos rfl] at hbey
    exact h53 hbey.1
  · exact h53 (show 1 < 2 ^ 53 by decide)
  · exact h53 (magValue_bounds hf neg hc).1
  · exact between_lt (magValue_bounds hf neg hc) (magAfter_bounds hf neg hc) (by decide +kernel) (by decide)
  · exact between_lt (magValue_bounds hf neg hc) (magAfter_bounds hf neg hc) hu le_rfl

theorem ratOf_le_of_cmp {p q : Nat × Int} (h : cmpDyadic p.1 p.2 q.1 q.2 ≠ .gt) : ratOf p ≤ ratOf q := by
  rw [cmpDyadic_eq_cmp, ne_eq, cmp_eq_gt_iff, not_lt] at h
  exact h

/-- The magnitude behind a code is not below the least one of FP64. -/
theorem magAfter_ge {f c : Nat} (hf : 1 ≤ f ∧ f ≤ 4) (neg : Bool) (hc : c ≤ maxCode f neg) : ratOf (1, -1074) ≤ ratOf (magAfter f neg c) := by
  have hone : ∀ f, 1 ≤ f ∧ f ≤ 4 → ∀ neg : Bool, 1 ≤ maxCode f neg
      ∧ cmpDyadic 1 (-1074) (magValue f 1).1 (magValue f 1).2 ≠ .gt := by
    rintro f ⟨h1, h4⟩ neg
    interval_cases f <;> cases neg <;> decide +kernel
  obtain ⟨htop, hleast⟩ := hone f hf neg
  have hf' : f ≤ 15 := by omega
  refine (ratOf_le_of_cmp hleast).trans ?_
  rw [magAfter]
  split
  · exact (magValue_mono hf' neg htop le_rfl).trans (magValue_maxCode_lt hf' neg).le
  · exact magValue_mono hf' neg (by omega) (by omega)

/-- A magnitude lies below the one behind it. -/
theorem magValue_lt_magAfter {f c : Nat} (hf : f ≤ 15) (neg : Bool) (hc : c ≤ maxCode f neg) : ratOf (magValue f c) < ratOf (magAfter f neg c) := by
  rw [magAfter]
  split
  case isTrue h => rw [h]; exact magValue_maxCode_lt hf neg
  case isFalse h => exact magValue_lt_succ hf neg (by omega)

/-- A point between zero or more and such a magnitude is not far below it. -/
theorem between_ge {lo hi : Nat × Int} (h : ratOf lo < ratOf hi) (hhi : ratOf (1, -1074) ≤ ratOf hi) {k s : Nat} (hk : 1 ≤ k) (hs : s ≤ 32) :
    ratOf (1, -1106) ≤ ratOf (between lo hi k s) := by
  have hlo := ratOf_nonneg lo.1 lo.2
  have hk' : (1 : ℚ) ≤ k := by exact_mod_cast hk
  have hs' : (2 : ℚ) ^ s ≤ 2 ^ 32 := pow_le_pow_right₀ (by norm_num) hs
  have hpow : ratOf (1, -1106) = ratOf (1, -1074) / 2 ^ 32 := by
    rw [ratOf_mk, ratOf_mk, show (-1106 : Int) = -1074 - 32 by norm_num, zpow_sub₀ (by norm_num)]
    norm_cast
    ring
  have hgap : (ratOf hi - ratOf lo) / 2 ^ 32 ≤ k * (ratOf hi - ratOf lo) / 2 ^ s := by
    rw [div_le_div_iff₀ (by norm_num) (by positivity)]
    have hpos : 0 ≤ ratOf hi - ratOf lo := by linarith
    calc (ratOf hi - ratOf lo) * 2 ^ s ≤ (ratOf hi - ratOf lo) * 2 ^ 32 := mul_le_mul_of_nonneg_left hs' hpos
      _ ≤ k * (ratOf hi - ratOf lo) * 2 ^ 32 := by nlinarith
  rw [ratOf_between h.le, hpow]
  have hlo' : 0 ≤ ratOf lo := hlo
  linarith

/-- What is asked in the formats FP64 to FP16 is zero or not below 2^-1106. -/
theorem asked_ge {f u : Nat} {neg : Bool} {p : Nat × Int} (hf : 1 ≤ f ∧ f ≤ 4) (h : Asked f u neg p) :
    ratOf p = 0 ∨ ratOf (1, -1106) ≤ ratOf p := by
  have hf' : f ≤ 15 := by omega
  have hleast : ratOf (1, -1106) ≤ ratOf (1, -1074) := ratOf_le_of_cmp (by decide +kernel)
  rcases h with rfl | rfl | ⟨c, hc, rfl⟩ | ⟨c, hc, rfl | rfl⟩
  · have hbey := magAfter_ge hf neg (le_refl (maxCode f neg))
    rw [magAfter, if_pos rfl] at hbey
    exact .inr (hleast.trans hbey)
  · refine .inr (ratOf_le_of_cmp ?_)
    obtain ⟨h1, h4⟩ := hf
    interval_cases f <;> decide +kernel
  · rcases Nat.eq_zero_or_pos c with rfl | hpos
    · exact .inl (magValue_zero hf')
    · have hge := magAfter_ge hf neg (c := c - 1) (by omega)
      rw [magAfter, if_neg (by omega), Nat.sub_add_cancel hpos] at hge
      exact .inr (hleast.trans hge)
  · exact .inr (between_ge (magValue_lt_magAfter hf' neg hc) (magAfter_ge hf neg hc) le_rfl (by decide))
  · exact .inr (between_ge (magValue_lt_magAfter hf' neg hc) (magAfter_ge hf neg hc) (by omega) le_rfl)

/-! ### Powers of two and logarithms (R265, log 12) -/

/-- A logarithm of 1 has only zero digits (log 12). -/
theorem cmpLogDigits_one (n t : Nat) : cmpLogDigits n t (2 ^ logBits) (2 ^ logBits) = if t % 2 ^ n = 0 then .eq else .lt := by
  have hpos : 0 < 2 ^ logBits := Nat.two_pow_pos _
  induction n with
  | zero => simp [cmpLogDigits, Nat.mod_one]
  | succ n ih =>
    have hl : 2 ^ logBits * 2 ^ logBits / 2 ^ logBits = 2 ^ logBits := Nat.mul_div_cancel _ hpos
    have hh : (2 ^ logBits * 2 ^ logBits + 2 ^ logBits - 1) / 2 ^ logBits = 2 ^ logBits := by
      rw [Nat.add_sub_assoc hpos, Nat.mul_add_div hpos, Nat.div_eq_of_lt (Nat.sub_lt hpos Nat.one_pos), Nat.add_zero]
    rw [cmpLogDigits]
    simp only [hl, hh, ih]
    rw [if_neg (by omega), show t % 2 ^ (n + 1) = t % 2 ^ n + 2 ^ n * (t.testBit n).toNat by rw [Nat.mod_pow_succ, Nat.toNat_testBit]]
    cases t.testBit n with
    | true =>
      have hn := Nat.two_pow_pos n
      rw [if_pos rfl, if_neg]
      simp
    | false => simp

/-- A number above 1 has a logarithm above 0 (log 12). -/
theorem cmpLogDigits_zero {n lo hi : Nat} (hlo : 2 ^ logBits < lo) (hhi : 2 ^ logBits < hi) : cmpLogDigits n 0 lo hi = .gt := by
  have hpos : 0 < 2 ^ logBits := Nat.two_pow_pos _
  induction n generalizing lo hi with
  | zero => exact if_neg fun h => absurd h.1 (by omega)
  | succ n ih =>
    have hl : 2 ^ logBits < lo * lo / 2 ^ logBits :=
      (Nat.le_div_iff_mul_le hpos).mpr (Nat.mul_le_mul hlo hlo.le)
    have hh : 2 ^ logBits < (hi * hi + 2 ^ logBits - 1) / 2 ^ logBits :=
      (Nat.le_div_iff_mul_le hpos).mpr ((Nat.mul_le_mul hhi hhi.le).trans (by omega))
    rw [cmpLogDigits]
    simp only [Nat.zero_testBit, Bool.false_eq_true, if_false]
    split
    · rfl
    · exact ih hl hh

/-- An integer against t times 2^s, with both sides times 2^-s. -/
theorem cmp_scaled (w t : Int) {s : Int} (hs : s ≤ 0) : cmp (w : ℝ) ((t : ℝ) * 2 ^ s) = cmp (w * 2 ^ (-s).toNat) t := by
  have hpow : (0 : ℝ) < 2 ^ (-s).toNat := by positivity
  have hone : (2 : ℝ) ^ s * 2 ^ (-s).toNat = 1 := by
    rw [← zpow_natCast, ← zpow_add₀ (by norm_num), Int.toNat_of_nonneg (by omega), add_neg_cancel, zpow_zero]
  rw [← cmp_mul_pos_right hpow, mul_assoc, hone, mul_one, ← (Int.cast_strictMono (R := ℝ)).cmp_map_eq]
  push_cast
  rfl

/-- The logarithm of a power of two is its exponent (log 12). -/
theorem cmpLog_two_pow {k : Nat} (hk : k ≤ 2560) (e t : Int) {s : Int} (hs : s ≤ 0) :
    cmpLog (2 ^ k) e t s = cmp (((k : Int) + e : Int) : ℝ) ((t : ℝ) * 2 ^ s) := by
  have hlo : 2 ^ k <<< (logBits - k) = 2 ^ logBits := by
    rw [Nat.shiftLeft_eq, ← Nat.pow_add, Nat.add_sub_cancel' (by rw [logBits]; exact hk)]
  have hpos : (0 : Int) < 2 ^ (-s).toNat := by positivity
  rw [cmp_scaled _ _ hs, cmpLog]
  simp only [Nat.log2_two_pow, hlo, show k ≤ logBits from hk, if_true, cmpLogDigits_one]
  generalize ((k : Int) + e) * 2 ^ (-s).toNat = w
  split
  case isTrue h => exact ((cmp_eq_gt_iff _ _).mpr (by omega)).symm
  case isFalse hneg =>
    split
    case isTrue h => exact ((cmp_eq_lt_iff _ _).mpr (by omega)).symm
    case isFalse hbig =>
      have hsmall : (t - w).toNat < 2 ^ (-s).toNat := by
        have : (((t - w).toNat : Nat) : Int) < ((2 ^ (-s).toNat : Nat) : Int) := by push_cast; omega
        exact_mod_cast this
      rw [Nat.mod_eq_of_lt hsmall]
      split
      case isTrue h => exact ((cmp_eq_eq_iff _ _).mpr (by omega)).symm
      case isFalse h => exact ((cmp_eq_lt_iff _ _).mpr (by omega)).symm

/-- A value lies in the binade that its logarithm names (R214). -/
theorem ratOf_binade {m : Nat} (hm : m ≠ 0) (e : Int) :
    (2 : ℝ) ^ floorLog m e ≤ (ratOf (m, e) : ℚ) ∧ ((ratOf (m, e) : ℚ) : ℝ) < 2 ^ (floorLog m e + 1) := by
  have hpow : (0 : ℝ) < 2 ^ e := by positivity
  have hlo : ((2 ^ Nat.log2 m : Nat) : ℝ) ≤ m := by exact_mod_cast Nat.log2_self_le hm
  have hhi : (m : ℝ) < ((2 ^ (Nat.log2 m + 1) : Nat) : ℝ) := by exact_mod_cast Nat.lt_log2_self
  rw [floorLog, show (Nat.log2 m : Int) + e + 1 = ((Nat.log2 m + 1 : Nat) : Int) + e by push_cast; ring, zpow_add₀ (by norm_num),
    zpow_add₀ (by norm_num), zpow_natCast, zpow_natCast, ratOf_mk]
  push_cast at hlo hhi ⊢
  exact ⟨mul_le_mul_of_nonneg_right hlo hpow.le, mul_lt_mul_of_pos_right hhi hpow⟩

/-- The logarithm of a value against an integer n: the value against 2^n (log 12). -/
theorem cmpLog_int {m : Nat} (hm : m ≠ 0) (hlt : m < 2 ^ 2560) (e : Int) {t s n : Int} (hs : s ≤ 0) (ht : (t : ℝ) * 2 ^ s = n) :
    cmpLog m e t s = cmp ((ratOf (m, e) : ℚ) : ℝ) (2 ^ n) := by
  have hone : (2 : ℝ) ^ s * 2 ^ (-s).toNat = 1 := by
    rw [← zpow_natCast, ← zpow_add₀ (by norm_num), Int.toNat_of_nonneg (by omega), add_neg_cancel, zpow_zero]
  have ht' : t = n * 2 ^ (-s).toNat := by
    have hreal : (t : ℝ) = n * 2 ^ (-s).toNat := by rw [← ht, mul_assoc, hone, mul_one]
    exact_mod_cast hreal
  obtain ⟨hlo, hhi⟩ := ratOf_binade hm e
  have hk : Nat.log2 m ≤ logBits := by
    rw [logBits]
    exact ((Nat.log2_lt hm).mpr hlt).le
  have hpos : (0 : Int) < 2 ^ (-s).toNat := by positivity
  rw [cmpLog, ht', ← sub_mul]
  simp only [hk, if_true]
  rw [floorLog] at hlo hhi
  generalize hw : (Nat.log2 m : Int) + e = w at hlo hhi
  rcases lt_trichotomy n w with h | h | h
  · have hneg : (n - w) * 2 ^ (-s).toNat < 0 := mul_neg_of_neg_of_pos (by omega) hpos
    rw [if_pos hneg]
    exact ((cmp_eq_gt_iff _ _).mpr ((zpow_lt_zpow_right₀ (by norm_num) h).trans_le hlo)).symm
  · subst h
    rw [sub_self, zero_mul, if_neg (lt_irrefl _), if_neg (by omega), Int.toNat_zero]
    by_cases hpow : m = 2 ^ Nat.log2 m
    · have hshift : m <<< (logBits - Nat.log2 m) = 2 ^ logBits := by
        rw [Nat.shiftLeft_eq]
        nth_rw 1 [hpow]
        rw [← Nat.pow_add, Nat.add_sub_cancel' hk]
      rw [hshift, cmpLogDigits_one, Nat.zero_mod, if_pos rfl, ← hw]
      refine ((cmp_eq_eq_iff _ _).mpr ?_).symm
      rw [ratOf_mk]
      nth_rw 1 [hpow]
      push_cast
      rw [zpow_add₀ (by norm_num), zpow_natCast]
    · have hgt : 2 ^ Nat.log2 m < m := lt_of_le_of_ne (Nat.log2_self_le hm) (Ne.symm hpow)
      have hshift : 2 ^ logBits < m <<< (logBits - Nat.log2 m) := by
        rw [Nat.shiftLeft_eq]
        calc 2 ^ logBits = 2 ^ Nat.log2 m * 2 ^ (logBits - Nat.log2 m) := by rw [← Nat.pow_add, Nat.add_sub_cancel' hk]
          _ < m * 2 ^ (logBits - Nat.log2 m) := Nat.mul_lt_mul_of_pos_right hgt (Nat.two_pow_pos _)
      rw [cmpLogDigits_zero hshift hshift, ← hw]
      refine ((cmp_eq_gt_iff _ _).mpr ?_).symm
      rw [zpow_add₀ (by norm_num), zpow_natCast, ratOf_mk]
      push_cast
      exact mul_lt_mul_of_pos_right (by exact_mod_cast hgt) (by positivity)
  · have hbig : 2 ^ (-s).toNat ≤ (n - w) * 2 ^ (-s).toNat := le_mul_of_one_le_left hpos.le (by omega)
    rw [if_neg (by omega), if_pos hbig]
    exact ((cmp_eq_lt_iff _ _).mpr (hhi.trans_le (zpow_le_zpow_right₀ (by norm_num) (by omega)))).symm

theorem flipOrd_cmp (x y : ℝ) : flipOrd (cmp x y) = cmp y x := by
  rw [← cmp_swap x y]
  cases cmp x y <;> rfl

/-- A value of an integer format's exponent, as a power. -/
theorem ratOf_two_pow (n : Int) : ((ratOf (1, n) : ℚ) : ℝ) = 2 ^ n := by
  rw [ratOf_mk]
  push_cast
  rw [one_mul]

/-- A value written with a lower exponent, among the reals. -/
theorem ratOf_shiftLeft_real (m : Nat) {e g : Int} (h : g ≤ e) : ((m <<< (e - g).toNat : Nat) : ℝ) * 2 ^ g = (ratOf (m, e) : ℚ) := by
  rw [← ratOf_shiftLeft m h, ratOf_mk, Rat.cast_mul, Rat.cast_natCast, Rat.cast_zpow, Rat.cast_ofNat]

/-- The oracle of 2^A, for an integer A, is that of the power of two on small significands (R265, log 12). -/
theorem exp2Oracle_eq {s : Bool} {m : Nat} {e n : Int} (hn : (if s then -((ratOf (m, e) : ℚ) : ℝ) else (ratOf (m, e) : ℚ)) = n) {p : Nat × Int}
    (hp : p.1 < 2 ^ 2560) : exp2Oracle s m e p.1 p.2 = cmpDyadic 1 n p.1 p.2 := by
  rw [exp2Oracle, cmpDyadic_eq_cmp_real, ratOf_two_pow]
  by_cases h0 : p.1 = 0
  · rw [if_pos h0, (ratOf_eq_zero _ _).mpr h0, Rat.cast_zero]
    exact ((cmp_eq_gt_iff _ _).mpr (by positivity)).symm
  · have hshift := ratOf_shiftLeft_real m (min_le_left e 0)
    have ht : (((if s then -((m <<< (e - min e 0).toNat : Nat) : Int) else (m <<< (e - min e 0).toNat : Nat) : Int)) : ℝ) * 2 ^ min e 0 = n := by
      rw [← hn]
      cases s with
      | true => rw [if_pos rfl, if_pos rfl, Int.cast_neg, Int.cast_natCast, neg_mul, hshift]
      | false => rw [if_neg Bool.false_ne_true, if_neg Bool.false_ne_true, Int.cast_natCast, hshift]
    rw [if_neg h0]
    simp only [cmpLog_int h0 hp p.2 (min_le_right e 0) ht, flipOrd_cmp]

/-- Far above every format, a power of two overflows or goes to Max as any other does. -/
theorem roundFin_far {f : Nat} {r : Rnd} {u : Nat} (hf : 1 ≤ f ∧ f ≤ 4) {n : Int} (hn : 1024 ≤ n) :
    roundFin f r u false false 1 n
      = if goesUp r.rm false .gt true true then overflowOf f false r.sat false else (encodeMag f false (maxCode f false), none) := by
  have hall : cmpDyadic (beyondMax f false).1 (beyondMax f false).2 1 1024 ≠ .gt := by
    obtain ⟨h1, h4⟩ := hf
    interval_cases f <;> decide +kernel
  have hbey : ((ratOf (beyondMax f false) : ℚ) : ℝ) ≤ 2 ^ n := by
    refine le_trans (b := 2 ^ (1024 : Int)) ?_ (zpow_le_zpow_right₀ (by norm_num) hn)
    rw [← ratOf_two_pow]
    exact_mod_cast ratOf_le_of_cmp (q := (1, 1024)) hall
  refine if_pos fun h => ?_
  have hlt : cmpDyadic 1 n (beyondMax f false).1 (beyondMax f false).2 = .lt := h
  rw [cmpDyadic_eq_cmp_real, ratOf_two_pow, cmp_eq_lt_iff] at hlt
  exact absurd hlt (not_lt.mpr hbey)

/-- Far below every format's least value, all powers of two round alike. -/
theorem roundFin_tiny {f : Nat} {r : Rnd} {u : Nat} (hf : 1 ≤ f ∧ f ≤ 4) {n k : Int} (hn : n < -1106) (hk : k < -1106) :
    roundFin f r u false false 1 n = roundFin f r u false false 1 k := by
  have hask : ∀ n : Int, n < -1106 → ∀ p, Asked f u false p → cmpDyadic 1 n p.1 p.2 = if ratOf p = 0 then .gt else .lt := by
    intro n hn p hp
    rw [cmpDyadic_eq_cmp]
    rcases asked_ge hf hp with h0 | hge
    · rw [if_pos h0, cmp_eq_gt_iff, show ratOf (p.1, p.2) = 0 from h0]
      exact ratOf_pos one_ne_zero n
    · have hlt : ratOf (1, n) < ratOf p := by
        refine lt_of_lt_of_le ?_ hge
        rw [ratOf_mk, ratOf_mk]
        exact mul_lt_mul_of_pos_left (zpow_lt_zpow_right₀ (by norm_num) hn) (by norm_num)
      rw [if_neg (lt_of_le_of_lt (ratOf_nonneg 1 n) hlt).ne']
      exact (cmp_eq_lt_iff _ _).mpr hlt
  exact roundMag_congr fun p hp => by rw [hask n hn p hp, hask k hk p hp]

/-- 2^A of an integer A is rounded exactly (R265). -/
theorem transcElem_exp2 {f : Nat} {r : Rnd} {u x : Nat} (hf : 1 ≤ f ∧ f ≤ 4) (hu : u < 2 ^ 32) {s : Bool} {m : Nat} {e n : Int} (hm : m ≠ 0)
    (hx : decodeElem f x = .fin s m e) (hn : (if s then -((ratOf (m, e) : ℚ) : ℝ) else (ratOf (m, e) : ℚ)) = n) :
    transcElem .exp2 f r u x = roundFin f r u false false 1 n := by
  simp only [transcElem, hx]
  rw [if_neg hm]
  by_cases hfar : 11 ≤ floorLog m e
  · have hbig : (2048 : ℝ) ≤ (ratOf (m, e) : ℚ) := by
      refine le_trans ?_ ((zpow_le_zpow_right₀ (by norm_num) hfar).trans (ratOf_binade hm e).1)
      norm_num
    rw [if_pos hfar]
    cases s with
    | true =>
      have hle : (n : ℝ) ≤ ((-2048 : Int) : ℝ) := by rw [← hn, if_pos rfl]; push_cast; linarith
      have hn' : n ≤ -2048 := by exact_mod_cast hle
      rw [if_pos rfl]
      exact roundFin_tiny hf (by norm_num) (by omega)
    | false =>
      have hge : ((2048 : Int) : ℝ) ≤ n := by rw [← hn, if_neg Bool.false_ne_true]; push_cast; linarith
      have hn' : 2048 ≤ n := by exact_mod_cast hge
      rw [if_neg Bool.false_ne_true, roundFin_far hf (by norm_num), roundFin_far hf (by omega)]
  · rw [if_neg hfar]
    exact roundMag_congr fun p hp => exp2Oracle_eq hn (asked_lt hf hu hp)

/-- FP64 to FP16 are binary floating formats. -/
theorem isInt_isSerif_eq_false {f : Nat} (hf : 1 ≤ f ∧ f ≤ 4) : fmtIsInt f = false ∧ fmtIsSerif f = false := by
  obtain ⟨h1, h4⟩ := hf
  interval_cases f <;> decide

/-- An element of FP64 to FP16 has a significand of FP64. -/
theorem decodeElem_lt {f x : Nat} (hf : 1 ≤ f ∧ f ≤ 4) {s : Bool} {m : Nat} {e : Int} (hx : decodeElem f x = .fin s m e) : m < 2 ^ 53 := by
  obtain ⟨hint, hserif⟩ := isInt_isSerif_eq_false hf
  have hmag : ∀ c, (magValue f c).1 < 2 ^ 53 := by
    intro c
    rw [magValue_eq_binMag hint hserif, binMag]
    have hfrac : fmtFrac f ≤ 52 := by obtain ⟨h1, h4⟩ := hf; interval_cases f <;> decide
    have hpow : 2 ^ fmtFrac f ≤ 2 ^ 52 := Nat.pow_le_pow_right (by decide) hfrac
    have hmod := Nat.mod_lt c (Nat.two_pow_pos (fmtFrac f))
    split <;> omega
  simp only [decodeElem, hint, hserif, Bool.false_eq_true, if_false] at hx
  split at hx
  · split at hx <;> cases hx
  · split at hx
    · cases hx
    · cases hx
      exact hmag _

/-- A significand that makes a power of two is one. -/
theorem eq_two_pow_of_ratOf {m : Nat} {e j : Int} (hm : m ≠ 0) (h : ((ratOf (m, e) : ℚ) : ℝ) = 2 ^ j) :
    ∃ k : Nat, m = 2 ^ k ∧ (k : Int) + e = j := by
  obtain ⟨hlo, hhi⟩ := ratOf_binade hm e
  rw [h] at hlo hhi
  have hj : floorLog m e = j := by
    have h1 := (zpow_le_zpow_iff_right₀ (by norm_num : (1 : ℝ) < 2)).mp hlo
    have h2 := (zpow_lt_zpow_iff_right₀ (by norm_num : (1 : ℝ) < 2)).mp hhi
    omega
  refine ⟨Nat.log2 m, ?_, hj⟩
  have hpow : (m : ℝ) * 2 ^ e = 2 ^ Nat.log2 m * 2 ^ e := by
    rw [← zpow_natCast, ← zpow_add₀ (by norm_num)]
    rw [ratOf_mk] at h
    push_cast at h
    rw [h, ← hj, floorLog]
  have hcancel : (m : ℝ) = ((2 ^ Nat.log2 m : Nat) : ℝ) := by
    push_cast
    exact mul_right_cancel₀ (zpow_ne_zero e (by norm_num)) hpow
  exact_mod_cast hcancel

/-- The oracle of the logarithm of a power of two knows the exponent's magnitude (R265, log 12). -/
theorem log2_knows {k : Nat} (hk : k ≤ 2560) {e j : Int} (hj : (k : Int) + e = j) {neg : Bool} (hneg : neg = decide (j < 0)) :
    Oracle.Knows (log2Oracle neg (2 ^ k) e) (j.natAbs : ℝ) := by
  intro n g
  have hshift : (((n <<< (g - min g 0).toNat : Nat) : Int) : ℝ) * 2 ^ min g 0 = (ratOf (n, g) : ℚ) := by
    rw [Int.cast_natCast, ratOf_shiftLeft_real n (min_le_left g 0)]
  simp only [log2Oracle, cmpLog_two_pow hk e _ (min_le_right g 0), hj, hneg]
  by_cases h : j < 0
  · rw [if_pos (decide_eq_true h), flipOrd_cmp, Int.cast_neg, neg_mul, hshift, Nat.cast_natAbs, abs_of_neg h,
      ← StrictAnti.cmp_map_eq (f := fun x : ℝ => -x) (fun _ _ h => neg_lt_neg h), neg_neg, Int.cast_neg]
  · rw [if_neg (by simpa using h), hshift, Nat.cast_natAbs, abs_of_nonneg (by omega)]

/-- The logarithm of a power of two is rounded exactly (R265). -/
theorem transcElem_log2 {f : Nat} {r : Rnd} {u x : Nat} (hf : 1 ≤ f ∧ f ≤ 4) {m : Nat} {e j : Int} (hm : m ≠ 0)
    (hx : decodeElem f x = .fin false m e) (hj : ((ratOf (m, e) : ℚ) : ℝ) = 2 ^ j) :
    transcElem .log2 f r u x = if j = 0 then (0, none) else roundFin f r u false (decide (j < 0)) j.natAbs 0 := by
  obtain ⟨k, rfl, hk⟩ := eq_two_pow_of_ratOf hm hj
  have hk53 : k < 53 := (Nat.pow_lt_pow_iff_right (by decide)).mp (decodeElem_lt hf hx)
  have hround : ∀ {neg : Bool}, neg = decide (j < 0) → j ≠ 0 →
      roundMag f r u false neg (log2Oracle neg (2 ^ k) e) = roundFin f r u false (decide (j < 0)) j.natAbs 0 := by
    intro neg hneg hj0
    have hdyadic := cmpDyadic_knows j.natAbs 0
    rw [ratOf_mk, zpow_zero, mul_one, Rat.cast_natCast] at hdyadic
    have hsame : log2Oracle neg (2 ^ k) e = fun m2 e2 => cmpDyadic j.natAbs 0 m2 e2 :=
      funext fun m2 => funext fun e2 => (log2_knows (by omega) hk hneg m2 e2).trans (hdyadic m2 e2).symm
    rw [hsame, hneg, roundFin, if_neg (Int.natAbs_ne_zero.mpr hj0)]
  have hcmp : cmpDyadic (2 ^ k) e 1 0 = cmp j 0 := by
    rw [cmpDyadic_eq_cmp_real, hj, ratOf_one, Rat.cast_one, ← zpow_zero (2 : ℝ)]
    exact (zpow_right_strictMono₀ (by norm_num)).cmp_map_eq j 0
  simp only [transcElem, hx, hcmp]
  rw [if_neg hm, if_neg Bool.false_ne_true]
  rcases lt_trichotomy j 0 with h | h | h
  · rw [(cmp_eq_lt_iff _ _).mpr h, if_neg h.ne]
    exact hround (by simpa using h) h.ne
  · rw [(cmp_eq_eq_iff _ _).mpr h, if_pos h]
  · rw [(cmp_eq_gt_iff _ _).mpr h, if_neg h.ne']
    exact hround (by simpa using h.le) h.ne'

/-! ### Conversions (R194 to R196) -/

/-- A NaN converted (R195). -/
theorem convert_nan {x f : Nat} {r : Rnd} {u v : Nat} (hx : decodeElem x v = .nan) :
    convert x f r u v = if inI f = true then (if r.sat then 0 else 2 ^ (elemBits f - 1), some 0)
      else if 7 ≤ f ∧ f ≤ 9 then (0, some 0) else (fmtNan f, none) := by
  have hint : fmtIsInt x = false := by
    rw [decodeElem] at hx
    cases h : fmtIsInt x with
    | false => rfl
    | true =>
      simp only [h, if_true] at hx
      split at hx <;> cases hx
  simp only [convert, hint, Bool.false_and, Bool.false_eq_true, if_false, hx]
  rfl

/-- An infinity converted (R195). -/
theorem convert_inf {x f : Nat} {r : Rnd} {u v : Nat} {s : Bool} (hf : f ≤ 15) (hx : decodeElem x v = .inf s) :
    convert x f r u v =
      if 1 ≤ f ∧ f ≤ 5 then (infOf f s, none)
      else if inI f = true then
        (if r.sat then (if s then 2 ^ (elemBits f - 1) else 2 ^ (elemBits f - 1) - 1, some 3) else (2 ^ (elemBits f - 1), some 0))
      else if 7 ≤ f ∧ f ≤ 9 ∨ r.sat = true then (maxCode f s + if s then 2 ^ (elemBits f - 1) else 0, some 3)
      else (fmtNan f, some 0) := by
  have hint : fmtIsInt x = false := by
    rw [decodeElem] at hx
    cases h : fmtIsInt x with
    | false => rfl
    | true =>
      simp only [h, if_true] at hx
      split at hx <;> cases hx
  have hall : ∀ f ≤ 15, ∀ s sat : Bool, convInf f s sat =
      if 1 ≤ f ∧ f ≤ 5 then (infOf f s, none)
      else if inI f = true then
        (if sat then (if s then 2 ^ (elemBits f - 1) else 2 ^ (elemBits f - 1) - 1, some 3) else (2 ^ (elemBits f - 1), some 0))
      else if 7 ≤ f ∧ f ≤ 9 ∨ sat = true then (maxCode f s + if s then 2 ^ (elemBits f - 1) else 0, some 3)
      else (fmtNan f, some 0) := by
    decide +kernel
  simp only [convert, hint, Bool.false_and, Bool.false_eq_true, if_false, hx]
  exact hall f hf s r.sat

/-- A finite value converted, from or to a format that is no integer format (R194). -/
theorem convert_fin {x f : Nat} {r : Rnd} {u v : Nat} {s : Bool} {m : Nat} {e : Int} (h : inI x = false ∨ inI f = false)
    (hx : decodeElem x v = .fin s m e) : convert x f r u v = roundFin f r u false s m e := by
  have hint : (fmtIsInt x && fmtIsInt f) = false := by
    rw [Bool.and_eq_false_iff]
    exact h
  simp only [convert, hint, Bool.false_eq_true, if_false, hx]

/-- An integer converted between integer formats (R196). -/
theorem convert_int {x f : Nat} {r : Rnd} {u v : Nat} (hx : inI x = true) (hf : inI f = true) :
    convert x f r u v =
      if r.sat = false ∨ -2 ^ (elemBits f - 1) ≤ toSigned (elemBits x) v ∧ toSigned (elemBits x) v < 2 ^ (elemBits f - 1) then
        ((toSigned (elemBits x) v % 2 ^ elemBits f).toNat, none)
      else (if toSigned (elemBits x) v < 0 then 2 ^ (elemBits f - 1) else 2 ^ (elemBits f - 1) - 1, some 3) := by
  have hw : (2 : Int) ^ elemBits f = 2 * 2 ^ (elemBits f - 1) := by rw [← pow_succ', Nat.sub_add_cancel (elemBits_pos f)]
  have hpos : (0 : Int) < 2 ^ (elemBits f - 1) := by positivity
  have hlow : ofSigned (elemBits f) (-2 ^ (elemBits f - 1)) = 2 ^ (elemBits f - 1) := by
    rw [ofSigned, hw, ← Int.add_mul_emod_self_left _ _ 1, Int.emod_eq_of_lt (by omega) (by omega)]
    have hsum : -(2 : Int) ^ (elemBits f - 1) + 2 * 2 ^ (elemBits f - 1) * 1 = ((2 ^ (elemBits f - 1) : Nat) : Int) := by push_cast; ring
    rw [hsum, Int.toNat_natCast]
  have hhigh : ofSigned (elemBits f) (2 ^ (elemBits f - 1) - 1) = 2 ^ (elemBits f - 1) - 1 := by
    rw [ofSigned, hw, Int.emod_eq_of_lt (by omega) (by omega)]
    have hcast : (2 : Int) ^ (elemBits f - 1) = ((2 ^ (elemBits f - 1) : Nat) : Int) := by push_cast; rfl
    omega
  have hboth : (fmtIsInt x && fmtIsInt f) = true := by rw [fmtIsInt, fmtIsInt, hx, hf]; rfl
  simp only [convert, hboth, if_true]
  generalize toSigned (elemBits x) v = n
  by_cases hin : -2 ^ (elemBits f - 1) ≤ n ∧ n < 2 ^ (elemBits f - 1)
  · rw [if_pos ⟨hin.1, by omega⟩, if_pos (.inr hin), ofSigned]
  · rw [if_neg (by omega)]
    cases r.sat with
    | false => rw [if_neg Bool.false_ne_true, if_pos (.inl rfl), ofSigned]
    | true =>
      have hout : ¬(true = false ∨ -2 ^ (elemBits f - 1) ≤ n ∧ n < 2 ^ (elemBits f - 1)) := fun h => h.elim (fun h => nomatch h) hin
      rw [if_pos rfl, if_neg hout, hlow, hhigh]
      by_cases hn : n < 0
      · rw [if_pos (by omega), if_pos hn]
      · rw [if_neg (by omega), if_neg hn]

/-- Settles O34: the instructions are the vector rule; each function's oracle knows the exact real, and the digit comparison is exact at
integers and powers of two. -/
theorem vectorFunctionsComplete : Obligations.VectorFunctionsComplete := by
  refine ⟨fun o => ?lands, fun f r u x h1 h4 => ?functions, fun x f r u v _ hf => ?converts⟩
  case lands =>
    exact ⟨vectorLands_of_exec (readsD := false) (readsB := false) fun _ => rfl,
      vectorLands_of_exec (readsD := false) (readsB := false) fun _ => rfl, vectorLands_of_exec (readsD := false) (readsB := false) fun _ => rfl,
      vectorLands_of_exec (readsD := false) (readsB := false) fun _ => rfl, vectorLands_of_exec (readsD := false) (readsB := false) fun _ => rfl,
      vectorLands_of_exec (readsD := false) (readsB := false) fun _ => rfl⟩
  case functions =>
    refine ⟨fun hx g => ?_, fun e hx => ?_, fun e hx => ?_, fun hx => ?_, fun hx => ?_, fun m e hm hx g hg => ?_, fun s e hx => ?_,
      fun hrm hu s m e hm hx => ?finite⟩
    case refine_1 => cases g <;> simp [transcElem, hx]
    case refine_2 => simp [transcElem, hx]
    case refine_3 => simp [transcElem, hx]
    case refine_4 => simp [transcElem, hx, zeroOf]
    case refine_5 => simp [transcElem, hx]
    case refine_6 =>
      simp only [List.mem_cons, List.not_mem_nil, or_false] at hg
      rcases hg with rfl | rfl | rfl <;> simp [transcElem, hx, hm]
    case refine_7 => simp [transcElem, hx]
    case finite =>
      have hf : f ≤ 15 := by omega
      have ha : (0 : ℝ) < (ratOf (m, e) : ℚ) := by exact_mod_cast ratOf_pos hm e
      refine ⟨?_, fun hs => ⟨?_, ?_⟩, fun n hn => transcElem_exp2 ⟨h1, h4⟩ hu hm hx hn, fun j hs hj => ?_⟩
      · simp only [transcElem, hx, hm, if_false]
        exact roundMag_roundsTo hf hrm hu (by positivity) (rcp_knows hm e)
      · simp only [transcElem, hx, hm, hs, if_false, Bool.false_eq_true]
        exact roundMag_roundsTo hf hrm hu (by positivity) (rsq_knows hm e)
      · simp only [transcElem, hx, hm, hs, if_false, Bool.false_eq_true]
        exact roundMag_roundsTo hf hrm hu (by positivity) (sqrt_knows m e)
      · subst hs
        exact transcElem_log2 ⟨h1, h4⟩ hm hx hj
  case converts =>
    exact ⟨convert_nan, fun s => convert_inf hf, fun s m e => convert_fin, fun hx hf => convert_int hx hf⟩

end Sys2Proof.Machine

/-! PROOFS of the family 'other': matrix instructions (R277, R289, R295 to R304) -/

namespace Sys2Proof.Machine

/-! ### The matrix instructions (R277, R289, R295 to R304) -/

/-- MXCTL.kind is a field of two bits (R287). -/
theorem accKind_eq (t : Tile) : t.csr.mxctl.toNat / 16 % 4 = t.accKind := by
  rw [Tile.accKind, bitsAt_eq_div_mod]
  rfl

/-- The format of a kind is an integer format for INT32 alone (R286). -/
theorem kindFmt_eq_zero (k : Nat) : kindFmt k = 0 ↔ k = 0 := by
  rw [kindFmt]
  split
  · simp [*]
  · split <;> simp [*]

/-- Under kind FP64 only even accumulators pair up (R297). -/
theorem oddPair_eq_none {t : Tile} {l : List Nat} (h : t.accKind = 2 → ∀ a ∈ l, a % 2 = 0) : oddPair t l = none := by
  have hno : (t.accKind == 2 && l.any fun a => a % 2 == 1) = false := by
    rw [Bool.and_eq_false_imp]
    intro hk
    rw [List.any_eq_false]
    intro a ha
    have := h (by simpa using hk) a ha
    simp [this]
  rw [oddPair, hno]
  rfl

/-- A body behind a check at issue that finds nothing. -/
theorem atIssue_of_none {cause : Tile → Option Nat} {body : Ctx → Tile → Except Raise Tile} {c : Ctx} {t : Tile} (h : cause t = none) :
    atIssue cause body c t = body c t := by
  rw [atIssue, h]

theorem corrects_mx (t : Tile) (a n : Nat) : (t.corrects a n).mx = t.mx := by
  obtain ⟨st, hst, -⟩ := corrects_frame t a n
  rw [hst]

theorem corrects_accKind (t : Tile) (a n : Nat) : (t.corrects a n).accKind = t.accKind := by
  obtain ⟨st, hst, -⟩ := corrects_frame t a n
  rw [hst]
  rfl

theorem corrects_pend (t : Tile) (a n : Nat) : (t.corrects a n).pend = t.pend := by
  obtain ⟨st, hst, -⟩ := corrects_frame t a n
  rw [hst]

/-- Corrected words read as they are. -/
theorem corrects_bytes (t : Tile) (a n b k : Nat) : (t.corrects a n).bytes b k = t.bytes b k := by
  obtain ⟨st, hst, hmem⟩ := corrects_frame t a n
  rw [hst, Tile.bytes, Tile.bytes, hmem]

/-- A chunk holds the bytes of its A operand (R289). -/
theorem readChunk_a (t : Tile) (m : Mma) (c : Nat) :
    (readChunk t m c).a = t.bytes (256 * m.sp + c * aChunkBytes m.fa m.ablk) (aChunkBytes m.fa m.ablk) := by
  rw [readChunk]
  split <;> rfl

/-- An MMA before its first chunk starts (R289). -/
def mmaRecord (o : Mat) (t : Tile) (c : Ctx) : Mma where
  line := c.e.line
  lane := c.e.lane
  w0 := c.e.w0
  w1 := c.e.w1
  issue := c.k
  cls := c.cls 0
  debit := (mmaInfo o t).debit c
  acc := o.acc.toNat
  fa := o.fa.toNat
  fb := o.fb.toNat
  n := o.n.toNat
  sp := o.sp.toNat
  wb := o.wb.toNat
  ablk := t.csr.mxctl.getLsbD 0
  path := (pathAt o t).getD 4
  sat := c.sat
  t := chunkTime (max (elemBits o.fa.toNat) (elemBits o.fb.toNat))
  recs := (locate t o.fb.toNat (256 * o.wb.toNat) 0 o.n.toNat).1
  noSize := (locate t o.fb.toNat (256 * o.wb.toNat) 0 o.n.toNat).2
  chunks := []
  lastStart := c.k

/-- An MMA with its first chunk, read at its start (R289). -/
def startedMma (o : Mat) (t : Tile) (c : Ctx) : Mma :=
  { mmaRecord o t c with
    chunks := [readChunk (t.corrects (256 * o.sp.toNat) (aChunkBytes o.fa.toNat (t.csr.mxctl.getLsbD 0))) (mmaRecord o t c) 0] }

/-- Settles O39: each body's checks pass under the stated conditions, and an occupied array is MMA's hold. -/
theorem matrixInstructionsComplete : Obligations.MatrixInstructionsComplete := by
  intro o
  simp only [accKind_eq]
  refine ⟨?mma, ?mmaHeld, ⟨?wld, ?wldSource, ?wldTarget⟩, ?accz, ⟨?accrdRaw, ?accrdElem, ?accrdBlock⟩, ⟨?accwr, ?accwrSource⟩, ?accadd, ?accsc⟩
  case mma =>
    intro s f t c h hhold hcause hsp hrecs
    have hfind : (locate t o.fb.toNat (256 * o.wb.toNat) 0 o.n.toNat).1.zipIdx.find? (fun p => decide (0x40000 < p.1.start + p.1.size)) = none := by
      rw [List.find?_eq_none]
      intro p hp
      have hle := hrecs p.1 (List.fst_mem_of_mem_zipIdx hp)
      simp only [decide_eq_true_eq]
      omega
    refine ⟨_, startedMma o t c, issue_ok h hhold ?body (Tile.predsApart_of_pend ?pend), rfl, rfl, rfl, rfl, rfl, rfl, rfl, rfl,
      rfl, ?chunk⟩
    case pend => exact corrects_pend ..
    case body =>
      refine (atIssue_of_none hcause).trans ((if_neg (by omega)).trans ?_)
      simp only [hfind, corrects_mx]
      rfl
    case chunk =>
      rw [startedMma, List.map_singleton, readChunk_a, corrects_bytes, Nat.zero_mul, Nat.add_zero]
      rfl
  case mmaHeld =>
    intro s f t c h hmma
    refine issue_held h ?_ (by decide)
    have hbusy : arrayFree t c.k = false := by rw [arrayFree, Option.isNone_eq_false_iff]; exact hmma
    rw [mxHold, hbusy]
    rfl
  case wld =>
    refine completes_of_body (fun _ => rfl) (fun c t h => h.1) fun c t h => ?_
    obtain ⟨-, hsrc, hdst, hbad⟩ := h
    refine (if_neg (by omega)).trans ((if_neg (by omega)).trans ?_)
    simp only [hbad]
  case wldSource =>
    refine traps_of_body (fun _ => rfl) (fun c t h => h.1) fun c t h => ?_
    exact if_pos h.2
  case wldTarget =>
    refine traps_of_body (fun _ => rfl) (fun c t h => h.1) fun c t h => ?_
    exact (if_neg (by omega)).trans (if_pos h.2.2)
  case accz => exact completes_of_body (fun _ => rfl) (fun c t h => h) fun _ _ _ => rfl
  case accrdRaw =>
    refine completes_of_body (fun _ => rfl) (fun c t h => h.1.1) fun c t h => ?_
    obtain ⟨⟨-, heven, hblk, hlen⟩, hfa⟩ := h
    refine (atIssue_of_none ?_).trans ?_
    · simp only [oddPair_eq_none heven, hblk]
      rfl
    · have hbytes : accrdBytes o.fa.toNat t = 512 * portBits o.fa.toNat t.accKind := by rw [accrdBytes, hblk]; rfl
      simp only [hbytes, hblk]
      refine (if_neg (not_lt.mpr hlen)).trans ((if_neg Bool.false_ne_true).trans ?_)
      simp only [hfa, if_true, portBits]
  case accrdElem =>
    refine completes_of_body (fun _ => rfl) (fun c t h => h.1.1) fun c t h => ?_
    obtain ⟨⟨-, heven, hblk, hlen⟩, hfa⟩ := h
    refine (atIssue_of_none ?_).trans ?_
    · simp only [oddPair_eq_none heven, hblk]
      rfl
    · have hbytes : accrdBytes o.fa.toNat t = 512 * portBits o.fa.toNat t.accKind := by rw [accrdBytes, hblk]; rfl
      simp only [hbytes, hblk]
      refine (if_neg (not_lt.mpr hlen)).trans ((if_neg Bool.false_ne_true).trans ?_)
      simp only [hfa, if_false, portBits]
      rfl
  case accrdBlock =>
    refine completes_of_body (fun _ => rfl) (fun c t h => h.1.1) fun c t h => ?_
    obtain ⟨⟨-, heven, hblk, hlen⟩, hB, hkind⟩ := h
    refine (atIssue_of_none ?_).trans ?_
    · simp [oddPair_eq_none heven, hB, hkind, lower, need]
    · have hbytes : accrdBytes o.fa.toNat t = 4 * blockBytes o.fa.toNat := by rw [accrdBytes, hblk]; rfl
      have hgen : bitsAt t.csr.mxctl.toNat 8 4 = t.csr.mxctl.toNat / 256 % 16 := bitsAt_eq_div_mod ..
      simp only [hbytes, hblk, hgen]
      exact (if_neg (not_lt.mpr hlen)).trans (if_pos trivial)
  case accwr =>
    refine completes_of_body (fun _ => rfl) (fun c t h => h.1.1) fun c t h => ?_
    obtain ⟨⟨-, heven⟩, hlen, hbad⟩ := h
    have hbad' : t.badWord (256 * o.sp.toNat) (512 * portBits o.fa.toNat t.accKind) = none := hbad
    refine (atIssue_of_none (oddPair_eq_none heven)).trans ((if_neg (not_lt.mpr hlen)).trans ?_)
    simp only [hbad', corrects_accKind]
    rfl
  case accwrSource =>
    refine traps_of_body (fun _ => rfl) (fun c t h => h.1.1) fun c t h => ?_
    exact (atIssue_of_none (oddPair_eq_none h.1.2)).trans (if_pos h.2)
  case accadd =>
    refine completes_of_body (fun _ => rfl) (fun c t h => h.1) fun c t h => ?_
    refine (atIssue_of_none (oddPair_eq_none h.2)).trans ?_
    simp only [kindFmt_eq_zero, beq_iff_eq, Option.map_or]
    rfl
  case accsc =>
    refine completes_of_body (fun _ => rfl) (fun c t h => h.1) fun c t h => ?_
    refine (atIssue_of_none (oddPair_eq_none h.2)).trans ?_
    simp only [kindFmt_eq_zero, beq_iff_eq]
    rfl

end Sys2Proof.Machine

/-! PROOFS of the family 'other': network instructions (R390 to R392) -/

namespace Sys2Proof.Machine

/-! ### The network instructions (R390 to R392) -/

/-- A SEND to a tile of the folio puts its flit into the injection queue (R390). -/
theorem sendMessage_of_target {t : Tile} {c : Ctx} {dx dy ch w v cls : Nat} {x : Nat × Nat} (h : c.place.target c.fx c.fy dx dy = some x) :
    t.sendMessage c dx dy ch w v cls = .ok { t with net := { t.net with router := { t.net.router with inj := t.net.router.inj ++
      [{ srcX := c.fx, srcY := c.fy, tgts := [x], born := c.k + 1, bad := false, pay := .message ch w v c.k cls }] } } } := by
  rw [Tile.sendMessage, h]

/-- A SEND out of the folio traps (R418). -/
theorem sendMessage_of_none {t : Tile} {c : Ctx} {dx dy ch w v cls : Nat} (h : c.place.target c.fx c.fy dx dy = none) :
    t.sendMessage c dx dy ch w v cls = .error (c.raiseInfo 66 (fenceInfo c.fx c.fy dx dy) 0) := by
  rw [Tile.sendMessage, h]

/-- A first arrival at a barrier (R392). -/
theorem arrive_of_none {t : Tile} {c : Ctx} {n : Nat} (h : vget t.net.bars n = none) :
    t.arrive c n = .ok { t with net := { t.net with bars := vset t.net.bars n (some c.k) } } := by
  rw [Tile.arrive, h]

/-- A second arrival before the first has completed (R392). -/
theorem arrive_of_isSome {t : Tile} {c : Ctx} {n : Nat} (h : (vget t.net.bars n).isSome = true) :
    t.arrive c n = .error (c.raiseInfo 65 n 0) := by
  obtain ⟨k, hk⟩ := Option.isSome_iff_exists.mp h
  rw [Tile.arrive, hk]

/-- Settles O52: sends, receives and arrivals are their bodies; RECVW and BARW hold by their own conditions. -/
theorem netInstructionsComplete : Obligations.NetInstructionsComplete := by
  refine ⟨fun o => ⟨fun x => ?send, ?sendOut⟩, fun o => ⟨fun x => ?sendi, ?sendiOut⟩, fun o => ⟨?recv, ?recvw, fun s f t c h hnone => ?recvwHeld⟩,
    fun n => ⟨?bara, ?bar, ?baraTwice, ?barTwice, ?barw, fun s f t c h hsome => ?barwHeld⟩⟩
  case send => exact completes_of_body (fun _ => rfl) (fun _ _ _ => rfl) fun c t h => sendMessage_of_target h
  case sendOut => exact traps_of_body (fun _ => rfl) (fun _ _ _ => rfl) fun c t h => sendMessage_of_none h
  case sendi => exact completes_of_body (fun _ => rfl) (fun _ _ _ => rfl) fun c t h => sendMessage_of_target h
  case sendiOut => exact traps_of_body (fun _ => rfl) (fun _ _ _ => rfl) fun c t h => sendMessage_of_none h
  case recv => exact completes_of_body (fun _ => rfl) (fun _ _ _ => rfl) fun _ _ _ => rfl
  case recvw => exact completes_of_body (fun _ => rfl) (fun _ t h => if_neg (Nat.not_le.mpr h)) fun _ _ _ => rfl
  case recvwHeld => exact issue_held h (if_pos hnone) (by decide)
  case bara => exact completes_of_body (fun _ => rfl) (fun _ _ _ => rfl) fun c t h => arrive_of_none h
  case bar => exact completes_of_body (fun _ => rfl) (fun _ _ _ => rfl) fun c t h => by rw [arrive_of_none h]; rfl
  case baraTwice => exact traps_of_body (fun _ => rfl) (fun _ _ _ => rfl) fun c t h => arrive_of_isSome h
  case barTwice => exact traps_of_body (fun _ => rfl) (fun _ _ _ => rfl) fun c t h => by rw [arrive_of_isSome h]; rfl
  case barw => exact completes_of_body (fun _ => rfl) (fun _ t (h : vget t.net.bars n.toNat = none) => if_neg (by rw [h]; decide)) fun _ _ _ => rfl
  case barwHeld => exact issue_held h (if_pos hsome) (by decide)

end Sys2Proof.Machine

/-! PROOFS of the family 'other': Inkwell lanes (R383 to R387) -/

namespace Sys2Proof.Machine

/-! ### Lines of HBM (R421, R444) -/

/-- Reading sees only the cells of its range. -/
theorem readN_filter (m : Memory) (p : Host.Cell → Bool) (b k : Nat) (h : ∀ c : Host.Cell, b ≤ c.1 → c.1 < b + k → p c = true) :
    Memory.readN (m.filter p) b k = m.readN b k := by
  have hfold : ∀ (l : Memory) (w : Nat),
      (l.filter p).foldl (fun x c => if b ≤ c.1 ∧ c.1 < b + k then x + c.2.toNat <<< (8 * (c.1 - b)) else x) w
        = l.foldl (fun x c => if b ≤ c.1 ∧ c.1 < b + k then x + c.2.toNat <<< (8 * (c.1 - b)) else x) w := by
    intro l
    induction l with
    | nil => intro w; rfl
    | cons c l ih =>
      intro w
      by_cases hp : p c = true
      · rw [List.filter_cons_of_pos hp, List.foldl_cons, List.foldl_cons, ih]
      · rw [List.filter_cons_of_neg hp, ih, List.foldl_cons, if_neg fun hc => hp (h c hc.1 hc.2)]
  exact hfold m 0

/-- A write leaves what lies outside it. -/
theorem readN_writeN_outside (m : Memory) (a n v b k : Nat) (h : b + k ≤ a ∨ a + n ≤ b) : (m.writeN a n v).readN b k = m.readN b k := by
  have hbytes : ∀ c ∈ bytesOf a n v, ¬(b ≤ c.1 ∧ c.1 < b + k) := fun c hc => by
    have := bytesOf_bounds a n v c hc
    omega
  rcases h with h | h
  · have habove : ∀ c ∈ m.above (a + n), ¬(b ≤ c.1 ∧ c.1 < b + k) := fun c hc => by
      have := (List.mem_filter.1 hc).2
      simp only [decide_eq_true_eq] at this
      omega
    have hbelow : (m.below a).readN b k = m.readN b k := readN_filter m _ b k fun c _ hc => by simp only [decide_eq_true_eq]; omega
    rw [← hbelow, Memory.readN, Memory.writeN, List.foldl_append, List.foldl_append, foldl_outside _ b k _ hbytes, foldl_outside _ b k _ habove]
    rfl
  · have hbelow : ∀ c ∈ m.below a, ¬(b ≤ c.1 ∧ c.1 < b + k) := fun c hc => by
      have := (List.mem_filter.1 hc).2
      simp only [decide_eq_true_eq] at this
      omega
    have habove : (m.above (a + n)).readN b k = m.readN b k := readN_filter m _ b k fun c hc _ => by simp only [decide_eq_true_eq]; omega
    rw [← habove, Memory.readN, Memory.writeN, List.foldl_append, List.foldl_append, foldl_outside _ b k _ hbelow, foldl_outside _ b k _ hbytes]
    rfl

/-- Where no checkpoint is under way, a line is written under its lessee's version at once (R444, R484). -/
theorem writeLine_of_unguarded {s : State} {pa : Nat} (h : s.unguarded pa) (v : Nat) (poison : Bool) :
    s.writeLine pa v poison = s.putLine pa v poison := by
  have hck : (s.func (vget s.dram.chans (chanNum pa)).func).ckpt = none := h
  have hcopy : s.copyFirst pa = s := by
    simp only [State.copyFirst]
    rw [hck]
  rw [State.writeLine, hcopy]

/-- A line that has been written decrypts to what was written (R444). -/
theorem putLine_plain (s : State) (pa v : Nat) (poison : Bool) : (s.putLine pa v poison).plain pa = v % 2 ^ 512 := (seal_line s pa _ v poison).1

/-- Every other line stands as it did. -/
theorem putLine_cipher (s : State) (pa v : Nat) (poison : Bool) {y : Nat} (h : y / 64 ≠ pa / 64) : (s.putLine pa v poison).cipher y = s.cipher y :=
  readN_writeN_outside _ _ _ _ _ _ (by omega)

/-- A line with neither error nor pending-clear mark reads as it decrypts, with its poison mark (R421, R446). -/
theorem readLine_of_sound {s : State} {pa : Nat} (hclear : (vget s.dram.chans (chanNum pa)).pendingClear (chanLine pa) = false)
    (hfails : s.lineFails pa = false) (hsoft : chanLine pa ∉ (vget s.dram.chans (chanNum pa)).soft) :
    s.readLine pa = (s.plain pa, (vget s.dram.chans (chanNum pa)).poison.contains (chanLine pa), s) := by
  simp only [State.lineFails, hclear, Bool.not_false, Bool.true_and, Bool.or_eq_false_iff, List.contains_eq_mem, decide_eq_false_iff_not] at hfails
  obtain ⟨hbad, htag⟩ := hfails
  simp only [State.readLine, hclear, List.contains_eq_mem, decide_eq_false hbad, decide_eq_false hsoft, htag, Bool.false_eq_true, if_false]

/-! ### Inkwell slots (R384 to R387) -/

/-- The seven rows are the slot accesses of their functions. -/
theorem exec_inkwell {p : Nat × Instr} (hp : p ∈ [(1, Instr.inkwellFill), (2, .inkwellCopy), (3, .inkwellAxpby), (4, .inkwellSgdwf),
    (5, .inkwellMomwf), (6, .inkwellRqnt), (7, .inkwellDigest)]) (s : State) : exec p.2 s = inkSlots p.1 s := by
  simp only [List.mem_cons, List.not_mem_nil, or_false] at hp
  rcases hp with rfl | rfl | rfl | rfl | rfl | rfl | rfl <;> rfl

/-- No line in its slot, no access. -/
theorem inkSlots_idle {op : Nat} {s : State} {f : Folio} {t : Tile} {c : Ctx} (hat : s.at? = some (f, t, c))
    (h : t.ce.lines.filter (t.inkStarts op c.cyc) = []) : inkSlots op s = .next s := by
  simp only [inkSlots, hat, h, List.foldl_nil]

/-- One line in its slot is accessed. -/
theorem inkSlots_one {op : Nat} {s : State} {f : Folio} {t : Tile} {c : Ctx} {l : CeLine} (hat : s.at? = some (f, t, c))
    (h : t.ce.lines.filter (t.inkStarts op c.cyc) = [l]) : inkSlots op s = .next (s.inkAccess s.cursor.folio s.cursor.tile t l) := by
  obtain ⟨hf, ht, -⟩ := at?_eq_some_iff.1 hat
  simp only [inkSlots, hat, h, List.foldl_cons, List.foldl_nil, hf, Option.bind_some, ht]

section
variable {s : State} {f i : Nat} {t : Tile} {l : CeLine} {m : CeCmd} {k : Ink}

/-- A line that an Inkwell reads gives its data to its item (R384). -/
theorem inkAccess_read (hm : t.cmdOf l = some m) (hk : m.kind = .ink k) (hroute : l.route = .inkRead) (hidx : l.idx < ikLimit m.desc k) :
    s.inkAccess f i t l = (s.readLine l.pa).2.2.onFolio f fun g => g.onTile i fun t => t.inkGot l (s.readLine l.pa).1 (s.readLine l.pa).2.1 := by
  simp only [State.inkAccess, hm, hroute, if_true, hk]
  exact if_neg (by omega)

/-- A bound write of an item that is no longer to be written does nothing (R387). -/
theorem inkAccess_none (hm : t.cmdOf l = some m) (hroute : l.route ≠ .inkRead) (hstore : m.inkStore l = none) : s.inkAccess f i t l = s := by
  simp only [State.inkAccess, hm, hroute, if_false, hstore]

/-- A bound write stores its item's line (R384). -/
theorem inkAccess_write {x : Nat × List Nat × Bool} (hm : t.cmdOf l = some m) (hroute : l.route ≠ .inkRead) (hstore : m.inkStore l = some x) :
    s.inkAccess f i t l = (s.writeLine l.pa x.1 false).onFolio f fun g => g.onTile i fun t => t.inkWrote l x.2.1 x.2.2 := by
  simp only [State.inkAccess, hm, hroute, if_false, hstore]

end

/-- The line that a write of an item stores is the item's function value (R384). -/
theorem inkStore_fst {m : CeCmd} {i : Ink} {l : CeLine} {x : InkItem} (hk : m.kind = .ink i) (hidx : l.idx < ikLimit m.desc i)
    (hx : i.items.find? (fun x => x.item == l.idx) = some x) :
    (m.inkStore l).map (fun p => p.1) = some ((ikOut m.desc x.data).1.getD l.off 0) := by
  rw [CeCmd.inkStore, hk]
  simp only [if_neg (show ¬ikLimit m.desc i ≤ l.idx by omega), hx, Option.map_some]

/-- A poisoned line fails its command at its item (R387). -/
theorem inkGot_poisoned {t : Tile} {l : CeLine} {m : CeCmd} {i : Ink} (v : Nat) (hm : t.ce.cmds = [m]) (hid : m.id = l.cmd)
    (hk : m.kind = .ink i) (hidx : l.idx < ikLimit m.desc i) (hfail : i.fail = none) (hop : ikOp m.desc ≠ 7) :
    ∃ m' i', (t.inkGot l v true).ce.cmds = [m'] ∧ m'.kind = .ink i' ∧ i'.fail = some (l.idx, 1) := by
  refine ⟨{ m with kind := .ink (({ i with lastRead := some (max l.start (i.lastRead.getD 0)) } : Ink).failAt l.idx 1) }, _, ?_, rfl, ?_⟩
  case refine_1 =>
    simp only [Tile.inkGot, Tile.onCmd, hm, List.map_cons, List.map_nil, hid, beq_self_eq_true, if_true, hk,
      if_neg (show ¬ikLimit m.desc i ≤ l.idx by omega), if_neg hop]
  case refine_2 => simp [Ink.failAt, hfail]

/-! ### Inkwell functions (R384) -/

/-- A status word without events has no event bits (R386). -/
theorem ikStatus_events {i : Ink} (h : i.ev = []) : (i.ev.eraseDups.map fun c => 2 ^ (8 + c)).sum = 0 := by
  rw [h, List.eraseDups_nil, List.map_nil, List.sum_nil]

/-- The status word of the tile's one command lands in its completion cycle (R386). -/
theorem exec_inkwellStatus {s : State} {f : Folio} {t : Tile} {c : Ctx} {m : CeCmd} {i : Ink} (hat : s.at? = some (f, t, c))
    (hm : t.ce.cmds = [m]) (hk : m.kind = .ink i) : exec .inkwellStatusLanding s = .next (s.putTile f
      (if m.e = some c.cyc then (t.store (ikSt m.desc) 8 (ikStatus m.desc i)).wroteBy (ikSt m.desc) 8 255 255 8 else t)) := by
  simp only [exec, execInkwellStatusLanding, hat, Tile.inkStatuses, hm, List.foldl_cons, List.foldl_nil, hk]

/-- Settles O51: a row serves the line in its slot, and each function's case of ikOut is its formula. -/
theorem inkwellLanesPerform : Obligations.InkwellLanesPerform := by
  refine ⟨fun p hp s f t c hat => ⟨fun hidle => ?idle, fun l m i hline hm hk => ⟨fun hroute hidx hclear hfails hsoft => ?read,
      fun hroute hstore => ?skip, fun x hroute hstore hck => ?write⟩⟩, fun m i l x hk hidx hx => inkStore_fst hk hidx hx,
    fun t l m i v hm hid hk hidx hfail hop => inkGot_poisoned v hm hid hk hidx hfail hop, fun d x a b g => ?functions, fun d data hop => ?rqnt,
    fun s f t c m i hat hm hk => ⟨fun he => ?early, fun he => ?status, fun hfail hev => ?done, fun x hfail hev => ?failed⟩⟩
  case idle => rw [exec_inkwell hp, inkSlots_idle hat hidle]
  case read =>
    rw [exec_inkwell hp, inkSlots_one hat hline, inkAccess_read hm hk hroute hidx, readLine_of_sound hclear hfails hsoft]
  case skip => rw [exec_inkwell hp, inkSlots_one hat hline, inkAccess_none hm hroute hstore]
  case write =>
    refine ⟨(s.putLine l.pa x.1 false).onFolio s.cursor.folio fun g => g.onTile s.cursor.tile fun t => t.inkWrote l x.2.1 x.2.2,
      by rw [exec_inkwell hp, inkSlots_one hat hline, inkAccess_write hm hroute hstore, writeLine_of_unguarded hck],
      putLine_plain s l.pa x.1 false, fun y hy => putLine_cipher s l.pa x.1 false hy, rfl⟩
  case functions =>
    refine ⟨fun h => ?_, fun h => ?_, fun h => ?_, fun h => ?_, fun h => ?_, fun h => ?_⟩
    · simp only [ikOut, h]
    · simp only [ikOut, h]; rfl
    · simp only [ikOut, h]; rfl
    · simp only [ikOut, h]; rfl
    · simp only [ikOut, h]; rfl
    · simp only [ikOut, h]; rfl
  case rqnt =>
    simp only [ikOut, hop, bitsAt_eq_div_mod]
  case early => rw [exec_inkwellStatus hat hm hk, if_neg he]
  case status => rw [exec_inkwellStatus hat hm hk, if_pos he]
  case done => rw [ikStatus, ikStatus_events hev, hfail, Nat.add_zero]
  case failed => rw [ikStatus, ikStatus_events hev, hfail, Nat.add_zero, ← Nat.add_assoc]

end Sys2Proof.Machine

/-! PROOFS of the family 'other': lines in their slots and landings (R121 to R130, R364, R382) -/

namespace Sys2Proof.Machine

/-! ### Slots of HBM (R126, R321, R421, R444) -/

/-- The one line of a tile performs in its HBM slot. -/
theorem exec_hbmSlot {s : State} {f : Folio} {t : Tile} {c : Ctx} {l : CeLine} (hat : s.at? = some (f, t, c)) (hl : t.ce.lines = [l])
    (hstart : l.startsAt c.cyc = true) (hcmd : (t.cmdOf l).isSome = true) :
    exec .hbmSlotAccess s = .next (if inHostWindow l.pa then s else s.slotAccess s.cursor.folio s.cursor.tile l) := by
  change execHbmSlotAccess s = _
  rw [execHbmSlotAccess, hat]
  simp only [hl, List.foldl_cons, List.foldl_nil, hstart, hcmd, Bool.true_and, Bool.and_true]
  cases inHostWindow l.pa <;> rfl

/-- The channel of a line after it has been written (R421, R444, R477). -/
theorem putLine_chan (s : State) (pa v : Nat) (poison : Bool) : ∃ tag, vget (s.putLine pa v poison).dram.chans (chanNum pa)
    = (vget s.dram.chans (chanNum pa)).wrote (chanLine pa) (s.func (vget s.dram.chans (chanNum pa)).func).writeVersion tag poison := by
  have hch : chanNum pa < 256 := Nat.mod_lt _ (by norm_num)
  exact ⟨_, State.chan_onChan _ _ _ hch⟩

/-- A written line stands under its writer's version. -/
theorem wrote_version (ch : Chan) (l ver tag : Nat) (poison : Bool) : (ch.wrote l ver tag poison).version l = ver := by
  simp [Chan.version, Chan.meta, Chan.wrote, Chan.settleClr]

/-- A line written poisoned is marked. -/
theorem wrote_poison (ch : Chan) (l ver tag : Nat) : l ∈ (ch.wrote l ver tag true).poison := by
  simp only [Chan.wrote, Chan.settleClr, if_true, addMark]
  split
  case isTrue h => simpa using h
  case isFalse => exact List.mem_cons_self ..

/-- A read of a pending-clear line gives zeros (R421). -/
theorem readLine_of_clear {s : State} {pa : Nat} (h : (vget s.dram.chans (chanNum pa)).pendingClear (chanLine pa) = true) :
    s.readLine pa = (0, false, s) := by
  simp only [State.readLine, h, if_true]

/-! ### Host slots (R130, R324, R425) -/

/-- The request that a line sends in its host slot (R130, R324). -/
def hostRequest (s : State) (f : Folio) (l : CeLine) : HostRead :=
  { id := s.readCtr, folio := f.place.idx, world := f.place.func, addr := s.hostAddr f.place.func l.pa, data := none, got := none
    write := if l.route = .write then some (l.data, l.poison != 0) else none }

/-- The one line of a tile performs in its host slot. -/
theorem exec_hostSlot {s : State} {f : Folio} {t : Tile} {c : Ctx} {l : CeLine} (hat : s.at? = some (f, t, c)) (hl : t.ce.lines = [l])
    (hstart : l.startsAt c.cyc = true) (hcmd : (t.cmdOf l).isSome = true) :
    exec .hostSlotAccess s = .next (if inHostWindow l.pa then s.hostAccess f s.cursor.tile l else s) := by
  change execHostSlotAccess s = _
  rw [execHostSlotAccess, hat]
  simp only [hl, List.foldl_cons, List.foldl_nil, hstart, hcmd, Bool.true_and, Bool.and_true]

/-- A posted host write leaves no request of its tile behind. -/
theorem hostAccess_write {s : State} {f : Folio} {i : Nat} {l : CeLine} (h : l.route = .write) :
    s.hostAccess f i l = ({ s.keepRead (hostRequest s f l) with readCtr := s.readCtr + 1 } : State).serveReads := by
  rw [State.hostAccess, if_pos h]
  rfl

/-- A host read marks its line as awaiting a completion (R505). -/
theorem hostAccess_read {s : State} {f : Folio} {i : Nat} {l : CeLine} (h : l.route ≠ .write) :
    ∃ g : Folio → Folio, s.hostAccess f i l
      = (({ s.keepRead (hostRequest s f l) with readCtr := s.readCtr + 1 } : State).serveReads).onFolio f.place.idx g := by
  rw [State.hostAccess, if_neg h]
  exact ⟨_, rfl⟩

/-- Behind reads that have come the host-slot engine serves the new request at once (R324). -/
theorem serveReads_behind_done {s : State} (h : ∀ r ∈ s.hostReads, r.got.isSome = true) (r : HostRead) (n : Nat) :
    ({ s.keepRead r with readCtr := n } : State).serveReads = ({ s with readCtr := n } : State).sendReads none [r] := by
  rw [State.serveReads]
  exact sendReads_next s.hostReads h r { s with hostReads := [], readCtr := n }

/-- A new host write that is served at once (R324, R476). -/
theorem sendReads_write {s : State} {r : HostRead} {x : Nat × Bool} (hgot : r.got = none) (hw : r.write = some x) :
    s.sendReads none [r] = s.writeHost r.addr 64 x.1 x.2 := by
  simp only [State.sendReads, hgot, Option.isSome_none, Bool.false_eq_true, if_false, Option.getD_none, ne_eq, not_true_eq_false, hw]

/-- A new host read that is served at once takes the host's bytes of that moment (R324). -/
theorem sendReads_read {s : State} {r : HostRead} (hgot : r.got = none) (hw : r.write = none) :
    s.sendReads none [r] = s.keepRead { r with data := r.data.or (some (s.hostMem.readN r.addr 64)) } := by
  simp only [State.sendReads, hgot, Option.isSome_none, Bool.false_eq_true, if_false, Option.getD_none, ne_eq, not_true_eq_false, hw]

/-- Behind a read of another world that is under way a request waits (R425). -/
theorem serveReads_other_world {s : State} {r q : HostRead} {n : Nat} (hr : s.hostReads = [r]) (hgot : r.got = none) (hdata : r.data.isSome = true)
    (hw : r.write = none) (hqgot : q.got = none) (hworld : r.world ≠ q.world) :
    ({ s.keepRead q with readCtr := n } : State).serveReads = { s with readCtr := n, hostReads := [r, q] } := by
  have hkept : ({ r with data := r.data.or (some (s.hostMem.readN r.addr 64)) } : HostRead) = r := by
    cases r
    simp only [HostRead.mk.injEq, true_and, and_true]
    exact Option.or_of_isSome hdata
  simp only [State.serveReads, State.keepRead, hr, List.cons_append, List.nil_append, State.sendReads, Option.isSome_none, hgot, hw, hqgot,
    Bool.false_eq_true, if_false, Option.getD_none, ne_eq, not_true_eq_false, Option.getD_some, hworld, not_false_eq_true, if_true]
  rw [← hgot, ← hw, hkept]

/-! ### Landings (R121, R364, R370) -/

/-- Lines of the tile's commands that land. -/
theorem exec_lineLanding {s : State} {f : Folio} {t : Tile} {c : Ctx} (hat : s.at? = some (f, t, c)) :
    exec .lineLanding s = .next (s.setFolio (s.landLines f t c)) := by
  change execLineLanding s = _
  rw [execLineLanding, hat]

theorem setForms_mem (st : Stores) (l n form : Nat) : (st.setForms l n form).mem = st.mem := by
  induction n generalizing st l with
  | zero => rfl
  | succ n ih => rw [Stores.setForms, ih]

theorem store_mem (t : Tile) (a n v : Nat) : (t.store a n v).stores.mem = t.stores.mem.writeN a n v := by
  rw [Tile.store, (clean_frame t.stores a n).1]

/-- A sound line that lands fills its bytes (R364). -/
theorem landLine_mem (t : Tile) (off len v form : Nat) : (t.landLine off len v 0 form).stores.mem = t.stores.mem.writeN off len v := by
  simp only [Tile.landLine, if_true]
  split
  · exact (setForms_mem ..).trans (store_mem ..)
  · exact store_mem ..

/-- Changing one tile by a function of it sets that tile. -/
theorem lmap_eq_set {α : Type} {l : List α} {i : Nat} {a : α} (h : α → α) (ha : l[i]? = some a) : lmap l i h = l.set i (h a) := by
  refine List.ext_getElem? fun j => ?_
  by_cases hj : j = i
  · subst hj
    have hlt := (List.getElem?_eq_some_iff.mp ha).1
    rw [lmap_get_eq, ha, List.getElem?_set_self hlt, Option.map_some]
  · rw [lmap_get_ne l i j h hj, List.getElem?_set_ne (Ne.symm hj)]

/-- The folio is not late where no tile is. -/
theorem any_lateTile_eq_false {s : State} {f : Folio} (h : ∀ (i : Nat) (t : Tile), f.tiles[i]? = some t → s.lateTile f i t = false) :
    (f.tiles.zipIdx.any fun p => s.lateTile f p.2 p.1) = false := by
  rw [List.any_eq_false]
  rintro ⟨t, i⟩ hp
  rw [h i t (List.mem_zipIdx_iff_getElem?.mp hp)]
  decide

/-- The folio is late where a tile is. -/
theorem any_lateTile_eq_true {s : State} {f : Folio} {i : Nat} {t : Tile} (ht : f.tiles[i]? = some t) (h : s.lateTile f i t = true) :
    (f.tiles.zipIdx.any fun p => s.lateTile f p.2 p.1) = true :=
  List.any_eq_true.mpr ⟨(t, i), List.mem_zipIdx_iff_getElem?.mpr ht, h⟩

/-- Nothing is counted where no tile is late. -/
theorem countLate_eq_self {s : State} {f : Folio} (h : ∀ (i : Nat) (t : Tile), f.tiles[i]? = some t → s.lateTile f i t = false) :
    s.countLate f = f := by
  rw [State.countLate]
  split
  · rfl
  · have htiles : (f.tiles.zipIdx.map fun p =>
        if s.lateTile f p.2 p.1 then { p.1 with prof := { p.1.prof with late := p.1.prof.late + 1 } } else p.1) = f.tiles := by
      calc _ = f.tiles.zipIdx.map Prod.fst := List.map_congr_left fun p hp => by
            rw [h p.2 p.1 (List.mem_zipIdx_iff_getElem?.mp hp), if_neg Bool.false_ne_true]
        _ = f.tiles := List.zipIdx_map_fst ..
    simp only [htiles]

/-- The freeze step of a folio (R121). -/
theorem exec_lateLandingFreeze {s : State} {f : Folio} (hf : s.folio? s.cursor.folio = some f) {late : Bool}
    (h : (f.tiles.zipIdx.any fun p => s.lateTile f p.2 p.1) = late) :
    exec .lateLandingFreeze s = .next (
      let s' := s.setFolio { s.countLate f with freeze := { f.freeze with late := late } }
      if late then { s' with agenda := s'.agenda.filter fun x => !x.ofFolio f.place.idx } else s') := by
  change execLateLandingFreeze s = _
  rw [execLateLandingFreeze, hf]
  simp only [h]

/-- Counting late landings leaves the folio's cycle. -/
theorem countLate_cycle (s : State) (f : Folio) : (s.countLate f).cycle = f.cycle := by
  rw [State.countLate]
  split <;> rfl

/-- The result of a collective, as it lands (R382). -/
theorem exec_collResult {s : State} {f : Folio} {t : Tile} {c : Ctx} {m : CeCmd} {n : Nat} (hat : s.at? = some (f, t, c)) (hm : t.ce.cmds = [m])
    (hk : m.kind = .coll n) (he : m.e = some c.cyc) (hstop : m.stop = none) :
    exec .collResultLanding s = .next (s.setFolio (f.collLand s.far s.cursor.tile c.cyc m n)) := by
  change execCollResultLanding s = _
  rw [execCollResultLanding, hat]
  simp only [hm, List.foldl_cons, List.foldl_nil, hk, he, hstop, Option.isNone_none, and_self, if_true]

section
variable {s : State} {f : Folio} {t : Tile} {m : CeCmd} {n : Nat} {sh : Share} {k : Nat}

/-- A collective that fails stops its command (R381). -/
theorem collLand_error {x : Nat × Nat} (ht : f.tiles[s.cursor.tile]? = some t) (hsh : t.ce.shares.find? (fun x => x.num == n) = some sh)
    (hr : f.collResult s.far (s.cursor.tile % f.place.w) (s.cursor.tile / f.place.w) m sh k = .error x) :
    f.collLand s.far s.cursor.tile k m n = f.onTile s.cursor.tile fun t => t.stopCmd m.id 0 (raiseEnd x.1 x.2 0) := by
  simp only [Folio.collLand, Folio.onTile, lmap_eq_set _ ht, hsh, hr]

/-- The line that a collective's result becomes (R382). -/
def collLine (f : Folio) (i k : Nat) (m : CeCmd) (sh : Share) (data : Nat) (marked : List Nat) : CeLine :=
  { cmd := m.id, idx := 0, route := .mesh, start := k, land := k, pa := 0, off := sh.dst, len := clBytes m.desc, data := data
    poison := elemMarks sh.dst (elemBits (clEf m.desc) / 8) marked, targets := [(i % f.place.w, i / f.place.w)], got := [], outside := none }

/-- A collective that succeeds lands its result as a line (R382). -/
theorem collLand_ok {r : Nat × List Nat × List (Nat × Nat)} (ht : f.tiles[s.cursor.tile]? = some t)
    (hsh : t.ce.shares.find? (fun x => x.num == n) = some sh)
    (hr : f.collResult s.far (s.cursor.tile % f.place.w) (s.cursor.tile / f.place.w) m sh k = .ok r) :
    s.setFolio (f.collLand s.far s.cursor.tile k m n) = s.putTile f { t with
      ce := { t.ce with lines := t.ce.lines ++ [collLine f s.cursor.tile k m sh r.1 r.2.1], parts := t.ce.parts.filter fun x => x.1 != n }
      evNow := t.evNow ++ if r.2.2.isEmpty then [] else [(4, sh.issue, r.2.2)] } := by
  simp only [Folio.collLand, Folio.onTile, lmap_eq_set _ ht, hsh, hr, State.putTile]
  split
  · rw [List.append_nil]; rfl
  · rfl

end

/-- Settles O50: slots, landings and the freeze, each by the equation of its row. -/
theorem linesPerformAndLand : Obligations.LinesPerformAndLand := by
  refine ⟨fun s f t c l hat hl hstart hcmd => ⟨fun hout hroute hck => ?write, fun hout hroute hclear => ?clear, fun hout hroute hsound => ?read,
      fun hin => ?hbmIdle, fun hout => ?hostIdle, fun hin => ⟨fun hdone => ⟨fun hroute hpoison => ?hostWrite, fun hroute hpoison => ?hostPoison,
        fun hroute => ?hostRead⟩, fun r hr hgot hdata hw hworld => ?hostWait⟩⟩,
    fun s f t c l m hat hl hcmd hfn => ⟨fun hland => ?notYet, fun hland hroute hbad => ?landBad, fun hland hroute hbad hout => ?landRead,
      fun x hland hroute hbad hout htargets => ?landMesh⟩, landLine_mem,
    fun s f hf => ⟨fun h => ?inTime, fun i t ht h => ?late⟩, fun s f t c hat => ?posted,
    fun s f g hf hg => ⟨fun hland => ?signalNot, fun hland => ?signal⟩,
    fun s f t c m n sh hat hm hk he hstop hsh => ⟨fun x hr => ?collError, fun r hr => ?collOk⟩⟩
  case write =>
    obtain ⟨tag, hchan⟩ := putLine_chan s l.pa l.data (l.poison != 0)
    have hexec : exec .hbmSlotAccess s = .next (s.putLine l.pa l.data (l.poison != 0)) := by
      rw [exec_hbmSlot hat hl hstart hcmd, hout, State.slotAccess, if_pos hroute, writeLine_of_unguarded hck]
      rfl
    refine ⟨_, hexec, putLine_plain .., by rw [hchan, wrote_version], fun hp hkey => ?_, fun hp => ?_, fun x hx => putLine_cipher _ _ _ _ hx, rfl, rfl⟩
    · exact (seal_line s l.pa _ l.data (l.poison != 0)).2 hkey (by simp [hp])
    · rw [hchan, show (l.poison != 0) = true by simpa using hp]
      exact wrote_poison ..
  case clear =>
    rw [exec_hbmSlot hat hl hstart hcmd, hout, State.slotAccess, if_neg hroute, readLine_of_clear hclear]
    rfl
  case read =>
    rw [exec_hbmSlot hat hl hstart hcmd, hout, State.slotAccess, if_neg hroute, readLine_sound hsound]
    rfl
  case hbmIdle => rw [exec_hbmSlot hat hl hstart hcmd, if_pos hin]
  case hostIdle => rw [exec_hostSlot hat hl hstart hcmd, hout, if_neg Bool.false_ne_true]
  case hostWrite =>
    rw [exec_hostSlot hat hl hstart hcmd, if_pos hin, hostAccess_write hroute, serveReads_behind_done hdone,
      sendReads_write (x := (l.data, l.poison != 0)) rfl (if_pos hroute)]
    simp only [State.writeHost, hpoison]
    rfl
  case hostPoison =>
    have hexec : exec .hostSlotAccess s
        = .next (({ s with readCtr := s.readCtr + 1 } : State).writeHost (s.hostAddr f.place.func l.pa) 64 l.data true) := by
      rw [exec_hostSlot hat hl hstart hcmd, if_pos hin, hostAccess_write hroute, serveReads_behind_done hdone,
        sendReads_write (x := (l.data, l.poison != 0)) rfl (if_pos hroute), show (l.poison != 0) = true by simpa using hpoison]
      rfl
    refine ⟨_, hexec, ?_, rfl, rfl, fun x hx => Memory.read_writeN_of_outside _ _ _ _ _ hx⟩
    simp only [State.writeHost, if_true, addMark]
    split
    case isTrue h => simpa using h
    case isFalse => exact List.mem_cons_self ..
  case hostRead =>
    obtain ⟨g, hg⟩ := hostAccess_read (s := s) (f := f) (i := s.cursor.tile) hroute
    have hexec := exec_hostSlot hat hl hstart hcmd
    rw [if_pos hin, hg, serveReads_behind_done hdone, sendReads_read rfl (if_neg hroute)] at hexec
    refine ⟨_, hexec, ?_, rfl, rfl⟩
    simp only [State.onFolio, State.keepRead, hostRequest, if_neg hroute, Option.none_or]
  case hostWait =>
    have hserve := serveReads_other_world (q := hostRequest s f l) (n := s.readCtr + 1) hr hgot hdata hw rfl hworld
    have hexec := exec_hostSlot hat hl hstart hcmd
    rw [if_pos hin] at hexec
    by_cases hroute : l.route = .write
    · rw [hostAccess_write hroute, hserve] at hexec
      exact ⟨_, hexec, rfl, rfl, rfl⟩
    · obtain ⟨g, hg⟩ := hostAccess_read (s := s) (f := f) (i := s.cursor.tile) hroute
      rw [hg, hserve] at hexec
      exact ⟨_, hexec, rfl, rfl, rfl⟩
  case notYet =>
    rw [exec_lineLanding hat]
    simp only [State.landLines, hl, List.foldl_cons, List.foldl_nil, hcmd]
    rw [if_pos (.inl hland)]
  case landBad =>
    rw [exec_lineLanding hat]
    simp only [State.landLines, hl, List.foldl_cons, List.foldl_nil, hcmd]
    rw [if_neg (by simp [hland, hfn])]
    simp [hroute, hbad]
  case landRead =>
    rw [exec_lineLanding hat]
    simp only [State.landLines, hl, List.foldl_cons, List.foldl_nil, hcmd]
    rw [if_neg (by simp [hland, hfn])]
    simp [hroute, hbad, hout, State.lineData]
  case landMesh =>
    rw [exec_lineLanding hat]
    simp only [State.landLines, hl, List.foldl_cons, List.foldl_nil, hcmd]
    rw [if_neg (by simp [hland, hfn])]
    simp [hroute, hbad, hout, htargets, State.lineData]
  case inTime =>
    refine ⟨_, exec_lateLandingFreeze hf (any_lateTile_eq_false h), rfl, ?_⟩
    rw [countLate_eq_self h]
    rfl
  case late =>
    refine ⟨_, { s.countLate f with freeze := { f.freeze with late := true } }, exec_lateLandingFreeze hf (any_lateTile_eq_true ht h), rfl, rfl, rfl,
      by simp [Folio.running], countLate_cycle s f⟩
  case posted => exact (show execPostedWriteCompletion s = _ by rw [execPostedWriteCompletion, hat])
  case signalNot =>
    have hne : (g.land == f.cycle) = false := by simpa using hland
    change execCompletionSignalWrite s = _
    rw [execCompletionSignalWrite, hf]
    simp only [Folio.landSignals, hg, List.filter_cons, hne, bne, Bool.not_false, List.filter_nil, Bool.false_eq_true, if_false, if_true,
      List.foldl_nil]
    rw [← hg]
  case signal =>
    have heq : (g.land == f.cycle) = true := by simpa using hland
    change execCompletionSignalWrite s = _
    rw [execCompletionSignalWrite, hf]
    simp only [Folio.landSignals, hg, List.filter_cons, heq, bne, Bool.not_true, List.filter_nil, Bool.false_eq_true, if_false, if_true,
      List.foldl_cons, List.foldl_nil]
    rfl
  case collError =>
    obtain ⟨-, ht, -⟩ := at?_eq_some_iff.1 hat
    rw [exec_collResult hat hm hk he hstop, collLand_error ht hsh hr]
  case collOk =>
    obtain ⟨-, ht, -⟩ := at?_eq_some_iff.1 hat
    exact ⟨collLine f s.cursor.tile c.cyc m sh r.1 r.2.1, rfl, rfl, rfl, rfl, rfl, rfl, rfl,
      by rw [exec_collResult hat hm hk he hstop, collLand_ok ht hsh hr]⟩

end Sys2Proof.Machine

/-! PROOFS of the family 'other': the mesh (R131, R350, R475) -/

namespace Sys2Proof.Machine

/-! ### An atomic's request that the landing buffer could not correct -/

/-- A request for the word at 0 that is uncorrectable, which its home discards with cause 84 (R475). -/
def brokenRequest : Flit :=
  { srcX := 0, srcY := 0, tgts := [(0, 0)], born := 0, bad := true, pay := .request 0 .xchg 0 32 0 0 0 ⟨0, false⟩ }

/-- A tile to which that request has come. -/
def brokenRequestFolio : Folio :=
  let f := folioOfWords .ap (encode (.nop))
  { f with tiles := f.tiles.map fun t => t.onRouter fun r => { r with out := [brokenRequest] } }

def brokenRequestState : State := { State.reset with folios := [brokenRequestFolio], cursor := ⟨0, 0, .ap, 0⟩ }

/-- The flits that each tile of a state has received and those that it will send. -/
def routerLoads (s : State) : List (List (Nat × Nat)) :=
  s.folios.map fun f => f.tiles.map fun t => (t.net.router.out.length, t.net.router.inj.length)

/-- Refutes O53: a remote atomic whose request is uncorrectable is discarded at its home (R475), which answers nothing; the
clause of the home takes no hypothesis that the request is sound. -/
theorem not_meshStepsPerform : ¬ Obligations.MeshStepsPerform := by
  rintro ⟨-, -, hhome, -⟩
  obtain ⟨f, t, c, hat, hout, hsound⟩ : ∃ f t c, brokenRequestState.at? = some (f, t, c) ∧ t.net.router.out = [brokenRequest]
      ∧ t.badWord 0 (32 / 8) = none := ⟨_, _, _, rfl, rfl, by decide +kernel⟩
  obtain ⟨f', t', hexec, ht', ⟨e, hinj, -⟩, hempty, -⟩ := hhome brokenRequestState f t c brokenRequest 0 0 32 0 0 0 .xchg ⟨0, false⟩ hat hout rfl hsound
  obtain ⟨u, hexec', hloads⟩ : ∃ u, exec .ratomHomePerform brokenRequestState = .next u ∧ routerLoads u = [[(0, 0)]] :=
    ⟨_, rfl, by decide +kernel⟩
  obtain rfl : u = brokenRequestState.setFolio f' := Host.Outcome.next.inj (hexec'.symm.trans hexec)
  change [if brokenRequestFolio.place.idx == f'.place.idx then f' else brokenRequestFolio].map _ = _ at hloads
  split at hloads
  case isTrue =>
    have htiles : f'.tiles.map (fun t => (t.net.router.out.length, t.net.router.inj.length)) = [(0, 0)] := List.singleton_inj.1 hloads
    have hmem := List.mem_map_of_mem (f := fun t : Tile => (t.net.router.out.length, t.net.router.inj.length)) (List.mem_of_getElem? ht')
    rw [htiles, List.mem_singleton, hinj, List.length_append] at hmem
    exact absurd (Prod.mk.inj hmem).2 (Nat.succ_ne_zero _)
  case isFalse => exact absurd hloads (by decide +kernel)

end Sys2Proof.Machine

/-! PROOFS of the family 'other': completions with an interrupt (R163, R503) -/

namespace Sys2Proof.Machine

/-! ### A completion whose interrupt is written to the host's memory (R163, R503)

The words of R163 raise LQDONE where the record asks for it. Its vector is a message that the hub writes to the host's memory, so that
memory then differs by more than the completion record, which the statements exclude. -/

/-- The machine after reset with vector 0 of function 0 unmasked, which writes 1 to host address 4096. -/
def signalledState : State :=
  State.reset.onFunc 0 fun r => { r with msix := vset r.msix 0 ⟨4096, 1, false⟩ }

/-- Launch queue 0 of function 0 with rings of 16 places, its record 0 next to complete. -/
def openQueue : LaunchQueue := { LaunchQueue.zero 0 0 with log := 4, en := true }

/-- A footprint of one tile that awaits its release, whose completion asks for an interrupt. -/
def signalledRelease : Release :=
  { place := { idx := 0, w := 1, h := 1, seam := 0, orient := 0, px0 := 0, py0 := 0, func := 0, chans := [] }, job := 0, cycle := 0
    done := some (0, 0, ⟨0, 0, 0, 0, 0, true, 0, 0⟩), stops := [] }

/-- A state in which that footprint is due. -/
def releaseState : State := { signalledState with queues := [{ openQueue with head := 1 }], releasing := [signalledRelease] }

/-- Refutes O55: the release writes the completion record, and then the message of the interrupt for which the record asks. -/
theorem not_folioEndsComplete : ¬ Obligations.FolioEndsComplete := by
  rintro ⟨-, -, -, -, -, -, -, hrelease, -⟩
  obtain ⟨s', hexec, -, ⟨-, hmem⟩, -⟩ := hrelease releaseState signalledRelease 0 0 _ rfl rfl rfl rfl ⟨rfl, rfl, rfl, by decide⟩ (by decide +kernel)
    (by simp [releaseState, signalledState, State.onFunc, State.reset])
  obtain rfl : s' = releaseState.release := (Host.Outcome.next.inj hexec).symm
  have hbyte := congrArg (Memory.read · 4096) hmem
  exact absurd hbyte (by decide +kernel)

/-- A state in which queue 0's record 0, malformed and asking for an interrupt, has been granted: of its 64 bytes at 65536 only bit 9
is set. -/
def malformedState : State :=
  { signalledState with
    queues := [{ openQueue with base := 65536, tail := 1 }], hostMem := [(65537, 2)], arb := { State.reset.arb with granted := some 0 } }

/-- Refutes O56: a malformed record completes with status 6, and then the message of the interrupt for which it asks is written. -/
theorem not_recordsComplete : ¬ Obligations.RecordsComplete := by
  rintro ⟨hrecord, -⟩
  obtain ⟨hmalformed, -⟩ := hrecord malformedState 0 rfl (by decide +kernel) ⟨rfl, rfl, rfl, by decide⟩
  obtain ⟨s', hexec, -, -, -, hmem⟩ := hmalformed (by decide +kernel)
  obtain ⟨u, hexec', hsent⟩ : ∃ u, exec .launchRecord malformedState = .next u ∧ u.hostMem.read 4096 = 1 :=
    ⟨_, rfl, by decide +kernel⟩
  obtain rfl : u = s' := Host.Outcome.next.inj (hexec'.symm.trans hexec)
  rw [hmem] at hsent
  exact absurd hsent (by decide +kernel)

end Sys2Proof.Machine

/-! PROOFS of the family 'other': Signet's interrupt (R451, R503) -/

namespace Sys2Proof.Machine

/-! ### A Signet command's interrupt that is written to the host's memory (R451, R503) -/

/-- The machine after reset with a job 0 of function 0 and vector 3 of function 0 unmasked. -/
def signetState : State :=
  let s := State.reset.onFunc 0 fun r => { r with msix := vset r.msix 3 ⟨4096, 1, false⟩ }
  { s with trust := { s.trust with jobs := [{ (default : Job) with func := 0, job := 0 }] } }

/-- Refutes O60: the vector that a Signet command signals at its end pends only where it is masked; an unmasked one is sent, and then
does not pend. -/
theorem not_trustAndDeviceComplete : ¬ Obligations.TrustAndDeviceComplete := by
  rintro ⟨hsignet, -⟩
  obtain ⟨-, hjob, -⟩ := hsignet signetState (by decide)
  obtain ⟨j, hj⟩ : ∃ j, signetState.jobOf signetState.cursor.func (signetState.func signetState.cursor.func).sgnJob = some j := ⟨_, rfl⟩
  obtain ⟨⟨s', hexec, -, hpends, -⟩, -⟩ := hjob j hj
  obtain ⟨u, hexec', hnone⟩ : ∃ u, exec .signetEvidence signetState = .next u ∧ (u.func 0).pending = [] := ⟨_, rfl, rfl⟩
  obtain rfl : u = s' := Host.Outcome.next.inj (hexec'.symm.trans hexec)
  change 3 ∈ (u.func 0).pending at hpends
  rw [hnone] at hpends
  exact absurd hpends (List.not_mem_nil)

end Sys2Proof.Machine

/-! PROOFS of the family 'other': fetch (R39 to R51, R137, R138, R199) -/

namespace Sys2Proof.Machine

/-! ### The words of a line (R39 to R51) -/

/-- The entry of a short word in a lane of a line. -/
def shortEntry (l : Line) (m seq disp n : Nat) : Entry :=
  { line := m, lane := n, seq := seq + n, w0 := lane l n, w1 := 0, disp := disp, marker := none, arms := [] }

theorem queueOf_eq_sq_iff (n : Nat) : queueOf n = some .sq ↔ n = 1 := by
  unfold queueOf
  split <;> simp_all

/-- No PENLIFT stands in SQ's lanes of some, so that the walk counts none (R45). -/
theorem walkLanes_pens {l : Line} {m seq disp : Nat} {lanes : List Nat}
    (h : ∀ n ∈ lanes, nibble (lane l 0) n = 1 → major (lane l n) ≠ 0x2C) (opens : List Half) (pens : Nat) :
    (walkLanes l m seq disp lanes opens pens).2.2 = pens := by
  induction lanes generalizing opens with
  | nil => rfl
  | cons n rest ih =>
    have hrest := ih fun k hk => h k (List.mem_cons_of_mem _ hk)
    rw [walkLanes]
    split
    case h_1 => exact hrest _
    case h_2 q hq =>
      split
      case h_1 => exact hrest _
      case h_2 =>
        split
        case isTrue => exact hrest _
        case isFalse =>
          have hpen : (q == .sq && major (lane l n) == 0x2C) = false := by
            rw [Bool.and_eq_false_iff, beq_eq_false_iff_ne, beq_eq_false_iff_ne]
            by_cases hsq : q = .sq
            · exact .inr (h n List.mem_cons_self ((queueOf_eq_sq_iff _).1 (hsq ▸ hq)))
            · exact .inl hsq
          simpa [hpen] using hrest opens

/-- A walk over short words alone leaves an entry for each lane with a queue (R41). -/
theorem walkLanes_short {l : Line} {m seq disp : Nat} {lanes : List Nat}
    (h : ∀ n ∈ lanes, nibble (lane l 0) n ≠ 0 → isLong (lane l n) = false) (pens : Nat) :
    (walkLanes l m seq disp lanes [] pens).1
        = (lanes.filter fun n => (queueOf (nibble (lane l 0) n)).isSome).map (shortEntry l m seq disp)
      ∧ (walkLanes l m seq disp lanes [] pens).2.1 = [] := by
  induction lanes generalizing pens with
  | nil => exact ⟨rfl, rfl⟩
  | cons n rest ih =>
    have hrest := ih fun k hk => h k (List.mem_cons_of_mem _ hk)
    rw [walkLanes, List.filter_cons]
    split
    case h_1 hq => simpa [hq] using hrest pens
    case h_2 q hq =>
      have hshort : isLong (lane l n) = false := h n List.mem_cons_self fun h0 => by simp [h0, queueOf] at hq
      obtain ⟨hfst, hopens⟩ := hrest (pens + if q == .sq && major (lane l n) == 0x2C then 1 else 0)
      simp only [List.find?_nil, hshort, Bool.false_eq_true, if_false, hq, Option.isSome_some, if_true, List.map_cons, hfst]
      exact ⟨rfl, hopens⟩

theorem insertSeq_last {x : Queue × Entry} {l : List (Queue × Entry)} (h : ∀ y ∈ l, y.2.seq ≤ x.2.seq) : insertSeq x l = l ++ [x] := by
  induction l with
  | nil => rfl
  | cons y r ih =>
    rw [insertSeq, if_neg (Nat.not_lt.2 (h y List.mem_cons_self)), ih fun z hz => h z (List.mem_cons_of_mem _ hz), List.cons_append]

/-- Entries that come in fetch order keep it. -/
theorem foldl_insertSeq {q : Entry → Queue} {es : List Entry} {acc : List (Queue × Entry)} (hes : es.Pairwise fun a b => a.seq ≤ b.seq)
    (hacc : ∀ y ∈ acc, ∀ e ∈ es, y.2.seq ≤ e.seq) :
    es.foldl (fun acc e => insertSeq (q e, e) acc) acc = acc ++ es.map fun e => (q e, e) := by
  induction es generalizing acc with
  | nil => simp
  | cons e r ih =>
    obtain ⟨hfirst, hrest⟩ := List.pairwise_cons.1 hes
    rw [List.foldl_cons, insertSeq_last fun y hy => hacc y hy e List.mem_cons_self, ih hrest, List.append_assoc]
    · rfl
    · intro y hy x hx
      rcases List.mem_append.1 hy with hy | hy
      · exact hacc y hy x (List.mem_cons_of_mem _ hx)
      · rw [List.mem_singleton.1 hy]
        exact hfirst x hx

/-- A header without reserved bits and without a PENLIFT is sound (R40, R41, R45). -/
theorem lineCause_none {h : Word} (hsmall : h.toNat < 2 ^ 28) (hnib : ∀ n, 1 ≤ n → n ≤ 7 → nibble h n < 7) : lineCause h 0 false = none := by
  have hpl : h.getLsbD 28 = false := Nat.testBit_lt_two_pow hsmall
  have hany : ((List.range 7).any fun i => decide (7 ≤ nibble h (i + 1))) = false := by
    rw [List.any_eq_false]
    intro i hi
    have := hnib (i + 1) (by omega) (by have := List.mem_range.1 hi; omega)
    simpa using this
  rw [lineCause]
  simp only [hpl, hany]
  rw [if_neg (by simp), if_neg (by simp; omega), if_neg (by simp)]

/-- A header with a reserved bit or nibble is not sound (R40, R41). -/
theorem lineCause_isSome {h : Word} {pens : Nat} {bad : Bool} (hh : 2 ^ 29 ≤ h.toNat ∨ ∃ n, 1 ≤ n ∧ n ≤ 7 ∧ 7 ≤ nibble h n) :
    (lineCause h pens bad).isNone = false := by
  rw [lineCause]
  split
  · rfl
  · split
    · rfl
    · split
      · rfl
      case isFalse hres hnib =>
        exfalso
        rcases hh with hh | ⟨n, h1, h7, hn⟩
        · exact hres (.inl hh)
        · refine hnib (List.any_eq_true.2 ⟨n - 1, List.mem_range.2 (by omega), ?_⟩)
          rw [Nat.sub_add_cancel h1]
          exact decide_eq_true hn

/-- The lanes of a line that hold words. -/
def wordLanes : List Nat := [1, 2, 3, 4, 5, 6, 7]

theorem mem_wordLanes {n : Nat} (h : n ∈ wordLanes) : 1 ≤ n ∧ n ≤ 7 := by
  simp only [wordLanes, List.mem_cons, List.not_mem_nil, or_false] at h
  omega

/-- A lane that names a queue leaves its entry there. -/
theorem queueIn_shortEntry (l : Line) (m seq disp : Nat) (lanes : List Nat) :
    (((lanes.filter fun n => (queueOf (nibble (lane l 0) n)).isSome).map (shortEntry l m seq disp)).map fun e => (e.queueIn l, e))
      = lanes.filterMap fun n => (queueOf (nibble (lane l 0) n)).map fun q => (q, shortEntry l m seq disp n) := by
  induction lanes with
  | nil => rfl
  | cons n rest ih =>
    rw [List.filter_cons, List.filterMap_cons]
    cases hq : queueOf (nibble (lane l 0) n) with
    | none => exact ih
    | some q =>
      have hin : (shortEntry l m seq disp n).queueIn l = q := congrArg (fun o : Option Queue => o.getD .sq) hq
      simp only [Option.isSome_some, if_true, List.map_cons, Option.map_some, hin, ih]

/-- A sound line of short words dispatches them in lane order (R41, R44). -/
theorem parseLine_short {l : Line} (m seq disp : Nat) (hsmall : (lane l 0).toNat < 2 ^ 28)
    (hnib : ∀ n, 1 ≤ n → n ≤ 7 → nibble (lane l 0) n < 7)
    (hshort : ∀ n, 1 ≤ n → n ≤ 7 → nibble (lane l 0) n ≠ 0 → isLong (lane l n) = false)
    (hpen : ∀ n, 1 ≤ n → n ≤ 7 → nibble (lane l 0) n = 1 → major (lane l n) ≠ 0x2C) :
    parseLine l m seq disp none false
      = (wordLanes.filterMap fun n => (queueOf (nibble (lane l 0) n)).map fun q => (q, shortEntry l m seq disp n), none) := by
  obtain ⟨hentries, hopens⟩ := walkLanes_short (m := m) (seq := seq) (disp := disp) (lanes := wordLanes)
    (fun n hn => hshort n (mem_wordLanes hn).1 (mem_wordLanes hn).2) 0
  have hpens := walkLanes_pens (m := m) (seq := seq) (disp := disp) (lanes := wordLanes)
    (fun n hn => hpen n (mem_wordLanes hn).1 (mem_wordLanes hn).2) [] 0
  have hsorted : ((wordLanes.filter fun n => (queueOf (nibble (lane l 0) n)).isSome).map (shortEntry l m seq disp)).Pairwise
      fun a b => a.seq ≤ b.seq := by
    rw [List.pairwise_map]
    refine List.Pairwise.filter _ (List.Pairwise.imp (R := (· ≤ ·)) (fun h => Nat.add_le_add_left h seq) ?_)
    decide
  have hwalk : walkLanes l m seq disp [1, 2, 3, 4, 5, 6, 7] [] 0 = walkLanes l m seq disp wordLanes [] 0 := rfl
  rw [parseLine]
  simp only [Bool.false_eq_true, if_false, hwalk, hpens, lineCause_none hsmall hnib, hopens, hentries, List.nil_append]
  rw [foldl_insertSeq hsorted (by simp), queueIn_shortEntry, List.nil_append]

/-! ### What joins the queues (R43, R44) -/

theorem queueNum_pred_inj {p q : Queue} : queueNum p - 1 = queueNum q - 1 → p = q := by cases p <;> cases q <;> decide

theorem entries_setEntries_same (c : Control) (q : Queue) (l : List Entry) : (c.setEntries q l).entries q = l :=
  vget_vset_eq _ _ _ (queueNum_pred_lt q)

theorem entries_setEntries_ne (c : Control) {p q : Queue} (h : q ≠ p) (l : List Entry) : (c.setEntries p l).entries q = c.entries q :=
  vget_vset_ne _ _ _ _ fun hnum => h (queueNum_pred_inj hnum)

theorem entries_push (c : Control) (es : List (Queue × Entry)) (q : Queue) :
    (c.push es).entries q = c.entries q ++ (es.filter fun x => x.1 == q).map fun x => x.2 := by
  induction es generalizing c with
  | nil => simp [Control.push]
  | cons x es ih =>
    have hcons : c.push (x :: es) = (c.setEntries x.1 (c.entries x.1 ++ [x.2])).push es := rfl
    rw [hcons, ih]
    by_cases hq : x.1 = q
    · subst hq; rw [entries_setEntries_same]; simp
    · rw [entries_setEntries_ne _ (Ne.symm hq)]; simp [hq]

theorem fetch_push (c : Control) (es : List (Queue × Entry)) : (c.push es).fetch = c.fetch := by
  induction es generalizing c with
  | nil => rfl
  | cons x es ih => exact ih _

/-- What an entry says beside its place in fetch order and the copies that it waits for. -/
def Entry.plain (e : Entry) : Nat × Nat × Word × Word := (e.line, e.lane, e.w0, e.w1)

/-- The follow-on flags change nothing of an entry but the copies that it waits for (R296). -/
theorem armEntries_plain (seq : Nat) (flags : List Nat) (es : List (Queue × Entry)) :
    (armEntries seq flags es).1.map (fun x => (x.1, x.2.plain)) = es.map fun x => (x.1, x.2.plain) := by
  induction es generalizing flags with
  | nil => rfl
  | cons x r ih =>
    rw [armEntries]
    split
    · rw [List.map_cons, List.map_cons, ih]
    · split
      · rw [List.map_cons, List.map_cons, ih]; rfl
      · rw [List.map_cons, List.map_cons, ih]

theorem map_plain_filter (q : Queue) (l : List (Queue × Entry)) :
    ((l.filter fun x => x.1 == q).map fun x => x.2).map Entry.plain
      = ((l.map fun x => (x.1, x.2.plain)).filter fun x => x.1 == q).map fun x => x.2 := by
  rw [List.filter_map, List.map_map, List.map_map]
  rfl

/-- A line that owes no word joins its entries to their queues. -/
theorem entries_dispatchParsed (c : Control) (seq : Nat) (es : List (Queue × Entry)) (q : Queue) :
    ((c.dispatchParsed seq es none).entries q).map Entry.plain
      = (c.entries q).map Entry.plain ++ ((es.filter fun x => x.1 == q).map fun x => x.2).map Entry.plain := by
  have hentries : (c.dispatchParsed seq es none).entries q = (c.push (armEntries seq c.fetch.flags es).1).entries q := by
    rw [Control.dispatchParsed]
    simp [armOwe, armEntries, Control.entries]
  rw [hentries, entries_push, List.map_append, map_plain_filter, armEntries_plain, ← map_plain_filter]

/-- Where no level is active, no back-edge is taken (R146). -/
theorem backEdge_inactive {loops : Vector Loop 4} (m : Nat) {n : Nat} (h : ∀ l < n, (vget loops l).act = false) :
    backEdge loops m n = (loops, none) := by
  induction n with
  | zero => rfl
  | succ n ih =>
    rw [backEdge]
    simp only [h n (Nat.lt_succ_self n), Bool.not_false, if_true]
    exact ih fun l hl => h l (Nat.lt_succ_of_lt hl)

/-- The prefetch changes nothing of a tile but the fetch unit's buffer and where it reads (R137). -/
theorem prefetch_keeps (t : Tile) (k : Nat) : (t.prefetch k).ctl.queues = t.ctl.queues ∧ (t.prefetch k).ctl.fetch.direct = t.ctl.fetch.direct
    ∧ (t.prefetch k).slices = t.slices ∧ (t.prefetch k).stores = t.stores ∧ (t.prefetch k).pend = t.pend := by
  rw [Tile.prefetch]
  split <;> exact ⟨rfl, rfl, rfl, rfl, rfl⟩

section Line
variable {t : Tile} {k : Nat} {p : PreLine} {es : List (Queue × Entry)}
  (hp : t.nextLine k = some p) (hm : p.line < 4096) (hwait : t.ctl.loopWaits p.line = false)
  (hloops : ∀ l < 4, (vget t.ctl.loops l).act = false) (howe : t.ctl.fetch.owe = none)
  (hparse : parseLine p.bits p.line t.ctl.fetch.seqCtr k none p.bad = (es, none))
include hp hm hwait hloops howe hparse

/-- A line for which the queues have no room waits (R43). -/
theorem dispatch_of_full (hroom : roomFor t.ctl es = false) : t.dispatch k = t := by
  rw [Tile.dispatch, hp]
  simp only [Nat.not_le.2 hm, hwait, howe, hparse, backEdge_inactive p.line hloops, hroom, List.append_nil, Bool.not_false, if_true,
    Bool.false_eq_true, if_false]

/-- A line for which the queues have room joins them (R43). -/
theorem dispatch_of_room (hroom : roomFor t.ctl es = true) : ∃ fe, t.dispatch k
    = { t with ctl := { t.ctl.dispatchParsed t.ctl.fetch.seqCtr es none with fetch := fe, loops := t.ctl.loops } } := by
  rw [Tile.dispatch, hp]
  simp only [Nat.not_le.2 hm, hwait, howe, hparse, backEdge_inactive p.line hloops, hroom, List.append_nil, Bool.not_true,
    Bool.false_eq_true, if_false]
  exact ⟨_, rfl⟩

end Line

/-! ### Crossing words (R48 to R51) -/

section Crossing
variable {t : Tile} {k : Nat} {x : Cross}

theorem crossings_pending (hcross : t.ctl.fetch.cross = [x]) (hgot : x.got = none) : t.crossings k = t := by
  rw [Tile.crossings, hcross]
  simp only [List.foldl_cons, List.foldl_nil, Tile.crossing, hgot, List.isEmpty_nil, Bool.not_true, Bool.false_and, Bool.false_eq_true,
    if_false, List.nil_append]
  rw [← hcross]

/-- The one entry that a crossing word becomes where its line could be read. -/
theorem cross_entries_single {p : PreLine} (hbad : p.bad = false) (seq : Nat) : ∃ e : Entry, x.entries p seq k = [(x.owe.q, e)]
    ∧ e.line = x.owe.line ∧ e.lane = x.owe.lane ∧ e.seq = x.owe.seq ∧ e.w0 = x.owe.w0
    ∧ (p.line ≤ 4095 → nibble (lane p.bits 0) 1 = queueNum x.owe.q → (lane p.bits 0).toNat < 2 ^ 28 →
      (∀ n, 1 ≤ n → n ≤ 7 → nibble (lane p.bits 0) n < 7) →
      (∀ n, 2 ≤ n → n ≤ 7 → nibble (lane p.bits 0) n = 1 → major (lane p.bits n) ≠ 0x2C) → e.w1 = lane p.bits 1 ∧ e.marker = none)
    ∧ (4095 < p.line ∨ nibble (lane p.bits 0) 1 ≠ queueNum x.owe.q ∨ 2 ^ 29 ≤ (lane p.bits 0).toNat
      ∨ (∃ n, 1 ≤ n ∧ n ≤ 7 ∧ 7 ≤ nibble (lane p.bits 0) n) → e.marker.map (fun (m : Marker) => m.cause) = some 6) := by
  rw [Cross.entries]
  simp only [hbad]
  split
  case isTrue h =>
    refine ⟨_, rfl, rfl, rfl, rfl, rfl, fun _ _ _ _ _ => ⟨rfl, rfl⟩, fun hfault => ?_⟩
    simp only [Bool.and_eq_true, decide_eq_true_eq, beq_iff_eq] at h
    obtain ⟨⟨hline, hnib⟩, hsound⟩ := h
    rcases hfault with hf | hf | hf
    · omega
    · exact absurd hnib hf
    · rw [lineCause_isSome hf] at hsound
      exact absurd hsound Bool.false_ne_true
  case isFalse h =>
    refine ⟨_, rfl, rfl, rfl, rfl, rfl, fun hline hnib hsmall hall hpen => absurd ?_ h, fun _ => rfl⟩
    have hlanes (n : Nat) (hn : n ∈ [2, 3, 4, 5, 6, 7]) : 2 ≤ n ∧ n ≤ 7 := by
      simp only [List.mem_cons, List.not_mem_nil, or_false] at hn
      omega
    rw [walkLanes_pens (fun n hn => hpen n (hlanes n hn).1 (hlanes n hn).2), lineCause_none hsmall hall]
    simp [hline, hnib]

/-- A crossing word for which its queue has a place becomes its entry (R43, R50). -/
theorem crossings_complete {p : PreLine} {e : Entry} (hcross : t.ctl.fetch.cross = [x]) (hgot : x.got = some p)
    (he : x.entries p t.ctl.fetch.seqCtr k = [(x.owe.q, e)]) (hplace : (t.ctl.entries x.owe.q).length < 16)
    (hall : ∀ q : Queue, (t.ctl.entries q).length ≤ 16) :
    (t.crossings k).ctl.entries x.owe.q = t.ctl.entries x.owe.q ++ [e] ∧ (t.crossings k).ctl.fetch.cross = [] := by
  have hroom : roomFor { t.ctl with fetch := { t.ctl.fetch with cross := [] } } [(x.owe.q, e)] = true := by
    rw [roomFor, List.all_eq_true]
    intro q _
    refine decide_eq_true ?_
    by_cases hq : x.owe.q = q
    · subst hq
      simpa [Control.entries] using hplace
    · simpa [hq, Control.entries] using hall q
  rw [Tile.crossings, hcross]
  simp only [List.foldl_cons, List.foldl_nil, Tile.crossing, hgot, he, hroom, List.isEmpty_cons, Bool.not_false, Bool.and_self, if_true,
    List.length_singleton]
  constructor
  · have hpush := entries_push { t.ctl with fetch := { t.ctl.fetch with cross := [] } } [(x.owe.q, e)] x.owe.q
    simpa [Control.entries] using hpush
  · rw [fetch_push]

end Crossing

/-- Settles O54: a line's words in their lanes, their queues' room, the crossing word's second line, and the cycle counts of the target
buffers and the event windows. -/
theorem fetchStepsPerform : Obligations.FetchStepsPerform := by
  refine ⟨fun l m seq disp hsmall hnib hshort hpen => parseLine_short m seq disp hsmall hnib hshort hpen,
    fun s f t c p hat hp hm hwait hloops howe => ?line, fun t k x hcross hgot => ?reads, fun s f t c x hat hcross => ⟨fun hgot => ?pending,
      fun p hgot hbad hplace hall => ?completes⟩, fun s f t c hat => ?targets, fun s f t c hat hpend => ?windows⟩
  case line =>
    intro r hr
    have hparse : parseLine p.bits p.line t.ctl.fetch.seqCtr c.k none p.bad = (r.1, none) := Prod.ext rfl hr
    have hexec : exec .lineDispatch s = .next (s.putTile f ((t.dispatch c.k).prefetch c.k)) := by
      change execLineDispatch s = _
      rw [execLineDispatch, hat]
    obtain ⟨hqueues, hdirect, hslices, hstores, hpend⟩ := prefetch_keeps (t.dispatch c.k) c.k
    have hentries (q : Queue) : ((t.dispatch c.k).prefetch c.k).ctl.entries q = (t.dispatch c.k).ctl.entries q :=
      congrArg (fun v => vget v (queueNum q - 1)) hqueues
    cases hroom : roomFor t.ctl r.1 with
    | false =>
      rw [dispatch_of_full hp hm hwait hloops howe hparse hroom] at hexec hqueues hdirect hslices hstores hpend hentries
      refine ⟨_, hexec, hslices, hstores, hpend, fun q => ?_, fun _ => ⟨hqueues, hdirect⟩⟩
      rw [hentries, if_neg Bool.false_ne_true, List.append_nil]
    | true =>
      obtain ⟨fe, hdispatch⟩ := dispatch_of_room hp hm hwait hloops howe hparse hroom
      rw [hdispatch] at hexec hslices hstores hpend hentries
      refine ⟨_, hexec, hslices, hstores, hpend, fun q => ?_, fun h => absurd h (by simp)⟩
      rw [hentries, if_pos rfl]
      have hjoin := entries_dispatchParsed t.ctl t.ctl.fetch.seqCtr r.1 q
      rw [List.map_map] at hjoin
      exact hjoin
  case reads =>
    simp only [Tile.fetchReads, hcross, hgot, List.map_cons, List.map_nil, Option.isNone_none, Bool.true_and, decide_eq_true_eq]
    split <;> rfl
  case pending =>
    change execCrossingWordCompletion s = _
    rw [execCrossingWordCompletion, hat]
    exact congrArg (fun t => Host.Outcome.next (s.putTile f t)) (crossings_pending hcross hgot)
  case completes =>
    obtain ⟨e, he, hline, hlane, hseq, hw0, hsecond, hsplit⟩ := cross_entries_single (x := x) (k := c.k) hbad t.ctl.fetch.seqCtr
    obtain ⟨hentries, hempty⟩ := crossings_complete hcross hgot he hplace hall
    refine ⟨t.crossings c.k, e, ?_, hentries, hempty, hline, hlane, hseq, hw0, hsecond, hsplit⟩
    change execCrossingWordCompletion s = _
    rw [execCrossingWordCompletion, hat]
  case targets =>
    exact ⟨_, by change execTargetBufferFill s = _; rw [execTargetBufferFill, hat], fun b hb => vget_map _ _ hb⟩
  case windows =>
    refine ⟨t.nevStarts c.cyc, by change execNevWindowStart s = _; rw [execNevWindowStart, hat], fun n hn => ?_⟩
    have hcfg : t.nevCfgAt n c.cyc = vget t.csr.nevcfg n := by rw [Tile.nevCfgAt, hpend]; rfl
    simp [Tile.nevStarts, vget, hn, hcfg, nevStart, nevWindow]

end Sys2Proof.Machine

/-! PROOFS of the family 'other': a scrub visit in a rotation's pass (R444, R447, R481) -/

namespace Sys2Proof.Machine

/-! ### A scrub visit in a rotation's pass (R447, R481) -/

theorem lineAddr {ch l : Nat} (hch : ch < 256) (hl : l < 0x1800000) :
    chanNum (ch * 2 ^ 31 + 64 * l) = ch ∧ chanLine (ch * 2 ^ 31 + 64 * l) = l := by
  rw [chanNum, chanLine, bitsAt_eq_div_mod, bitsAt_eq_div_mod]
  constructor <;> omega

/-- A change of a channel that keeps its lessee and its lines' metadata leaves what its lines decrypt to. -/
theorem plain_onChan (s : State) (ch : Nat) {h : Chan → Chan} (hkeep : ∀ c, (h c).func = c.func ∧ (h c).tags = c.tags) (pa : Nat) :
    (s.onChan ch h).plain pa = s.plain pa := by
  have hchan : (vget (s.onChan ch h).dram.chans (chanNum pa)).func = (vget s.dram.chans (chanNum pa)).func
      ∧ (vget (s.onChan ch h).dram.chans (chanNum pa)).tags = (vget s.dram.chans (chanNum pa)).tags := by
    by_cases he : chanNum pa = ch
    · have hlt : ch < 256 := he ▸ Nat.mod_lt _ (by norm_num)
      rw [he, State.chan_onChan _ _ _ hlt]
      exact hkeep _
    · rw [State.chan_onChan_ne _ _ _ _ he]
      exact ⟨rfl, rfl⟩
  simp only [State.plain, State.lineKeys, Chan.version, Chan.meta, hchan.1, hchan.2]
  rfl

/-- A channel whose scrub goes on to the next line (R481). -/
def Chan.scrubbed (c : Chan) : Chan :=
  if c.scrubAt + 1 < 0x1800000 then { c with scrubAt := c.scrubAt + 1 }
  else { c with scrubAt := 0, rot := if c.rot = 1 then 2 else if c.rot = 2 then 3 else c.rot }

theorem scrubbed_keeps (c : Chan) : c.scrubbed.func = c.func ∧ c.scrubbed.tags = c.tags := by
  rw [Chan.scrubbed]
  split <;> exact ⟨rfl, rfl⟩

/-- Outside the first pass of a rotation the scrub's next line changes only its channel. -/
theorem scrubOn_eq {s : State} {ch : Nat} (h : (vget s.dram.chans ch).rot ≠ 1) : s.scrubOn ch = s.onChan ch Chan.scrubbed := by
  simp only [State.scrubOn, State.onChan, Chan.scrubbed, if_neg h]
  split <;> rfl

theorem scrubVisit_eq {s : State} {ch : Nat} (hch : ch < 256) (hret : (vget s.dram.chans ch).ret = false)
    (hclear : (vget s.dram.chans ch).pendingClear (vget s.dram.chans ch).scrubAt = false) :
    exec (.scrubVisit ch false) s = .next ((s.scrubLine ch (vget s.dram.chans ch).scrubAt false).scrubOn ch) := by
  change execScrubVisit ch false s = _
  rw [execScrubVisit]
  simp only [hret, hclear, Bool.false_eq_true, or_false, if_false]
  rw [if_neg (by omega)]

theorem copyFirst_of_unguarded {s : State} {pa : Nat} (h : s.unguarded pa) : s.copyFirst pa = s := by
  rw [State.unguarded] at h
  simp only [State.copyFirst, h]

/-- A sound line under an older key is encrypted again in a rotation's pass (R447). -/
theorem scrubLine_rotates {s : State} {ch : Nat} (hch : ch < 256) (hat : (vget s.dram.chans ch).scrubAt < 0x1800000)
    (hs : s.soundLine (ch * 2 ^ 31 + 64 * (vget s.dram.chans ch).scrubAt)) (hrot : (vget s.dram.chans ch).rot = 2)
    (hold : (vget s.dram.chans ch).version (vget s.dram.chans ch).scrubAt ≠ (s.func (vget s.dram.chans ch).func).keynext)
    (hck : s.unguarded (ch * 2 ^ 31 + 64 * (vget s.dram.chans ch).scrubAt)) : s.scrubLine ch (vget s.dram.chans ch).scrubAt false
      = s.seal (ch * 2 ^ 31 + 64 * (vget s.dram.chans ch).scrubAt) (s.func (vget s.dram.chans ch).func).keynext
          (s.plain (ch * 2 ^ 31 + 64 * (vget s.dram.chans ch).scrubAt)) false := by
  obtain ⟨hnum, hline⟩ := lineAddr hch hat
  obtain ⟨-, hfails, hpoison, hsoft⟩ := hs
  rw [hnum, hline] at hpoison hsoft
  have hcopy := copyFirst_of_unguarded hck
  unfold State.scrubLine
  generalize ch * 2 ^ 31 + 64 * (vget s.dram.chans ch).scrubAt = pa at *
  simp [hfails, hpoison, hsoft, hrot, Ne.symm hold, hcopy]

theorem seal_chan (s : State) (pa ver v : Nat) (poison : Bool) : ∃ tag, vget (s.seal pa ver v poison).dram.chans (chanNum pa)
    = (vget s.dram.chans (chanNum pa)).wrote (chanLine pa) ver tag poison := by
  have hch : chanNum pa < 256 := Nat.mod_lt _ (by norm_num)
  exact ⟨_, State.chan_onChan _ _ _ hch⟩

/-- The scrub's visit of a line in a rotation's pass (R447). -/
theorem scrubVisit_rotates {s : State} {ch pa : Nat} (hch : ch < 256) (hret : (vget s.dram.chans ch).ret = false)
    (hat : (vget s.dram.chans ch).scrubAt < 0x1800000) (hpa : ch * 2 ^ 31 + 64 * (vget s.dram.chans ch).scrubAt = pa) (hs : s.soundLine pa) (hrot : (vget s.dram.chans ch).rot = 2)
    (hold : (vget s.dram.chans ch).version (vget s.dram.chans ch).scrubAt ≠ (s.func (vget s.dram.chans ch).func).keynext)
    (hck : s.unguarded pa) : exec (.scrubVisit ch false) s
      = .next ((s.seal pa (s.func (vget s.dram.chans ch).func).keynext (s.plain pa) false).onChan ch Chan.scrubbed) := by
  obtain ⟨hnum, hline⟩ := lineAddr hch hat
  have hclear : (vget s.dram.chans ch).pendingClear (vget s.dram.chans ch).scrubAt = false := by
    have := hs.1
    rwa [← hpa, hnum, hline] at this
  have hline' := scrubLine_rotates hch hat (hpa ▸ hs) hrot hold (hpa ▸ hck)
  rw [hpa] at hline' hnum
  rw [scrubVisit_eq hch hret hclear, hline']
  obtain ⟨tag, hchan⟩ := seal_chan s pa (s.func (vget s.dram.chans ch).func).keynext (s.plain pa) false
  rw [hnum] at hchan
  rw [scrubOn_eq]
  rw [hchan]
  show (vget s.dram.chans ch).rot ≠ 1
  omega

/-- A memory that lists byte 63 twice (log 2): the 64 bytes from 0 add up to more than 512 bits. -/
def twiceStored : Memory := [(63, 255), (63, 255)]

/-- A channel in the second pass of a rotation, whose line 0 is that memory's bytes under key version 1. -/
def rotatingChan : Chan := { Chan.reset with rot := 2, tags := [(0, 1, lineTag 0 0 1 (twiceStored.readN 0 64))] }

/-- A machine with that channel, whose function 0 has every key loaded and rotates to version 0. -/
def rotating : State :=
  { State.reset with
    dram := { State.reset.dram with hbm := twiceStored, chans := vset State.reset.dram.chans 0 rotatingChan }
    funcs := vset State.reset.funcs 0 { FuncRegs.reset 0 with keys := Vector.replicate 4 ⟨true, 0, 0⟩ } }

theorem rotating_chan : vget rotating.dram.chans (chanNum 0) = rotatingChan := vget_vset_eq _ _ _ (by decide)

theorem rotating_func : rotating.func rotatingChan.func = { FuncRegs.reset 0 with keys := Vector.replicate 4 ⟨true, 0, 0⟩ } :=
  vget_vset_eq _ _ _ (by decide)

theorem rotating_cipher : rotating.cipher 0 = twiceStored.readN 0 64 := rfl

theorem rotating_tag : rotating.tagFails 0 = false := by
  have hkeys : rotating.lineKeys 0 1 = ⟨true, 0, 0⟩ := by rw [State.lineKeys, rotating_chan, rotating_func]; rfl
  have hmeta : rotatingChan.meta (chanLine 0) = some (1, lineTag 0 0 1 (twiceStored.readN 0 64)) := rfl
  simp only [State.tagFails, rotating_chan, hmeta, hkeys, rotating_cipher]
  simp

theorem rotating_sound : rotating.soundLine 0 := by
  refine ⟨?_, ?_, ?_, ?_⟩
  · rw [rotating_chan]; rfl
  · rw [State.lineFails, rotating_tag, rotating_chan]; rfl
  · rw [rotating_chan]; exact List.not_mem_nil
  · rw [rotating_chan]; exact List.not_mem_nil

theorem rotating_unguarded : rotating.unguarded 0 := by
  rw [State.unguarded, rotating_chan, rotating_func]
  rfl

/-- A line's value is as short as what is stored of it. -/
theorem cipher_lt_of_plain_lt {s : State} {pa : Nat} (h : s.plain pa < 2 ^ 512) : s.cipher pa < 2 ^ 512 := by
  rw [State.plain] at h
  simpa only [Nat.xor_assoc, Nat.xor_self, Nat.xor_zero] using Nat.xor_lt_two_pow h
    (lineStream_lt (s.lineKeys pa ((vget s.dram.chans (chanNum pa)).version (chanLine pa))).enc pa
      ((vget s.dram.chans (chanNum pa)).version (chanLine pa)))

theorem rotating_plain : ¬ rotating.plain 0 < 2 ^ 512 := fun hlt =>
  absurd (cipher_lt_of_plain_lt hlt) (by rw [rotating_cipher]; decide +kernel)

/-- Refutes O57: of a line whose stored bytes a memory lists twice, which no hypothesis excludes, the encryption again keeps 512 bits,
and not the line's value. -/
theorem not_memoryUpkeepComplete : ¬ Obligations.MemoryUpkeepComplete := by
  intro h
  obtain ⟨-, -, -, -, -, -, hscrub, -⟩ := h
  have hchan : vget rotating.dram.chans 0 = rotatingChan := rotating_chan
  have hret : (vget rotating.dram.chans 0).ret = false := by rw [hchan]; rfl
  have hat : (vget rotating.dram.chans 0).scrubAt = 0 := by rw [hchan]; rfl
  have hrot : (vget rotating.dram.chans 0).rot = 2 := by rw [hchan]; rfl
  have hpa : 0 * 2 ^ 31 + 64 * (vget rotating.dram.chans 0).scrubAt = 0 := by rw [hat]; rfl
  have hold : (vget rotating.dram.chans 0).version (vget rotating.dram.chans 0).scrubAt
      ≠ (rotating.func (vget rotating.dram.chans 0).func).keynext := by
    rw [hat, hchan, rotating_func]
    exact Nat.one_ne_zero
  obtain ⟨-, hrotates, -⟩ := hscrub rotating 0 (by decide) hret (by rw [hat]; decide)
  rw [hpa] at hrotates
  obtain ⟨s', hexec, hplain, -⟩ := hrotates rotating_sound hrot hold (by rw [hchan, rotating_func]; rfl) rotating_unguarded
  have hvisit := scrubVisit_rotates (by decide) hret (by rw [hat]; decide) hpa rotating_sound hrot hold rotating_unguarded
  obtain rfl := Host.Outcome.next.inj (hexec.symm.trans hvisit)
  rw [plain_onChan _ _ scrubbed_keeps, (seal_line _ _ _ _ _).1] at hplain
  have hlt : rotating.plain 0 % 2 ^ 512 < 2 ^ 512 := Nat.mod_lt _ (Nat.two_pow_pos 512)
  exact absurd (hplain ▸ hlt) rotating_plain

end Sys2Proof.Machine

/-! PROOFS of the family 'other': registers, the on-chip map, CXL.mem, results from outside and services (R22, R123, R434, R444, R505, R508) -/

namespace Sys2Proof.Machine

/-! ### A function's own registers (R6, R434, R448) -/

theorem macFailed_ide (s : State) (stream f : Nat) : (stream, true) ∉ (s.macFailed stream f).trust.ide := by
  intro hmem
  obtain ⟨x, -, hx⟩ := List.mem_map.1 hmem
  split at hx
  next => simp at hx
  next hne => exact hne (by simp [hx])

theorem macFailed_errlog (s : State) (stream f : Nat) : (s.macFailed stream f).dev.errlog.length = s.dev.errlog.length + 1 :=
  List.length_append

section Register
variable {s : State} {f off : Nat} {v : BitVec 64} (hf : f < 64)
include hf

omit hf in
theorem registerWrite_insecure (h : s.insecure f = true) : exec (.registerWrite f off (some v)) s = .next s := by
  change execRegisterWrite f off (some v) s = _
  simp only [execRegisterWrite, h, if_true, ite_self]

theorem registerWrite_failed : exec (.registerWrite f off none) s = .next (s.macFailed f f) := by
  change execRegisterWrite f off none s = _
  rw [execRegisterWrite, if_neg (by omega)]

/-- A write of a field of a function's own block changes its registers alone. -/
theorem registerWrite_block {h : FuncRegs → FuncRegs} (hoff : off < 0x100) (hsecure : s.insecure f = false)
    (hwrite : s.writeFunc f off v = s.onFunc f h) : exec (.registerWrite f (0x500000 + off) (some v)) s = .next (s.onFunc f h) := by
  have hreg : s.writeReg f (0x500000 + off) v = s.onFunc f h := by
    rw [State.writeReg, if_neg (by omega), if_neg (by omega), if_pos (by omega), Nat.add_sub_cancel_left, hwrite]
  change execRegisterWrite f (0x500000 + off) (some v) s = _
  rw [execRegisterWrite, if_neg (by omega)]
  simp only [hsecure, hreg, Bool.false_eq_true, if_false]

/-- What a function then reads of it. -/
theorem readReg_block {h : FuncRegs → FuncRegs} (hoff : off < 0x100) :
    (s.onFunc f h).readReg f (0x500000 + off) = (h (s.func f)).read off := by
  rw [State.readReg, if_neg (by omega), if_neg (by omega), if_pos (by omega), State.func_onFunc _ _ _ hf, Nat.add_sub_cancel_left]

end Register

/-- A register that keeps these fields of what is written to it holds them (R6). -/
def HoldsFields (off : Nat) (l : List (Nat × Nat)) : Prop := ∀ (s : State) (f : Nat) (v : BitVec 64), ∃ h : FuncRegs → FuncRegs,
  s.writeFunc f off v = s.onFunc f h ∧ (h (s.func f)).read off = (l.map fun x => v.toNat / 2 ^ x.1 % 2 ^ x.2 * 2 ^ x.1).sum

theorem registerWrite_fields {s : State} {f off : Nat} {l : List (Nat × Nat)} {v : BitVec 64} (hf : f < 64) (hoff : off < 0x100)
    (hfields : HoldsFields off l) (hsecure : s.insecure f = false) : Ends (.registerWrite f (0x500000 + off) (some v)) s (fun s' =>
      s'.readReg f (0x500000 + off) = (l.map fun x => v.toNat / 2 ^ x.1 % 2 ^ x.2 * 2 ^ x.1).sum
      ∧ (∀ g < 64, g ≠ f → s'.func g = s.func g) ∧ s'.folios = s.folios ∧ s'.hostMem = s.hostMem ∧ s'.dram = s.dram) := by
  obtain ⟨h, hwrite, hread⟩ := hfields s f v
  exact ⟨_, registerWrite_block hf hoff hsecure hwrite, (readReg_block hf hoff).trans hread, fun g _ hg => State.func_onFunc_ne s f g h hg,
    rfl, rfl, rfl⟩

/-- The fields that a register keeps stand where they stood (R6). -/
theorem keepFields_toNat {l : List (Nat × Nat)} {v : BitVec 64} (h : (l.map fun x => v.toNat / 2 ^ x.1 % 2 ^ x.2 * 2 ^ x.1).sum < 2 ^ 64) :
    (keepFields l v).toNat = (l.map fun x => v.toNat / 2 ^ x.1 % 2 ^ x.2 * 2 ^ x.1).sum := by
  simp only [keepFields, BitVec.toNat_ofNat, bitsAt_eq_div_mod]
  exact Nat.mod_eq_of_lt h

theorem keepFields_root (v : BitVec 64) : (keepFields [(14, 34), (0, 1)] v).toNat
    = ([(14, 34), (0, 1)].map fun x => v.toNat / 2 ^ x.1 % 2 ^ x.2 * 2 ^ x.1).sum := by
  refine keepFields_toNat ?_
  simp only [List.map_cons, List.map_nil, List.sum_cons, List.sum_nil]
  omega

theorem keepFields_page (v : BitVec 64) : (keepFields [(16, 48)] v).toNat
    = ([(16, 48)].map fun x => v.toNat / 2 ^ x.1 % 2 ^ x.2 * 2 ^ x.1).sum := by
  refine keepFields_toNat ?_
  simp only [List.map_cons, List.map_nil, List.sum_cons, List.sum_nil]
  omega

theorem keepFields_ring (v : BitVec 64) : (keepFields [(6, 58), (0, 4)] v).toNat
    = ([(6, 58), (0, 4)].map fun x => v.toNat / 2 ^ x.1 % 2 ^ x.2 * 2 ^ x.1).sum := by
  refine keepFields_toNat ?_
  simp only [List.map_cons, List.map_nil, List.sum_cons, List.sum_nil]
  omega

theorem keepFields_line (v : BitVec 64) : (keepFields [(6, 58)] v).toNat
    = ([(6, 58)].map fun x => v.toNat / 2 ^ x.1 % 2 ^ x.2 * 2 ^ x.1).sum := by
  refine keepFields_toNat ?_
  simp only [List.map_cons, List.map_nil, List.sum_cons, List.sum_nil]
  omega

/-- The registers of a function's block that only keep what is written to them. -/
def plainRegisters : List (Nat × List (Nat × Nat)) :=
  [(0x00, [(14, 34), (0, 1)]), (0x08, [(16, 48)]), (0x10, [(6, 58), (0, 4)]), (0x48, [(6, 58)]),
    (0x80, [(6, 58), (0, 4)]), (0x90, [(0, 2)]), (0xC8, [(6, 58)]), (0xD0, [(6, 58)])]

theorem plainRegisters_hold : ∀ x ∈ plainRegisters, x.1 < 0x100 ∧ HoldsFields x.1 x.2 := by
  simp only [plainRegisters, List.forall_mem_cons]
  refine ⟨⟨by decide, fun _ _ v => ⟨fun r => { r with ptroot := keepFields [(14, 34), (0, 1)] v }, rfl, keepFields_root v⟩⟩,
    ⟨by decide, fun _ _ v => ⟨fun r => { r with hostbase := keepFields [(16, 48)] v }, rfl, keepFields_page v⟩⟩,
    ⟨by decide, fun _ _ v => ⟨fun r => { r with
      frbase := keepFields [(6, 58), (0, 4)] v
      frtail := if ringOn (keepFields [(6, 58), (0, 4)] v) && !ringOn r.frbase then 0 else r.frtail }, rfl, keepFields_ring v⟩⟩,
    ⟨by decide, fun _ _ v => ⟨fun r => { r with sgnbuf := keepFields [(6, 58)] v }, rfl, keepFields_line v⟩⟩,
    ⟨by decide, fun _ _ v => ⟨fun r => { r with evbase := keepFields [(6, 58), (0, 4)] v }, rfl, keepFields_ring v⟩⟩,
    ⟨by decide, fun _ _ v => ⟨fun r => { r with evctl := v.extractLsb' 0 2 }, rfl, ?_⟩⟩,
    ⟨by decide, fun _ _ v => ⟨fun r => { r with cklist := keepFields [(6, 58)] v }, rfl, keepFields_line v⟩⟩,
    ⟨by decide, fun _ _ v => ⟨fun r => { r with cksave := keepFields [(6, 58)] v }, rfl, keepFields_line v⟩⟩, fun _ h => nomatch h⟩
  show (v.extractLsb' 0 2).toNat = _
  simp

/-! ### The on-chip map and the profile counters (R22, R25, R497) -/

theorem idleMem_pokeIdle {s : State} {px py off n v : Nat} (hstore : mapStore off n = 1) :
    (s.pokeIdle (px, py) off n v).idleMem (px, py) = (s.idleMem (px, py)).writeN off n v := by
  have hfind : ∀ x ∈ s.idle.filter (fun x => x.1 != py * 72 + px), (x.1 == py * 72 + px) = false := fun x hx => by
    simpa using (List.mem_filter.1 hx).2
  simp only [State.pokeIdle, hstore, idleBytes]
  simp [State.idleMem, List.find?_append, List.find?_eq_none.2 fun x hx => Bool.not_eq_true _ ▸ hfind x hx]

theorem pokeIdle_folios (s : State) (t : Nat × Nat) (off n v : Nat) : (s.pokeIdle t off n v).folios = s.folios := by
  rw [State.pokeIdle]
  split <;> rfl

section OnChip
variable {s : State} {addr : BitVec 48} {px py off n : Nat} (v : BitVec 64) (haddr : mapAddr addr.toNat = some (px, py, off))
  (hn : n ∈ [1, 2, 4, 8]) (hpx : px < 72) (hstore : mapStore off n = 1) (hsound : (px, py) ∉ s.dev.defects)
include haddr hn hpx hstore hsound

theorem mapWrite_idle (hholder : s.holder px py = none) : exec (.privilegedOnChipMapWrite addr n v) s
    = .next (s.pokeIdle (px, py) off n v.toNat) := by
  have hsize : (if n = 1 ∨ n = 2 ∨ n = 4 then n else 8) = n := by simp at hn; split <;> omega
  change execPrivilegedOnChipMapWrite addr n v s = _
  rw [execPrivilegedOnChipMapWrite, haddr]
  simp only [hsize, hstore, hholder]
  exact if_neg (by simp [hsound, hpx])

theorem mapWrite_held {f : Folio} {i : Nat} (hholder : s.holder px py = some (f, i)) : exec (.privilegedOnChipMapWrite addr n v) s
    = .next (s.setFolio (f.onTile i fun t => t.store off n v.toNat)) := by
  have hsize : (if n = 1 ∨ n = 2 ∨ n = 4 then n else 8) = n := by simp at hn; split <;> omega
  have hpoke (t : Tile) : s.pokeTile f i t off n v.toNat = t.store off n v.toNat := by simp only [State.pokeTile, hstore]
  change execPrivilegedOnChipMapWrite addr n v s = _
  rw [execPrivilegedOnChipMapWrite, haddr]
  simp only [hsize, hstore, hholder, hpoke]
  exact if_neg (by simp [hsound, hpx])

end OnChip

section Counter
variable {s : State} {func n m : Nat} {f : Folio} (hf : s.folio? n = some f) (hfunc : func = 0 ∨ func = f.place.func)
include hf hfunc

theorem profcntLowRead_eq : exec (.profcntLowRead func n m) s = .next { s with dev := { s.dev with
    reply := (f.profCounter m).toNat % 2 ^ 32, replyPoison := false
    latched := (s.dev.latched.filter fun x => !(x.1 == func && x.2.1 == n && x.2.2.1 == m))
      ++ [(func, n, m, (f.profCounter m).toNat / 2 ^ 32)] } } := by
  change execProfcntLowRead func n m s = _
  rw [execProfcntLowRead]
  simp only [hf, hfunc, if_true]

end Counter

theorem latched_found (l : List (Nat × Nat × Nat × Nat)) (func n m v : Nat) :
    ((l.filter fun x => !(x.1 == func && x.2.1 == n && x.2.2.1 == m)) ++ [(func, n, m, v)]).find?
      (fun x => x.1 == func && x.2.1 == n && x.2.2.1 == m) = some (func, n, m, v) := by
  rw [List.find?_append, List.find?_eq_none.2 fun x hx => by simpa [imp_iff_not_or, or_assoc] using (List.mem_filter.1 hx).2]
  simp

theorem readReg32_latched {s : State} {func n m v : Nat} (hn : n < 2304) (hm : m < 8)
    (h : s.dev.latched.find? (fun x => x.1 == func && x.2.1 == n && x.2.2.1 == m) = some (func, n, m, v)) :
    s.readReg32 func (0x900000 + 128 * n + 0x44 + 8 * m) = v := by
  have hat : 0x900000 + 128 * n + 0x44 + 8 * m - 0x900000 = 128 * n + 0x44 + 8 * m := by omega
  have hlow : (128 * n + 0x44 + 8 * m) % 128 = 0x44 + 8 * m := by omega
  have hblock : (128 * n + 0x44 + 8 * m) / 128 = n := by omega
  have hcounter : (0x44 + 8 * m - 0x40) / 8 = m := by omega
  rw [State.readReg32]
  simp only [hat, hlow, hblock, hcounter]
  rw [if_pos (by omega), h]

/-! ### CXL.mem (R444, R445, R448, R477) -/

/-- A line has its channel and its number within it by its first address. -/
theorem chanNum_line (pa : Nat) : chanNum (pa / 64 * 64) = chanNum pa := by
  rw [chanNum, chanNum, bitsAt_eq_div_mod, bitsAt_eq_div_mod]
  omega

theorem chanLine_line (pa : Nat) : chanLine (pa / 64 * 64) = chanLine pa := by
  rw [chanLine, chanLine, bitsAt_eq_div_mod, bitsAt_eq_div_mod]
  omega

theorem backed_line (pa : Nat) : backed (pa / 64 * 64) = backed pa := by
  have hlow : pa / 64 * 64 < 2 ^ 39 ↔ pa < 2 ^ 39 := by omega
  have hin : pa / 64 * 64 / 2 ^ 0 % 2 ^ 31 < 0x60000000 ↔ pa / 2 ^ 0 % 2 ^ 31 < 0x60000000 := by omega
  rw [backed, backed, bitsAt_eq_div_mod, bitsAt_eq_div_mod, decide_eq_decide.2 hlow, decide_eq_decide.2 hin]

theorem cxlReaches_line (s : State) (pa : Nat) : s.cxlReaches (pa / 64 * 64) = s.cxlReaches pa := by
  rw [State.cxlReaches, State.cxlReaches, backed_line, chanNum_line]

section Cxl
variable {s : State} {a : BitVec 64} {pa : Nat} (hhdm : s.hdm a = some pa)
include hhdm

theorem cxlMemRead_sound (hreach : s.cxlReaches pa = true) (hsound : s.soundLine (pa / 64 * 64)) :
    exec (.cxlMemRead a) s = .next { s with dev := { s.dev with reply := s.plain (pa / 64 * 64), replyPoison := false } } := by
  change execCxlMemRead a s = _
  rw [execCxlMemRead, hhdm]
  simp only [hreach, readLine_sound hsound]
  rfl

theorem cxlMemRead_beyond (hreach : s.cxlReaches pa = false) :
    exec (.cxlMemRead a) s = .next { s with dev := { s.dev with reply := 0, replyPoison := false } } := by
  change execCxlMemRead a s = _
  rw [execCxlMemRead, hhdm]
  simp only [hreach]
  rfl

theorem cxlMemWrite_failed (e : BitVec 64) (d : BitVec 512) : exec (.cxlMemWrite a e d true) s = .next (s.macFailed 64 0) := by
  change execCxlMemWrite a e d true s = _
  rw [execCxlMemWrite, hhdm]
  rfl

theorem cxlMemWrite_insecure (h : s.insecure 64 = true) (e : BitVec 64) (d : BitVec 512) : exec (.cxlMemWrite a e d false) s = .next s := by
  change execCxlMemWrite a e d false s = _
  rw [execCxlMemWrite, hhdm]
  simp only [h, if_true, Bool.false_eq_true, if_false]

theorem cxlMemWrite_beyond (hreach : s.cxlReaches pa = false) (e : BitVec 64) (d : BitVec 512) : exec (.cxlMemWrite a e d false) s = .next s := by
  rw [← cxlReaches_line] at hreach
  change execCxlMemWrite a e d false s = _
  rw [execCxlMemWrite, hhdm]
  simp only [hreach, Bool.not_false, Bool.true_or, if_true, Bool.false_eq_true, if_false, ite_self]

/-- A write of all a line's bytes. -/
theorem cxlMemWrite_whole (hreach : s.cxlReaches pa = true) (hck : s.unguarded (pa / 64 * 64)) (hsecure : s.insecure 64 = false) (d : BitVec 512) :
    exec (.cxlMemWrite a (BitVec.allOnes 64) d false) s = .next (s.putLine (pa / 64 * 64) d.toNat false) := by
  rw [← cxlReaches_line] at hreach
  change execCxlMemWrite a (BitVec.allOnes 64) d false s = _
  rw [execCxlMemWrite, hhdm]
  simp only [hreach, hsecure, writeLine_of_unguarded hck]
  rfl

/-- A write of some of a sound line's bytes. -/
theorem cxlMemWrite_part (hreach : s.cxlReaches pa = true) (hck : s.unguarded (pa / 64 * 64)) (hsecure : s.insecure 64 = false) (d : BitVec 512)
    {e : BitVec 64} (hsome : e ≠ 0) (hpart : e ≠ BitVec.allOnes 64) (hsound : s.soundLine (pa / 64 * 64)) : exec (.cxlMemWrite a e d false) s
      = .next (s.putLine (pa / 64 * 64) (mixBytes 64 e.toNat d.toNat (s.plain (pa / 64 * 64))) false) := by
  rw [← cxlReaches_line] at hreach
  change execCxlMemWrite a e d false s = _
  rw [execCxlMemWrite, hhdm]
  simp only [hreach, hsecure, beq_eq_false_iff_ne.2 hsome, beq_eq_false_iff_ne.2 hpart, State.patchLine, readLine_sound hsound,
    writeLine_of_unguarded hck]
  rfl

end Cxl

theorem wrote_sound (c : Chan) (l ver tag : Nat) : l ∉ (c.wrote l ver tag false).poison := by
  simp [Chan.wrote, Chan.settleClr, dropMark]

/-! ### Results from outside (R123, R324, R382, R505) -/

theorem awaits_found {s : State} {r : HostRead} {id : Nat} (hreads : s.hostReads = [r]) (hid : r.id = id) (hgot : r.got = none)
    (hdata : r.data.isSome = true) : s.hostReads.find? (fun r => r.awaits id) = some r := by
  simp [hreads, HostRead.awaits, hid, hgot, hdata]

section Completion
variable {s : State} {r : HostRead} {id v : Nat} (hreads : s.hostReads = [r]) (hid : r.id = id) (hgot : r.got = none) (hdata : r.data = some v)
include hreads hid hgot hdata

omit hgot in
/-- The only read that has come lands the bytes that it has read. -/
theorem hostCame_one (p : Nat) : s.hostCame id p = { s with hostReads := [{ r with got := some (v, p) }] } := by
  have hmap : (s.hostReads.map fun (x : HostRead) => if x.id == id then { x with got := some (x.data.getD 0, p) } else x)
      = [{ r with got := some (v, p) }] := by simp [hreads, hid, hdata]
  rw [State.hostCame, hmap, State.serveReads, sendReads_done _ (by simp)]
  rfl

theorem hostCompletionArrival_failed {m : BitVec 8} {e : Bool} {fn : Nat} (hfn : ((s.folio? r.folio).map fun g => g.place.func).getD 0 = fn) :
    exec (.hostCompletionArrival id m e true) s = .next (s.macFailed fn fn) := by
  change execHostCompletionArrival id m e true s = _
  rw [execHostCompletionArrival, awaits_found hreads hid hgot (hdata ▸ rfl)]
  simp only [hfn, if_true]

end Completion

theorem fullFor_room {s : State} {r : HostRead} {id : Nat} (hroom : ∀ g : Folio, s.folio? r.folio = some g → s.fullFor g (toRead id) = false) :
    ((s.folio? r.folio).map fun g => s.fullFor g (toRead id)).getD false = false := by
  cases h : s.folio? r.folio with
  | none => rfl
  | some g => exact hroom g h

section Lands
variable {s : State} {r : HostRead} {id v : Nat} (hreads : s.hostReads = [r]) (hid : r.id = id) (hgot : r.got = none) (hdata : r.data = some v)
  (hroom : ∀ g : Folio, s.folio? r.folio = some g → s.fullFor g (toRead id) = false)
include hreads hid hgot hdata hroom

theorem hostCompletionArrival_lands {m : BitVec 8} {e : Bool} {fn : Nat} (hfn : ((s.folio? r.folio).map fun g => g.place.func).getD 0 = fn)
    (hsecure : s.insecure fn = false) : exec (.hostCompletionArrival id m e false) s = .next (if e then
      ({ s with hostReads := [{ r with got := some (v, if e then 0xFF else m.toNat) }] } : State).logError 2 fn
      else { s with hostReads := [{ r with got := some (v, if e then 0xFF else m.toNat) }] }) := by
  have hcame := hostCame_one hreads hid hdata (if e then 0xFF else m.toNat)
  change execHostCompletionArrival id m e false s = _
  rw [execHostCompletionArrival, awaits_found hreads hid hgot (hdata ▸ rfl)]
  simp only [hfn, hsecure, fullFor_room hroom, hcame, Bool.false_eq_true, if_false]

theorem externalResultArrival_lands (d : BitVec 512) :
    exec (.externalResultArrival id d 0) s = .next { s with hostReads := [{ r with got := some (v, 0) }] } := by
  change execExternalResultArrival id d 0 s = _
  rw [execExternalResultArrival, awaits_found hreads hid hgot (hdata ▸ rfl)]
  simp only [fullFor_room hroom, Bool.false_eq_true, if_false]
  exact congrArg Host.Outcome.next (hostCame_one hreads hid hdata 0)

end Lands

/-- A full landing buffer holds a completion back in its transport (R123). -/
theorem hostCompletionArrival_waits {s : State} {r : HostRead} {id : Nat} {g : Folio} {m : BitVec 8} {e : Bool} (hreads : s.hostReads = [r])
    (hid : r.id = id) (hgot : r.got = none) (hdata : r.data.isSome = true) (hg : s.folio? r.folio = some g)
    (hsecure : s.insecure g.place.func = false) (hfull : s.fullFor g (toRead id) = true) : exec (.hostCompletionArrival id m e false) s
      = .next { s with inputs := s.inputs ++ [⟨.hostCompletionArrival id m e false, true⟩] } := by
  change execHostCompletionArrival id m e false s = _
  rw [execHostCompletionArrival, awaits_found hreads hid hgot hdata]
  simp only [hg, Option.map_some, Option.getD_some, hsecure, hfull, if_true, Bool.false_eq_true, if_false]

section Far
variable {s : State} {f : Folio} {id : Nat} (hf : s.folio? (farFolio id) = some f) (hnew : ∀ x ∈ s.far, x.id ≠ id)
include hf

theorem addFar_unlinked (d p : Nat) (hlinks : s.linksTo f (farPkg id) = []) : s.addFar id d p = s := by
  simp only [State.addFar, hf, hlinks]
  rfl

include hnew

theorem addFar_linked (d p : Nat) (hlinks : s.linksTo f (farPkg id) ≠ []) : s.addFar id d p = { s with far := s.far ++ [⟨id, d, p⟩] } := by
  have hany : s.far.any (fun p => p.id == id) = false := by simpa using hnew
  simp only [State.addFar, hf, hany, List.isEmpty_eq_false_iff.2 hlinks]
  rfl

end Far

/-- The room in a folio's landing buffers depends on the reads and the contributions that have come, and on no other part of the machine. -/
theorem fullFor_congr {s t : State} (hreads : t.hostReads = s.hostReads) (hfar : t.far = s.far) : t.fullFor = s.fullFor := by
  unfold State.fullFor State.buffered
  rw [hreads, hfar]

/-- Whether a link carries a folio's contributions from a package (R508, R509). -/
def Link.serves (k : Link) (f : Folio) (p : Nat) : Prop :=
  k.v = true ∧ k.func = f.place.func ∧ k.job = f.launch.job ∧ k.peer.toNat = p

theorem serves_flit {k : Link} {f : Folio} {p : Nat} (h : k.serves f p) :
    (k.v && f.place.func == k.func && f.launch.job == k.job && k.peer.toNat == p) = true := by
  obtain ⟨hv, hfunc, hjob, hpeer⟩ := h
  simp [hv, hfunc, hjob, hpeer]

theorem linksTo_ne_nil {s : State} {f : Folio} {n p : Nat} (hn : n < 18) (h : (vget s.links n).serves f p) : s.linksTo f p ≠ [] := by
  obtain ⟨hv, hfunc, hjob, hpeer⟩ := h
  exact List.ne_nil_of_mem (a := n) (List.mem_filter.2 ⟨List.mem_range.2 hn, by simp [hv, hfunc, hjob, hpeer]⟩)

/-- A warning changes no link (R479). -/
theorem interrupt_links (s : State) (f v : Nat) : (s.interrupt f v).links = s.links := by
  rw [State.interrupt]
  split <;> rfl

theorem event_links (s : State) (f : Nat) (e : Event) : (s.event f e).links = s.links := by
  simp only [State.event]
  split
  · rfl
  · split
    · exact interrupt_links _ _ _
    · rfl

theorem foldl_links {α : Type} {g : State → α → State} (h : ∀ s x, (g s x).links = s.links) (l : List α) (s : State) :
    (l.foldl g s).links = s.links := by
  induction l generalizing s with
  | nil => rfl
  | cons a r ih => exact (ih (g s a)).trans (h s a)

theorem warning_links (s : State) (source num abs unc cor : Nat) (users : List Nat) :
    (s.warning source num abs unc cor users).links = s.links := by
  have hlast (t : State) : (if errCk t.dram.errcfg then users.foldl (fun s f => s.onFunc f FuncRegs.warned) t else t).links = t.links := by
    split
    · exact foldl_links (g := fun s f => s.onFunc f FuncRegs.warned) (fun _ _ => rfl) _ _
    · rfl
  simp only [State.warning]
  refine (hlast _).trans ?_
  split
  · exact (foldl_links (fun s f => event_links s f _) _ _).trans (event_links ..)
  · rfl

/-- A lost flit counts on its link (R478). -/
theorem countLinkUnc_link (s : State) {l : Nat} (hl : l < 18) :
    vget (s.countLinkUnc l).links l = { vget s.links l with unc := satCount (vget s.links l).unc } := by
  refine Eq.trans ?_ (State.link_onLink s l (fun c => { c with unc := satCount c.unc }) hl)
  simp only [State.countLinkUnc]
  split
  · rfl
  · rw [warning_links]

section Contribution
variable {s : State} {f : Folio} {id : Nat} (hf : s.folio? (farFolio id) = some f) (hroom : s.fullFor f (toMember id) = false)
include hf hroom

theorem externalResultArrival_far (hreads : s.hostReads = []) (d : BitVec 512) (p : BitVec 8) :
    exec (.externalResultArrival id d p) s = .next (s.addFar id d.toNat p.toNat) := by
  change execExternalResultArrival id d p s = _
  rw [execExternalResultArrival, hreads]
  simp only [List.find?_nil, hf, Option.map_some, Option.getD_some, hroom, Bool.false_eq_true, if_false]

variable {n : Nat} (hn : n < 18) (hstate : (vget s.links n).state = 2) (hserves : (vget s.links n).serves f (farPkg id))
include hn hstate hserves

theorem giferFlitReceive_clean (d : BitVec 512) : exec (.giferFlitReceive n .clean id d) s = .next (s.addFar id d.toNat 0) := by
  change execGiferFlitReceive n .clean id d s = _
  rw [execGiferFlitReceive, if_neg (by omega)]
  simp only [hf, serves_flit hserves, hroom, Bool.not_true, Bool.false_eq_true, if_false]
  rfl

theorem giferFlitReceive_lost (d : BitVec 512) : exec (.giferFlitReceive n .lost id d) s = .next ((s.countLinkUnc n).addFar id d.toNat 0xFF) := by
  have hquiet := countLinkUnc_quiet s n
  have hf' : (s.countLinkUnc n).folio? (farFolio id) = some f := by rw [State.folio?, hquiet.folios]; exact hf
  have hroom' : (s.countLinkUnc n).fullFor f (toMember id) = false := by rwa [fullFor_congr hquiet.hostReads hquiet.far]
  change execGiferFlitReceive n .lost id d s = _
  rw [execGiferFlitReceive, if_neg (by omega)]
  simp only [hf', serves_flit hserves, hroom', Bool.not_true, Bool.false_eq_true, if_false]
  rfl

end Contribution

theorem giferFlitReceive_down {s : State} {n : Nat} (h : (vget s.links n).state ≠ 2) (o : FlitOutcome) (id : Nat) (d : BitVec 512) :
    exec (.giferFlitReceive n o id d) s = .next s := by
  change execGiferFlitReceive n o id d s = _
  exact if_pos (.inr h)

theorem giferFlitReceive_other {s : State} {f : Folio} {n id : Nat} (hf : s.folio? (farFolio id) = some f)
    (h : (vget s.links n).peer.toNat ≠ farPkg id) (d : BitVec 512) : exec (.giferFlitReceive n .clean id d) s = .next s := by
  change execGiferFlitReceive n .clean id d s = _
  rw [execGiferFlitReceive]
  simp only [hf, beq_eq_false_iff_ne.2 h, Bool.and_false, Bool.not_false, if_true, ite_self]

/-! ### Services and links (R428, R429, R448, R508) -/

theorem svcTile_eq (d : Device) : d.svcTile = (d.svccmd.toNat / 2 ^ 8 % 2 ^ 7, d.svccmd.toNat % 2 ^ 5) := by
  simp only [Device.svcTile, bitsAt_eq_div_mod, Nat.pow_zero, Nat.div_one]

theorem svcChan_eq (d : Device) : d.svcChan = d.svccmd.toNat % 2 ^ 8 := by
  rw [Device.svcChan, bitsAt_eq_div_mod, Nat.pow_zero, Nat.div_one]

theorem svcLink_eq (d : Device) : d.svcLink = d.svccmd.toNat % 2 ^ 5 := by
  rw [Device.svcLink, bitsAt_eq_div_mod, Nat.pow_zero, Nat.div_one]

theorem svcEnd_links (s : State) (n : Nat) : (s.svcEnd n).links = s.links := rfl

section Services
variable {s : State} (hrun : s.dev.svcstat = 1)
include hrun

theorem retireTile_free (ht : s.dev.svcTile.1 < 72) (hfree : ∀ r ∈ s.footprints, r.has s.dev.svcTile = false) : exec .retireTile s
    = .next (({ s with dev := { s.dev with
      retired := if s.dev.retired.contains s.dev.svcTile then s.dev.retired else s.dev.retired ++ [s.dev.svcTile] } } : State).svcEnd 2) := by
  have hany : (s.footprints.any fun r => r.has s.dev.svcTile) = false := by simpa using hfree
  change execRetireTile s = _
  rw [execRetireTile]
  simp only [hrun, hany, Nat.not_le.2 ht, ne_eq, not_true_eq_false, Bool.false_eq_true, if_false]

theorem retireTile_held (ht : s.dev.svcTile.1 < 72) (hheld : ∃ r ∈ s.footprints, r.has s.dev.svcTile = true) :
    exec .retireTile s = .next s := by
  have hany : (s.footprints.any fun r => r.has s.dev.svcTile) = true := List.any_eq_true.2 hheld
  change execRetireTile s = _
  rw [execRetireTile]
  simp only [hrun, hany, Nat.not_le.2 ht, ne_eq, not_true_eq_false, if_true, if_false]

theorem restoreTile_defect (h : s.dev.svcTile ∈ s.dev.defects) : exec .restoreTile s = .next (s.svcEnd 3) := by
  change execRestoreTile s = _
  rw [execRestoreTile]
  simp [hrun, h]

theorem restoreTile_sound (h : s.dev.svcTile ∉ s.dev.defects) : exec .restoreTile s = .next (({ s with
    dev := { s.dev with retired := s.dev.retired.filter fun x => x != s.dev.svcTile }, arb := { s.arb with failed := [] } } : State).svcEnd 2) := by
  change execRestoreTile s = _
  rw [execRestoreTile]
  simp [hrun, h]

theorem retireChannel_eq : exec .retireChannel s = .next (if (vget s.dram.chans s.dev.svcChan).v then s.svcEnd 3
    else (s.onChan s.dev.svcChan fun c => { c with ret := true }).svcEnd 2) := by
  change execRetireChannel s = _
  rw [execRetireChannel]
  simp only [hrun, ne_eq, not_true_eq_false, if_false]
  split <;> rfl

section Link
variable (hl : s.dev.svcLink < 18) (hheld : s.linkHeld s.dev.svcLink = false)
include hl hheld

theorem retrainGiferLink_eq (hstate : (vget s.links s.dev.svcLink).state ≠ 3) : exec .retrainGiferLink s
    = .next ((({ s with freeCtr := s.freeCtr + 1 } : State).onLink s.dev.svcLink fun k =>
        { k with state := if Config.retrainOk s.freeCtr then 2 else 3 }).svcEnd (if Config.retrainOk s.freeCtr then 2 else 4)) := by
  change execRetrainGiferLink s = _
  rw [execRetrainGiferLink, if_neg (by simpa using hrun), if_neg (by omega), if_neg (by simp [hheld])]

theorem retireGiferLink_eq : exec .retireGiferLink s
    = .next ((s.onLink s.dev.svcLink fun k => { k with state := 3 }).svcEnd 2) := by
  change execRetireGiferLink s = _
  rw [execRetireGiferLink, if_neg (by simpa using hrun), if_neg (by omega), if_neg (by simp [hheld])]

end Link

end Services

theorem ideKmKeyProgram_eq {n : Nat} (hn : n ≤ 64) (s : State) : exec (.ideKmKeyProgram n true) s
    = .next { s with trust := { s.trust with ide := (s.trust.ide.filter fun x => x.1 != n) ++ [(n, true)] } } := by
  change execIdeKmKeyProgram n true s = _
  simp only [execIdeKmKeyProgram, hn, decide_true, Bool.and_true, if_true]

/-- Settles O58: each row's equation, with what its registers, lines, reads and links then hold. -/
theorem hostAccessComplete : Obligations.HostAccessComplete := by
  refine ⟨fun s f off l v hf hmem => ?register, fun s addr px py off n v haddr hn hpx hstore hsound => ⟨fun hholder => ?idle, fun f i hholder => ?held⟩,
    fun s func n m f hf hfunc => ?counter, fun s a pa hhdm => ?cxl, fun s r id v d hreads hid hgot hdata => ?completion,
    fun s r id g m e hreads hid hgot hdata hg hsecure hfull => hostCompletionArrival_waits hreads hid hgot hdata hg hsecure hfull,
    fun s f id d p hf hnew hreads hroom => ?far, fun s n => ⟨fun hn => ?ide, rfl⟩, fun s hrun => ?service, fun s l hl => ?down⟩
  case register =>
    obtain ⟨hoff, hfields⟩ := plainRegisters_hold (off, l) hmem
    exact ⟨registerWrite_insecure, ⟨_, registerWrite_failed hf, rfl, macFailed_ide _ _ _⟩, registerWrite_fields hf hoff hfields⟩
  case idle =>
    exact ⟨_, mapWrite_idle v haddr hn hpx hstore hsound hholder, idleMem_pokeIdle hstore, pokeIdle_folios ..⟩
  case held => exact mapWrite_held v haddr hn hpx hstore hsound hholder
  case counter =>
    exact ⟨_, profcntLowRead_eq hf hfunc, rfl, latched_found .., fun hn hm => readReg32_latched hn hm (latched_found ..), rfl⟩
  case cxl =>
    intro p
    refine ⟨cxlMemRead_sound hhdm, fun hreach => ⟨cxlMemRead_beyond hhdm hreach, cxlMemWrite_beyond hhdm hreach⟩,
      fun hreach hck hsecure d => ⟨?_, fun e hsome hpart hsound => ?_⟩, cxlMemWrite_insecure hhdm,
      fun e d => ⟨_, cxlMemWrite_failed hhdm e d, rfl, macFailed_ide _ _ _, macFailed_errlog ..⟩⟩
    · obtain ⟨tag, hchan⟩ := putLine_chan s p d.toNat false
      rw [chanNum_line, chanLine_line] at hchan
      refine ⟨_, cxlMemWrite_whole hhdm hreach hck hsecure d, ?_, ?_, fun x hx => putLine_cipher _ _ _ _ hx, rfl⟩
      · rw [putLine_plain, Nat.mod_eq_of_lt d.isLt]
      · rw [hchan]
        exact wrote_sound _ _ _ _
    · exact ⟨_, cxlMemWrite_part hhdm hreach hck hsecure d hsome hpart hsound, putLine_plain ..⟩
  case completion =>
    intro fn hroom
    refine ⟨fun m e hsecure => ⟨_, hostCompletionArrival_lands hreads hid hgot hdata hroom rfl hsecure, ?_⟩,
      fun m e => ⟨_, hostCompletionArrival_failed hreads hid hgot hdata rfl, rfl, macFailed_ide _ _ _⟩,
      ⟨_, externalResultArrival_lands hreads hid hgot hdata hroom d, rfl, rfl⟩⟩
    cases e with
    | false => exact ⟨rfl, rfl, rfl⟩
    | true => exact ⟨rfl, rfl, List.length_append⟩
  case far =>
    have hexternal := externalResultArrival_far hf hroom hreads d p
    refine ⟨fun hlinks => ?_, fun hlinks => ?_, fun n hn => ?_⟩
    · rw [addFar_linked hf hnew _ _ hlinks] at hexternal
      exact ⟨_, hexternal, rfl, rfl⟩
    · rwa [addFar_unlinked hf _ _ hlinks] at hexternal
    · intro k
      refine ⟨fun hstate hv hfunc hjob hpeer => ?_, fun hpeer => giferFlitReceive_other hf hpeer d, fun o hdown => giferFlitReceive_down hdown o id d⟩
      have hserves : k.serves f (farPkg id) := ⟨hv, hfunc, hjob, hpeer⟩
      have hquiet := countLinkUnc_quiet s n
      have hunc := countLinkUnc_link s hn
      have hf' : (s.countLinkUnc n).folio? (farFolio id) = some f := by rw [State.folio?, hquiet.folios]; exact hf
      have hclean := giferFlitReceive_clean hf hroom hn hstate hserves d
      have hlost := giferFlitReceive_lost hf hroom hn hstate hserves d
      rw [addFar_linked hf hnew _ _ (linksTo_ne_nil hn hserves)] at hclean
      rw [addFar_linked hf' (by rwa [hquiet.far]) _ _ (linksTo_ne_nil hn (by rw [hunc]; exact hserves)), hquiet.far] at hlost
      exact ⟨⟨_, hclean, rfl, rfl⟩, ⟨_, hlost, rfl, congrArg Link.unc hunc⟩⟩
  case ide =>
    refine ⟨_, ideKmKeyProgram_eq hn s, ?_, ?_, fun x hx hne => ?_⟩
    · simp
    · simp
    · exact List.mem_append_left _ (List.mem_filter.2 ⟨hx, by simpa using hne⟩)
  case service =>
    intro t ch l
    have ht : s.dev.svcTile = t := svcTile_eq s.dev
    have hch : s.dev.svcChan = ch := svcChan_eq s.dev
    have hl : s.dev.svcLink = l := svcLink_eq s.dev
    rw [← ht, ← hch, ← hl]
    refine ⟨fun hlt hfree => ⟨_, retireTile_free hrun hlt hfree, ?_, rfl, rfl⟩, retireTile_held hrun,
      fun hdefect => ⟨_, restoreTile_defect hrun hdefect, rfl, rfl⟩, fun hsound => ⟨_, restoreTile_sound hrun hsound, rfl, ?_, rfl⟩,
      ⟨_, retireChannel_eq hrun, ?_⟩, fun hlt hheld => ⟨fun hstate => ⟨_, retrainGiferLink_eq hrun hlt hheld hstate, ?_⟩,
        ⟨_, retireGiferLink_eq hrun hlt hheld, rfl, ?_⟩⟩⟩
    · show _ ∈ if _ then _ else _
      split
      next hin => simpa using hin
      next => exact List.mem_append_right _ (List.mem_singleton.2 rfl)
    · simp [State.svcEnd]
    · cases hv : (vget s.dram.chans s.dev.svcChan).v with
      | true => exact ⟨rfl, by simp [State.svcEnd]⟩
      | false =>
        have hchan := State.chan_onChan s s.dev.svcChan (fun c => { c with ret := true }) (by omega)
        exact ⟨rfl, (congrArg Chan.ret hchan).trans (Bool.or_true _).symm⟩
    · have hlink := State.link_onLink { s with freeCtr := s.freeCtr + 1 } s.dev.svcLink
        (fun k => { k with state := if Config.retrainOk s.freeCtr then 2 else 3 }) hlt
      have hend := congrArg Link.state hlink
      have hpad := congrArg Link.pad hlink
      refine ⟨?_, hpad⟩
      rw [svcEnd_links, hend]
      cases Config.retrainOk s.freeCtr with
      | true => exact .inl ⟨rfl, rfl⟩
      | false => exact .inr ⟨rfl, rfl⟩
    · exact congrArg Link.state (State.link_onLink s _ (fun k => { k with state := 3 }) hlt)
  case down =>
    exact ⟨_, rfl, congrArg Link.state (State.link_onLink _ _ _ hl), fun x hx => State.link_onLink_ne _ _ _ _ hx⟩

end Sys2Proof.Machine

/-! PROOFS of the family 'other': debug stops, snapshots and checkpoints (R482 to R496) -/

namespace Sys2Proof.Machine

/-! ### A folio but for its capture block -/

theorem idx_of_folio? {s : State} {n : Nat} {f : Folio} (h : s.folio? n = some f) : f.place.idx = n := by
  simpa using List.find?_some h

theorem folio?_congr {s t : State} {n : Nat} (h : t.folios = s.folios) : t.folio? n = s.folio? n := by
  rw [State.folio?, h]
  rfl

theorem folio?_setFolio {s : State} {n : Nat} {f g : Folio} (h : s.folio? n = some f) (hg : g.place.idx = n) :
    (s.setFolio g).folio? n = some g := by
  subst hg
  exact State.folio_onFolio s _ f (fun _ => g) h rfl

/-- A folio with another capture block. -/
def Folio.withCap (x : Folio) (c : Capture) : Folio := { x with cap := c }

/-- A placement index names a folio, whatever its capture block holds. -/
def State.shows (s : State) (n : Nat) (x : Folio) : Prop := ∃ c : Capture, s.folio? n = some (x.withCap c)

theorem shows_setFolio {s : State} {n : Nat} {f g : Folio} (hf : s.folio? n = some f) (hg : g.place.idx = n) : (s.setFolio g).shows n g :=
  ⟨g.cap, folio?_setFolio hf hg⟩

section Shows
variable {s t : State} {n : Nat} {x : Folio} (h : s.shows n x)
include h

theorem shows_of_folios (hfolios : t.folios = s.folios) : t.shows n x := by
  obtain ⟨c, hc⟩ := h
  exact ⟨c, by rw [State.folio?, hfolios]; exact hc⟩

theorem shows_hostMem (m : Memory) : ({ s with hostMem := m } : State).shows n x := shows_of_folios h rfl

theorem shows_onCap (g : Capture → Capture) : (s.onCap n g).shows n x := by
  obtain ⟨c, hc⟩ := h
  have hidx : (x.withCap c).place.idx = n := idx_of_folio? hc
  exact ⟨g c, State.folio_onFolio s n (x.withCap c) (fun x => x.withCap (g x.cap)) hc hidx⟩

end Shows

theorem endTrace_folios (s : State) (n : Nat) : (s.endTrace n).folios = s.folios := by
  rw [State.endTrace]
  split
  · split <;> rfl
  · rfl

theorem foldl_shows {α : Type} {g : State → α → State} {n : Nat} {x : Folio} (hg : ∀ s y, s.shows n x → (g s y).shows n x) (l : List α)
    {s : State} (h : s.shows n x) : (l.foldl g s).shows n x := by
  induction l generalizing s with
  | nil => exact h
  | cons a r ih => exact ih (hg s a h)

section Traced
variable {s : State} {n : Nat} {x : Folio} (h : s.shows n x)
include h

theorem shows_endTrace : (s.endTrace n).shows n x := shows_of_folios h (endTrace_folios _ _)

theorem shows_trigger (src cyc : Nat) : (s.trigger n src cyc).shows n x := by
  rw [State.trigger]
  split
  · exact h
  · split
    · exact shows_endTrace (shows_onCap h _)
    · exact h

theorem shows_trace (i cyc kind queue lane line w0 w1 : Nat) : (s.trace n i cyc kind queue lane line w0 w1).shows n x := by
  rw [State.trace]
  split
  · exact h
  · split
    · exact h
    · exact shows_endTrace (shows_onCap (shows_hostMem h _) _)

theorem shows_waitLog (i kind queue object waited : Nat) (setter : Nat × Nat × Nat) (still : Bool) (wake : Nat) :
    (s.waitLog n i kind queue object waited setter still wake).shows n x := by
  rw [State.waitLog]
  split
  · exact h
  · split
    · exact h
    · exact shows_onCap (shows_hostMem h _) _

theorem shows_openWaits {f : Folio} (hf : f.place.idx = n) (cyc i : Nat) (t : Tile) : (s.openWaits f cyc i t).shows n x := by
  rw [State.openWaits, hf]
  refine foldl_shows (fun s q hs => ?_) _ ?_
  · split
    · exact shows_waitLog hs ..
    · exact hs
  · split
    · exact shows_waitLog h ..
    · exact h

end Traced

/-! ### The drain area (R489, R490) -/

/-- A dump writes the drain area of a tile's SPAD, and nothing else of the tile. -/
def Tile.dumps (t t' : Tile) : Prop := ∃ m : Memory, t' = { t with stores := { t.stores with mem := m } }
  ∧ ∀ a : Nat, a < 0xF8000 ∨ 0x100000 ≤ a → m.read a = t.stores.mem.read a

theorem dumps_entry {t t' : Tile} (h : t.dumps t') {i v : Nat} (hi : i < 256) :
    t.dumps { t' with stores := { t'.stores with mem := t'.stores.mem.writeN (0xF8000 + 128 * i) 128 v } } := by
  obtain ⟨m, rfl, hm⟩ := h
  exact ⟨_, rfl, fun a ha => (Memory.read_writeN_of_outside _ _ _ _ _ (by omega)).trans (hm a ha)⟩

theorem drain_dumps (t : Tile) (l : List Nat) : t.dumps (t.drain l) := by
  have hfold (r : List (Nat × Nat)) (hr : ∀ p ∈ r, p.2 < 256) : ∀ t' : Tile, t.dumps t' → t.dumps (r.foldl (fun t p =>
      { t with stores := { t.stores with mem := t.stores.mem.writeN (0xF8000 + 128 * p.2) 128 p.1 } }) t') := by
    induction r with
    | nil => exact fun _ h => h
    | cons p r ih => exact fun t' h => ih (fun q hq => hr q (List.mem_cons_of_mem _ hq)) _ (dumps_entry h (hr p List.mem_cons_self))
  refine hfold _ (fun p hp => ?_) t ⟨t.stores.mem, rfl, fun _ _ => rfl⟩
  have hlt := List.snd_lt_of_mem_zipIdx hp
  have := List.length_take_le 256 l
  omega

theorem restoreItem_keeps (t : Tile) (n : Nat) (x : ItemRef) :
    (t.restoreItem n x).slices = t.slices ∧ (t.restoreItem n x).ctl = t.ctl ∧ (t.restoreItem n x).stores = t.stores := by
  cases x <;> exact ⟨rfl, rfl, rfl⟩

theorem restoreItems_keep (l : List (ItemRef × Nat)) (t : Tile) :
    (l.foldl (fun t x => t.restoreItem x.2 x.1) t).slices = t.slices ∧ (l.foldl (fun t x => t.restoreItem x.2 x.1) t).ctl = t.ctl
    ∧ (l.foldl (fun t x => t.restoreItem x.2 x.1) t).stores = t.stores := by
  induction l generalizing t with
  | nil => exact ⟨rfl, rfl, rfl⟩
  | cons x r ih =>
    obtain ⟨hslices, hctl, hstores⟩ := restoreItem_keeps t x.2 x.1
    obtain ⟨hslices', hctl', hstores'⟩ := ih (t.restoreItem x.2 x.1)
    exact ⟨hslices'.trans hslices, hctl'.trans hctl, hstores'.trans hstores⟩

theorem read_clear_inside (m : Memory) {a n x : Nat} (h : a ≤ x ∧ x < a + n) : (m.clear a n).read x = 0 := by
  refine Memory.read_absent _ _ fun c hc he => ?_
  have := (List.mem_filter.1 hc).2
  subst he
  simp [h.1, h.2] at this

theorem read_clear_outside (m : Memory) {a n x : Nat} (h : x < a ∨ a + n ≤ x) : (m.clear a n).read x = m.read x := by
  refine (Memory.read_filter _ _ _ fun b => ?_).trans (Memory.read_writeN_of_outside _ _ _ _ _ (by omega))
  simp only [Bool.not_eq_true', Bool.and_eq_false_iff, decide_eq_false_iff_not]
  omega

/-! ### Debug stops (R488 to R490) -/

/-- A folio that a debug stop has frozen, its in-flight items in its tiles' drain areas (R489). -/
def Folio.stoppedFrom (g f : Folio) (source : Nat) : Prop := g.freeze.debug = true ∧ g.dbg.state = 2 ∧ g.dbg.source = source ∧ g.cycle = f.cycle
  ∧ ∃ entries : Tile × Nat → List Nat, g.tiles = f.tiles.zipIdx.map fun p => { p.1.drain (entries p) with brkNow := none }

theorem debugStop_shows {s : State} {n : Nat} {f : Folio} (hf : s.folio? n = some f) (source : Nat) :
    ∃ g : Folio, g.stoppedFrom f source ∧ (s.debugStop n source).shows n g := by
  have hidx := idx_of_folio? hf
  unfold State.debugStop
  rw [hf]
  refine ⟨_, ?stopped, shows_trigger (foldl_shows (fun s p hs => shows_trace hs ..) _
    (foldl_shows (fun s p hs => shows_openWaits hs hidx _ _ _) _ (shows_of_folios (shows_setFolio hf ?idx) (event_quiet _ _ _).folios))) _ _⟩
  case idx => exact hidx
  case stopped => exact ⟨rfl, rfl, rfl, rfl, ⟨_, rfl⟩⟩

theorem stopped_tiles {f g : Folio} {source : Nat} (h : g.stoppedFrom f source) : g.tiles.length = f.tiles.length
    ∧ ∀ (j : Nat) (t : Tile), f.tiles[j]? = some t → ∃ t' : Tile, g.tiles[j]? = some t' ∧ t'.slices = t.slices ∧ t'.ctl = t.ctl
      ∧ t'.pend = t.pend ∧ t'.csr = t.csr ∧ ∀ a : Nat, a < 0xF8000 ∨ 0x100000 ≤ a → t'.byte a = t.byte a := by
  obtain ⟨-, -, -, -, entries, htiles⟩ := h
  rw [htiles]
  refine ⟨by simp, fun j t ht => ?_⟩
  obtain ⟨m, hdrain, hm⟩ := drain_dumps t (entries (t, j))
  refine ⟨{ t.drain (entries (t, j)) with brkNow := none }, by simp [ht], ?_⟩
  rw [hdrain]
  exact ⟨rfl, rfl, rfl, rfl, hm⟩

/-- A tile after a resume: its items have their data again, and its drain area is clear (R490). -/
def Tile.resumed (t : Tile) (l : List ItemRef) : Tile :=
  let t := l.zipIdx.foldl (fun t x => t.restoreItem x.2 x.1) t
  { t with stores := { t.stores with mem := t.stores.mem.clear 0xF8000 0x8000 } }

theorem resumed_keeps (t : Tile) (l : List ItemRef) : (t.resumed l).slices = t.slices ∧ (t.resumed l).ctl = t.ctl
    ∧ (∀ a : Nat, 0xF8000 ≤ a → a < 0x100000 → (t.resumed l).byte a = 0)
    ∧ ∀ a : Nat, a < 0xF8000 ∨ 0x100000 ≤ a → (t.resumed l).byte a = t.byte a := by
  obtain ⟨hslices, hctl, hstores⟩ := restoreItems_keep l.zipIdx t
  refine ⟨hslices, hctl, fun a hlo hhi => read_clear_inside _ (by omega), fun a ha => ?_⟩
  exact (read_clear_outside _ (by omega)).trans (congrArg (fun x : Stores => x.mem.read a) hstores)

section Debug
variable {s : State} {f : Folio} (hf : s.folio? s.cursor.folio = some f)
include hf

theorem debugStop_eq (hdebug : f.freeze.debug = false) : exec .debugStop s = .next (s.debugStop s.cursor.folio (f.dbg.stopReq.getD 1)) := by
  change execDebugStop s = _
  rw [execDebugStop, hf]
  simp only [hdebug, idx_of_folio? hf, Bool.false_eq_true, if_false]

/-- A resume puts its tiles' items back, and lets the folio run (R490). -/
theorem debugResume_eq (hdebug : f.freeze.debug = true) : exec .debugResume s = .next (s.setFolio { f with
    tiles := f.tiles.zipIdx.map fun p => p.1.resumed (f.dbg.items.getD p.2 [])
    signals := f.restoreSignals
    freeze := { f.freeze with debug := false }
    dbg := { f.dbg with items := [], state := if f.dbg.stopAt.isSome then 1 else 0, cnt := 0, ovf := false } }) := by
  change execDebugResume s = _
  rw [execDebugResume, hf]
  simp only [hdebug, Bool.not_true, Bool.false_eq_true, if_false]
  rfl

theorem snapshotFolio_eq : exec .snapshotFolio s = .next (s.snapshot f) := by
  change execSnapshotFolio s = _
  rw [execSnapshotFolio, hf]

theorem traceCaptureEnd_eq : exec .traceCaptureEnd s = .next ((s.onCap s.cursor.folio fun c => { c with done := true }).event 0
    (Event.plain 9 0 f.launch.job.toNat f.cap.written f.cap.trigAt)) := by
  change execTraceCaptureEnd s = _
  rw [execTraceCaptureEnd, hf]
  simp only [idx_of_folio? hf]

end Debug

theorem traceTriggerNow_eq {s : State} {n : Nat} {f : Folio} (hf : s.folio? n = some f) (htracing : f.cap.tracing = true) (hleft : f.cap.left = none) :
    exec (.traceTriggerNow n) s
      = .next ((s.onCap n fun c => { c with left := some (c.trtrig.toNat / 2 ^ 32), trigAt := f.cycle }).endTrace n) := by
  change execTraceTriggerNow n s = _
  rw [execTraceTriggerNow, hf]
  simp only [htracing, hleft, Option.isNone_none, Bool.and_true, if_true]

/-! ### Snapshots (R496) -/

theorem mem_snapshot {s : State} {f : Folio} {j : Nat} {t : Tile} (ht : f.tiles[j]? = some t) :
    (f.place.idx, j, t.prof) ∈ (s.snapshot f).dev.snaps :=
  List.mem_append_right _ (List.mem_map.2 ⟨(t, j), List.mk_mem_zipIdx_iff_getElem?.2 ht, rfl⟩)

theorem snapshot_keeps {s : State} {f : Folio} {x : Nat × Nat × Prof} (hx : x ∈ s.dev.snaps) (hne : x.1 ≠ f.place.idx) :
    x ∈ (s.snapshot f).dev.snaps :=
  List.mem_append_left _ (List.mem_filter.2 ⟨hx, by simpa using hne⟩)

/-- A folio's registers outlast the snapshots of others. -/
theorem foldl_snapshot_keeps {l : List Folio} {x : Nat × Nat × Prof} (hne : ∀ f ∈ l, x.1 ≠ f.place.idx) :
    ∀ {s : State}, x ∈ s.dev.snaps → x ∈ (l.foldl State.snapshot s).dev.snaps := by
  induction l with
  | nil => exact fun h => h
  | cons f r ih => exact fun h => ih (fun g hg => hne g (List.mem_cons_of_mem _ hg)) (snapshot_keeps h (hne f List.mem_cons_self))

theorem mem_foldl_snapshot {l : List Folio} (hnodup : (l.map fun f => f.place.idx).Nodup) {f : Folio} (hf : f ∈ l) {j : Nat} {t : Tile}
    (ht : f.tiles[j]? = some t) : ∀ s : State, (f.place.idx, j, t.prof) ∈ (l.foldl State.snapshot s).dev.snaps := by
  induction l with
  | nil => exact absurd hf List.not_mem_nil
  | cons g r ih =>
    obtain ⟨hg, hr⟩ := List.nodup_cons.1 hnodup
    intro s
    rcases List.mem_cons.1 hf with rfl | hf
    · exact foldl_snapshot_keeps (fun h hh he => hg (List.mem_map.2 ⟨h, hh, he.symm⟩)) (mem_snapshot ht)
    · exact ih hr hf _

/-! ### Checkpoints (R482 to R486) -/

theorem ckptArm_eq (s : State) : exec .ckptArm s = .next (s.onFunc s.cursor.func fun r => { r with
    ckarmed := if r.ckarmed.contains (r.ckcmd.extractLsb' 0 32) then r.ckarmed else r.ckarmed ++ [r.ckcmd.extractLsb' 0 32] }) := rfl

theorem ckptDisarm_eq (s : State) : exec .ckptDisarm s = .next (s.onFunc s.cursor.func fun r => { r with
    ckarmed := r.ckarmed.filter fun j => j != r.ckcmd.extractLsb' 0 32, ckwait := r.ckwait.filter fun j => j != r.ckcmd.extractLsb' 0 32 }) := rfl

/-- What a stop's end leaves of the machine: the memory of the device, and each function's checkpoint. -/
structure Unchecked (s t : State) : Prop where
  dram : t.dram = s.dram
  ckpt : ∀ n < 64, (t.func n).ckstate = (s.func n).ckstate ∧ (t.func n).ckpt = (s.func n).ckpt

theorem Unchecked.trans {s t u : State} (h : Unchecked s t) (k : Unchecked t u) : Unchecked s u :=
  ⟨k.dram.trans h.dram, fun n hn => ⟨(k.ckpt n hn).1.trans (h.ckpt n hn).1, (k.ckpt n hn).2.trans (h.ckpt n hn).2⟩⟩

theorem unchecked_of_funcs {s t : State} (hdram : t.dram = s.dram) (hfuncs : t.funcs = s.funcs) : Unchecked s t :=
  ⟨hdram, fun n _ => by rw [State.func, State.func, hfuncs]; exact ⟨rfl, rfl⟩⟩

theorem foldl_unchecked {α : Type} {g : State → α → State} (h : ∀ s x, Unchecked s (g s x)) (l : List α) (s : State) : Unchecked s (l.foldl g s) := by
  induction l generalizing s with
  | nil => exact unchecked_of_funcs rfl rfl
  | cons a r ih => exact (h s a).trans (ih _)

theorem unchecked_onFunc (s : State) (n : Nat) {h : FuncRegs → FuncRegs} (hkeep : ∀ r, (h r).ckstate = r.ckstate ∧ (h r).ckpt = r.ckpt) :
    Unchecked s (s.onFunc n h) := by
  refine ⟨rfl, fun x hx => ?_⟩
  by_cases he : x = n
  · subst he
    rw [State.func_onFunc _ _ _ hx]
    exact hkeep _
  · rw [State.func_onFunc_ne _ _ _ _ he]
    exact ⟨rfl, rfl⟩

theorem unchecked_onFolio (s : State) (n : Nat) (h : Folio → Folio) : Unchecked s (s.onFolio n h) := unchecked_of_funcs rfl rfl

theorem stopsActed_unchecked (s : State) (l : List Stop) (f : Folio) : Unchecked s ((s.stopsActed l).setFolio f) := unchecked_of_funcs rfl rfl

theorem interrupt_unchecked (s : State) (n v : Nat) : Unchecked s (s.interrupt n v) := by
  rw [State.interrupt]
  split
  · exact unchecked_onFunc _ _ fun _ => ⟨rfl, rfl⟩
  · exact unchecked_of_funcs rfl rfl

theorem memberDone_unchecked (s : State) (n d : Nat) (phase : BitVec 32) : Unchecked s (s.memberDone n d phase) := by
  simp only [State.memberDone]
  split
  · exact unchecked_of_funcs rfl rfl
  · split
    · exact unchecked_of_funcs rfl rfl
    · split <;> exact unchecked_of_funcs rfl rfl

theorem onQueue_unchecked (s : State) (q : Nat) (h : LaunchQueue → LaunchQueue) : Unchecked s (s.onQueue q h) := by
  rw [State.onQueue]
  split <;> exact unchecked_of_funcs rfl rfl

theorem flushDone_unchecked (q n : Nat) (s : State) : Unchecked s (s.flushDone q n) := by
  induction n generalizing s with
  | zero => exact unchecked_of_funcs rfl rfl
  | succ n ih =>
    rw [State.flushDone]
    simp only
    split
    · exact unchecked_of_funcs rfl rfl
    · refine Unchecked.trans ?_ (ih _)
      refine Unchecked.trans ?_ (memberDone_unchecked ..)
      have hwrite (c : Prop) [Decidable c] (t : State) (m : Memory) : Unchecked t (if c then { t with hostMem := m } else t) := by
        split <;> exact unchecked_of_funcs rfl rfl
      have hsignal (c : Prop) [Decidable c] (t : State) (f v : Nat) : Unchecked t (if c then t.interrupt f v else t) := by
        split
        · exact interrupt_unchecked ..
        · exact unchecked_of_funcs rfl rfl
      exact ((hwrite _ _ _).trans (onQueue_unchecked ..)).trans (hsignal _ _ _ _)

theorem complete_unchecked (s : State) (q n func : Nat) (d : Done) : Unchecked s (s.complete q n func d) := by
  rw [State.complete]
  simp only
  split
  · exact memberDone_unchecked ..
  · split
    · exact unchecked_of_funcs rfl rfl
    · exact (onQueue_unchecked ..).trans (flushDone_unchecked ..)

theorem stopOver_unchecked (s : State) (p : Place) (job : BitVec 32) (cycle : Nat) (stops : List Stop) :
    Unchecked s (s.stopOver p job cycle stops) := by
  rw [State.stopOver]
  refine foldl_unchecked (fun s x => ?_) _ _
  split
  · exact unchecked_of_funcs rfl rfl
  · exact complete_unchecked ..

theorem actStop_unchecked (s : State) (n : Nat) : Unchecked s (s.actStop n) := by
  rw [State.actStop]
  split
  · exact unchecked_of_funcs rfl rfl
  · split
    · exact unchecked_of_funcs rfl rfl
    · split
      · exact unchecked_of_funcs rfl rfl
      · exact ((stopsActed_unchecked _ _ _).trans (stopOver_unchecked ..)).trans (unchecked_onFolio _ _ _)

theorem ckThaw_unchecked (s : State) (g : Folio) : Unchecked s (s.ckThaw g) := by
  rw [State.ckThaw]
  split
  · exact unchecked_of_funcs rfl rfl
  · simp only
    split
    · exact (unchecked_onFolio _ _ _).trans (actStop_unchecked ..)
    · exact unchecked_onFolio _ _ _

/-- A function's registers once its checkpoint has been aborted (R486). -/
def FuncRegs.aborted (r : FuncRegs) : FuncRegs := { r with ckstate := 5, ckpt := none }

theorem ckptAbort_unchecked {s : State} (h : (s.func s.cursor.func).ckstate = 1 ∨ (s.func s.cursor.func).ckstate = 2) :
    ∃ s', exec .ckptAbort s = .next s' ∧ Unchecked (s.onFunc s.cursor.func FuncRegs.aborted) s' := by
  have hexec : exec .ckptAbort s = .next (if (s.func s.cursor.func).ckstate = 1 then
      ((s.onFunc s.cursor.func FuncRegs.aborted).folios.filter fun g => g.place.func == s.cursor.func).foldl State.ckThaw
        (s.onFunc s.cursor.func FuncRegs.aborted) else s.onFunc s.cursor.func FuncRegs.aborted) := by
    change execCkptAbort s = _
    rw [execCkptAbort, if_neg (by omega)]
    rfl
  refine ⟨_, hexec, ?_⟩
  split
  · exact foldl_unchecked ckThaw_unchecked _ _
  · exact unchecked_of_funcs rfl rfl

/-- A function's registers once its command's start has been taken up (R482). -/
def FuncRegs.taken (r : FuncRegs) : FuncRegs := { r with ckgo := none }

/-- A checkpoint that has just started (R484). -/
def Ckpt.start (job : BitVec 32) (l : Nat × Nat × List (Nat × Nat × Nat)) (g : List Seg) : Ckpt :=
  { job := job, shards := l.2.2, stride := l.1, manifest := l.2.1, folios := 0, gen := 0, saveDigest := [], segs := g, shard := 0, line := 0
    kept := [], acc := 0, digests := [] }

section Start
variable {s : State} {j : BitVec 32} (hgo : (s.func s.cursor.func).ckgo = some j)
include hgo

/-- The command's start is taken up before the shards are looked at. -/
theorem onFunc_taken : (s.onFunc s.cursor.func fun r => { r with ckgo := none, ckwait := if r.ckgo.isSome then r.ckwait else r.ckwait.tail })
    = s.onFunc s.cursor.func FuncRegs.taken := by
  simp only [State.onFunc, FuncRegs.taken, hgo, Option.isSome_some, if_true]

omit hgo in
theorem shardList_taken (n : Nat) (hn : n < 64) : (s.onFunc s.cursor.func FuncRegs.taken).shardList n = s.shardList n := by
  have hlist : ((s.onFunc s.cursor.func FuncRegs.taken).func n).cklist = (s.func n).cklist := by
    by_cases he : n = s.cursor.func
    · subst he
      rw [State.func_onFunc _ _ _ hn]
      rfl
    · rw [State.func_onFunc_ne _ _ _ _ he]
  simp only [State.shardList, hlist]
  rfl

theorem ckptStart_refused (hn : s.cursor.func < 64) (hshards : s.shardList s.cursor.func = none) : exec .ckptStart s
    = .next ((s.onFunc s.cursor.func FuncRegs.taken).onFunc s.cursor.func fun r => { r with ckstate := 6, ckdone := 0 }) := by
  change execCkptStart s = _
  rw [execCkptStart, onFunc_taken hgo]
  simp only [hgo, Option.some_or, shardList_taken _ hn, hshards]

theorem ckptStart_starts (hn : s.cursor.func < 64) {l : Nat × Nat × List (Nat × Nat × Nat)} {g : List Seg}
    (hshards : s.shardList s.cursor.func = some l)
    (hruns : (s.onFunc s.cursor.func FuncRegs.taken).allRuns s.cursor.func l.2.2 0 = (some g, s.onFunc s.cursor.func FuncRegs.taken))
    (hfree : ∀ x ∈ g, ∀ h ∈ s.folios, h.place.func = s.cursor.func → h.launch.job = j → ∀ p ∈ h.place.chans, p.2 ≠ chanNum x.dst) :
    exec .ckptStart s = .next ((((s.onFunc s.cursor.func FuncRegs.taken).onFunc s.cursor.func fun r =>
      { r with ckstate := 1, ckdone := 0, ckpt := some (Ckpt.start j l g) }).ckPend s.cursor.func j).ckRow s.cursor.func .ckptSnapshot) := by
  have hany : (g.any fun x => ((s.onFunc s.cursor.func FuncRegs.taken).jobFolios s.cursor.func j).any fun h =>
      h.place.chans.any fun c => c.2 == chanNum x.dst) = false := by
    simp only [List.any_eq_false]
    intro x hx
    simp only [List.any_eq_true, not_exists, not_and, beq_iff_eq]
    intro h hh p hp
    obtain ⟨hmem, hjob⟩ := List.mem_filter.1 hh
    simp only [Bool.and_eq_true, beq_iff_eq] at hjob
    exact hfree x hx h hmem hjob.1 hjob.2 p hp
  change execCkptStart s = _
  rw [execCkptStart, onFunc_taken hgo]
  simp only [hgo, Option.some_or, shardList_taken _ hn, hshards, hruns, hany, Bool.false_eq_true, if_false]
  rfl

end Start

/-- A checkpoint's stop pends on the running folios of its job (R484). -/
theorem ckPend_folio {s : State} {f n : Nat} {j : BitVec 32} {h : Folio} (hh : s.folios[n]? = some h) : (s.ckPend f j).folios[n]?
    = some (if h.place.func = f ∧ h.launch.job = j ∧ h.trapped = false ∧ h.held = false then { h with ckStop := true } else h) := by
  refine List.getElem?_map.trans ((congrArg _ hh).trans (congrArg some (if_congr ?_ rfl rfl)))
  simp only [Bool.and_eq_true, beq_iff_eq, Bool.not_eq_true', and_assoc]

/-- A function's registers once its checkpoint has saved its folios (R484, R485). -/
def FuncRegs.saved (r : FuncRegs) (folios gen : Nat) (digest : List Byte) : FuncRegs :=
  { r with ckstate := 2, ckpt := r.ckpt.map fun (k : Ckpt) => { k with folios := folios, gen := gen, saveDigest := digest } }

/-- A job's layout generation, which its manifest names (R450, R485). -/
def State.generation (s : State) (f : Nat) (job : BitVec 32) : Nat :=
  ((s.trust.jobs.find? fun x => x.func == f && x.job == job).map fun x => x.gen).getD 0

theorem savesDigest_one (x : Nat × Nat) : savesDigest [x] = toBytes 64 (shake256 x.1 x.2) := by
  simp [savesDigest]

theorem ckThaw_of_noStops {s : State} {g : Folio} (hstop : g.ckStop = true) (hstops : g.stops = []) : s.ckThaw g
    = s.onFolio g.place.idx fun (f : Folio) => { f with
      ckStop := false
      freeze := if f.freeze.preempt && f.stops.isEmpty then { f.freeze with preempt := false } else f.freeze } := by
  simp only [State.ckThaw, hstop, hstops, List.isEmpty_nil, Bool.not_true, Bool.and_false, Bool.false_eq_true, if_false]

/-- A folio that its checkpoint has saved goes on, and nothing but its function's checkpoint takes note (R484). -/
theorem saved_goes {u : State} {fn : Nat} {g : Folio} (hfn : fn < 64) (hfolio : u.folio? g.place.idx = some g) (hstop : g.ckStop = true)
    (hfrozen : g.freeze.preempt = true) (hstops : g.stops = []) (gen : Nat) (digest : List Byte) :
    ((u.onFunc fn fun r => r.saved 1 gen digest).ckThaw g).func fn = (u.func fn).saved 1 gen digest
    ∧ ((u.onFunc fn fun r => r.saved 1 gen digest).ckThaw g).folio? g.place.idx
      = some { g with ckStop := false, freeze := { g.freeze with preempt := false } }
    ∧ ((u.onFunc fn fun r => r.saved 1 gen digest).ckThaw g).hostMem = u.hostMem
    ∧ ((u.onFunc fn fun r => r.saved 1 gen digest).ckThaw g).dram = u.dram := by
  rw [ckThaw_of_noStops hstop hstops]
  refine ⟨State.func_onFunc u fn (fun r => r.saved 1 gen digest) hfn, ?_, rfl, rfl⟩
  refine (State.folio_onFolio (u.onFunc fn fun r => r.saved 1 gen digest) _ g _ hfolio rfl).trans ?_
  simp only [hfrozen, hstops, List.isEmpty_nil, Bool.and_true, if_true]

theorem ckptSnapshot_one {s : State} {k : Ckpt} {g : Folio} (hk : (s.func s.cursor.func).ckpt = some k)
    (hstate : (s.func s.cursor.func).ckstate = 1) (hfolios : s.ckFolios s.cursor.func k.job = [g]) (hpoint : g.atPoint = true) :
    exec .ckptSnapshot s = .next (((s.saveFolio g ((s.func s.cursor.func).cksave.toNat / 64 * 64)).onFunc s.cursor.func
      fun r => r.saved 1 ((s.saveFolio g ((s.func s.cursor.func).cksave.toNat / 64 * 64)).generation s.cursor.func k.job)
        (toBytes 64 (shake256 g.region.1 g.region.2))).ckThaw g) := by
  have hrecord : byRecord [g] = [g] := List.mergeSort_singleton g
  change execCkptSnapshot s = _
  rw [execCkptSnapshot]
  simp only [hk, hfolios, hstate, hrecord, List.all_cons, List.all_nil, hpoint, ne_eq, not_true_eq_false, Bool.and_true, Bool.not_true,
    Bool.false_eq_true, or_self, if_false, List.zipIdx_cons, List.zipIdx_nil, List.foldl_cons, List.foldl_nil, Nat.zero_mul, Nat.add_zero,
    List.map_cons, List.map_nil, savesDigest_one, List.length_singleton]
  rfl

theorem folio?_of_unique {s : State} {g : Folio} (hg : g ∈ s.folios) (hunique : ∀ h ∈ s.folios, h.place.idx = g.place.idx → h = g) :
    s.folio? g.place.idx = some g := by
  rw [State.folio?]
  cases h : s.folios.find? fun f => f.place.idx == g.place.idx with
  | none => exact absurd (List.find?_eq_none.1 h g hg) (by simp)
  | some x => rw [hunique x (List.mem_of_find?_eq_some h) (by simpa using List.find?_some h)]

section Copy
variable {s : State} {k : Ckpt} (hk : (s.func s.cursor.func).ckpt = some k) (hstate : (s.func s.cursor.func).ckstate = 2)
include hk hstate

/-- A shard whose lines have all been copied ends (R484). -/
theorem ckptCopyLine_ends (hnone : k.segs.find? (fun g => g.shard == k.shard && decide (g.base ≤ k.line) && decide (k.line < g.base + g.len / 64)) = none)
    (hmore : k.shard + 1 < k.shards.length) : exec .ckptCopyLine s = .next (s.onFunc s.cursor.func fun r => { r with
      ckdone := k.shard + 1
      ckpt := some { k with digests := k.digests ++ [toBytes 64 (shake256 k.acc (64 * k.line))], shard := k.shard + 1, line := 0, acc := 0 } }) := by
  change execCkptCopyLine s = _
  rw [execCkptCopyLine]
  simp only [hk, hstate, hnone, ne_eq, not_true_eq_false, if_false, State.ckShard]
  rw [if_neg (by omega)]

/-- A checkpoint's next line has been copied with a value. -/
def FuncRegs.copied (r : FuncRegs) (v : Nat) : FuncRegs :=
  { r with ckpt := r.ckpt.map fun (k : Ckpt) => { k with line := k.line + 1, acc := k.acc + v * 2 ^ (512 * k.line) } }

theorem ckptCopyLine_copies {g : Seg}
    (hsome : k.segs.find? (fun g => g.shard == k.shard && decide (g.base ≤ k.line) && decide (k.line < g.base + g.len / 64)) = some g)
    (hkept : k.kept.find? (fun x => x.1 == g.src + 64 * (k.line - g.base)) = none) (hsound : s.soundLine (g.src + 64 * (k.line - g.base))) :
    exec .ckptCopyLine s = .next ((s.putLine (g.dst + 64 * (k.line - g.base)) (s.plain (g.src + 64 * (k.line - g.base))) false).onFunc
      s.cursor.func fun r => r.copied (s.plain (g.src + 64 * (k.line - g.base)))) := by
  have hstops : s.lineStops (g.src + 64 * (k.line - g.base)) = false := by
    obtain ⟨-, hfails, hpoison, -⟩ := hsound
    simp [State.lineStops, hfails, hpoison]
  change execCkptCopyLine s = _
  rw [execCkptCopyLine]
  simp only [hk, hstate, hsome, hkept, ne_eq, not_true_eq_false, if_false, State.copyShardLine, hstops, hubRead_sound hsound,
    Bool.false_eq_true]
  rfl

end Copy

/-- A change of a function's registers that keeps its keys leaves what every line decrypts to. -/
theorem plain_onFunc (s : State) {n : Nat} (hn : n < 64) {h : FuncRegs → FuncRegs} (hkeep : ∀ r, (h r).keys = r.keys) (pa : Nat) :
    (s.onFunc n h).plain pa = s.plain pa := by
  have hkeys (x : Nat) : ((s.onFunc n h).func x).keys = (s.func x).keys := by
    by_cases he : x = n
    · subst he
      rw [State.func_onFunc _ _ _ hn]
      exact hkeep _
    · rw [State.func_onFunc_ne _ _ _ _ he]
  simp only [State.plain, State.lineKeys, hkeys]
  rfl

/-- Settles O59: each row's equation, with what it leaves of the folio, its tiles and its function's checkpoint. -/
theorem debugAndCheckpointComplete : Obligations.DebugAndCheckpointComplete := by
  refine ⟨fun s f hf => ?debug, fun s hnodup => ⟨_, rfl, fun f hf j t ht => mem_foldl_snapshot hnodup hf ht s⟩, fun s hfn => ?ckpt⟩
  case debug =>
    intro i stopped
    have hidx : f.place.idx = i := idx_of_folio? hf
    have hstopped (source : Nat) : stopped source (s.debugStop i source) := by
      obtain ⟨g, hg, c, hshow⟩ := debugStop_shows hf source
      obtain ⟨hlength, htiles⟩ := stopped_tiles hg
      obtain ⟨hdebug, hstate, hsource, hcycle, -⟩ := hg
      exact ⟨g.withCap c, hshow, hdebug, hstate, hsource, hcycle, hlength, htiles⟩
    have hcap (g : Capture → Capture) : (s.onCap i g).folio? i = some { f with cap := g f.cap } :=
      State.folio_onFolio s i f (fun x => { x with cap := g x.cap }) hf hidx
    refine ⟨fun hdebug => ⟨_, debugStop_eq hf hdebug, hstopped _⟩, ⟨_, rfl, hstopped 2⟩, fun hdebug => ?_,
      ⟨_, rfl, State.folio_onFolio s i f (fun f => { f with dbg := { f.dbg with brkArmed := true } }) hf hidx⟩,
      ⟨_, rfl, State.folio_onFolio s i f (fun f => { f with dbg := { f.dbg with brkArmed := false } }) hf hidx⟩, ?_,
      ⟨_, snapshotFolio_eq hf, fun j t ht => ?_, fun x hx hne => snapshot_keeps hx (hidx ▸ hne), rfl⟩,
      ⟨_, traceCaptureEnd_eq hf, ?_⟩, fun htracing hleft => ⟨_, traceTriggerNow_eq hf htracing hleft, ?_⟩⟩
    · refine ⟨_, debugResume_eq hf hdebug, _, folio?_setFolio hf hidx, rfl, rfl, rfl, rfl, fun j t ht => ?_⟩
      exact ⟨t.resumed (f.dbg.items.getD j []), by simp [ht], resumed_keeps _ _⟩
    · refine ⟨_, rfl, (State.folio_onFolio s i f _ hf hidx).trans ?_⟩
      simp only [decide_eq_true_eq]
    · rw [← hidx]
      exact mem_snapshot ht
    · exact (folio?_congr (event_quiet ..).folios).trans (hcap _)
    · exact (folio?_congr (endTrace_folios ..)).trans (hcap _)
  case ckpt =>
    intro fn r job
    refine ⟨⟨_, ckptArm_eq s, ?_, fun j hj => ?_⟩, ⟨_, ckptDisarm_eq s, ?_, fun j hj hne => ?_⟩, fun hstate => ?abort,
      fun j hgo hshards => ?refused, fun j l g hgo hshards => ?start, fun k g hk hstate hfolios hpoint hstops hheld hunique => ?snapshot,
      fun k hk hstate => ?copy⟩
    · rw [State.func_onFunc _ _ _ hfn]
      show job ∈ if r.ckarmed.contains job then r.ckarmed else r.ckarmed ++ [job]
      split
      next h => simpa using h
      next => exact List.mem_append_right _ (List.mem_singleton.2 rfl)
    · rw [State.func_onFunc _ _ _ hfn]
      show j ∈ if r.ckarmed.contains job then r.ckarmed else r.ckarmed ++ [job]
      split
      · exact hj
      · exact List.mem_append_left _ hj
    · rw [State.func_onFunc _ _ _ hfn]
      exact fun h => absurd (List.mem_filter.1 h).2 (by simp [job, r, fn])
    · rw [State.func_onFunc _ _ _ hfn]
      exact List.mem_filter.2 ⟨hj, by simpa using hne⟩
    case abort =>
      obtain ⟨s', hexec, hdram, hckpt⟩ := ckptAbort_unchecked hstate
      obtain ⟨hs, hk⟩ := hckpt fn hfn
      rw [State.func_onFunc _ _ _ hfn] at hs hk
      exact ⟨s', hexec, hs, hk, hdram⟩
    case refused =>
      refine ⟨_, ckptStart_refused hgo hfn hshards, ?_, rfl, rfl, rfl⟩
      rw [State.func_onFunc _ _ _ hfn]
    case start =>
      intro s₁ hruns hfree
      have hfunc := State.func_onFunc (s.onFunc fn FuncRegs.taken) fn (fun r =>
        { r with ckstate := 1, ckdone := 0, ckpt := some (Ckpt.start j l g) }) hfn
      refine ⟨_, ckptStart_starts hgo hfn hshards hruns hfree, congrArg FuncRegs.ckstate hfunc,
        congrArg (fun r : FuncRegs => r.ckpt.map fun (k : Ckpt) => (k.job, k.shards, k.segs, k.shard, k.line)) hfunc,
        List.length_map .., fun n h hh => ?_⟩
      exact ckPend_folio (s := (s.onFunc fn FuncRegs.taken).onFunc fn _) hh
    case snapshot =>
      intro u hfuncs hfolios'
      have hmem : g ∈ s.folios := (List.mem_filter.1 (List.mem_filter.1 (hfolios ▸ List.mem_singleton.2 rfl : g ∈ s.ckFolios fn k.job)).1).1
      have hfrozen : g.ckStop = true ∧ g.freeze.preempt = true := by simpa [Folio.atPoint, hheld] using hpoint
      have hfolio := (folio?_congr hfolios').trans (folio?_of_unique hmem hunique)
      obtain ⟨hregs, hgoes, hhost, hdram⟩ := saved_goes hfn hfolio hfrozen.1 hfrozen.2 hstops (u.generation fn k.job)
        (toBytes 64 (shake256 g.region.1 g.region.2))
      have hr : u.func fn = r := by rw [State.func, hfuncs]; rfl
      rw [hr] at hregs
      refine ⟨_, ckptSnapshot_one hk hstate hfolios hpoint, ?_, hhost, hdram, ?_, hgoes⟩
      · exact congrArg FuncRegs.ckstate hregs
      · refine (congrArg (fun r : FuncRegs => r.ckpt.map fun (k : Ckpt) => (k.folios, k.saveDigest)) hregs).trans ?_
        simp only [FuncRegs.saved, hk, Option.map_some]
    case copy =>
      intro here
      refine ⟨fun hnone hmore => ⟨_, ckptCopyLine_ends hk hstate hnone hmore, ?_, ?_⟩, fun g hsome => ?_⟩
      · rw [State.func_onFunc _ _ _ hfn]
      · rw [State.func_onFunc _ _ _ hfn]
      · intro src dst v hkept hsound
        refine ⟨_, ckptCopyLine_copies hk hstate hsome hkept hsound, ?_, fun x hx => putLine_cipher _ _ _ _ hx, ?_, rfl⟩
        · exact (plain_onFunc _ hfn (h := fun r => r.copied v) (fun _ => rfl) dst).trans (putLine_plain ..)
        · rw [State.func_onFunc _ _ _ hfn]
          show (r.copied v).ckpt = _
          simp only [FuncRegs.copied, hk, Option.map_some]

end Sys2Proof.Machine

/-! PROOFS of the family 'other': the canonical form of memories -/

namespace Sys2Proof.Machine

/-! ### A save region that spells a memory not in its canonical form (log 2) -/

/-- The tile that the region spells: its memory lists byte 0 twice. -/
def forgedTile : Tile := { Tile.cleared with stores := { Tile.cleared.stores with mem := [(0, 1), (0, 1)] } }

/-- The folio of function 0's job 7 that the region spells. -/
def forgedFolio : Folio :=
  folioAt { idx := 0, w := 1, h := 1, seam := 0, orient := 0, px0 := 0, py0 := 0, func := 0, chans := [] }
    { launchOf 0 0 0 with job := 7, save := 0x40100000 } [] [forgedTile]

/-- The records of the region, as bytes, and its header: magic number, W and H and the records' length. -/
def forgedRecord : FolioRec :=
  { tiles := [{ Tile.cleared.record with stores := forgedTile.stores }], launch := forgedFolio.launch, calendar := [], seams := []
    lastPen := 0, turns := [], barLast := forgedFolio.barLast, signals := [] }

def forgedRecords : List Byte := codecFolioRec.put forgedRecord

def forgedHeader : Nat := saveMagic + 2 ^ 192 + 2 ^ 200 + forgedRecords.length * 2 ^ 256

/-- Host memory: the resume record of job 7 at 0x1000, and the region at 0x100000. -/
def forgedMemory : Memory :=
  ((Memory.writeN [] 0x1000 64 (3 + 0xFFFF * 2 ^ 16 + 7 * 2 ^ 160)).writeN 0x100000 4096 forgedHeader).writeN 0x101000
    forgedRecords.length (ofBytes forgedRecords)

/-- A line of tables: entry 0 leads back to the same table, entry 1 maps a gigabyte of host memory. -/
def hostTable : Nat := 2 ^ 63 + (2 ^ 63 + 2 ^ 62 + 2 ^ 61 + 2 ^ 60 + 2 ^ 47) * 2 ^ 64

/-- The reset machine, brought up, with channel 0 leased to function 0. -/
def leasedState : State :=
  { State.reset with
    dev := { State.reset.dev with devstate := 5 }
    funcs := vset State.reset.funcs 0 { FuncRegs.reset 0 with keys := Vector.replicate 4 ⟨true, 7, 9⟩, ptroot := 1 }
    dram := { State.reset.dram with chans := vset State.reset.dram.chans 0 { Chan.reset with v := true } } }

/-- The same with its page tables at the bottom of the channel. -/
def tabledState : State := leasedState.seal 0 0 hostTable false

/-- The eviction of job 7's folio, and where its save region lies. -/
def forgedSave : Saved := ⟨0, 7, 0x40100000⟩

/-- The same with job 7's evicted folio in that region, whose resume record queue 0 has been granted. -/
def forgedState : State :=
  { tabledState with
    hostMem := forgedMemory
    saved := [forgedSave]
    queues := [{ LaunchQueue.zero 0 0 with base := 0x1000, log := 4, tail := 1, en := true, cbase := 0x3000 }]
    arb := { State.reset.arb with granted := some 0 }
    agenda := [.act ⟨0, 0, .sq, 0⟩ .resumeRecord] }

/-! ### What function 0 reads through its tables -/

/-- A line is read by the device's memory and the functions' keys alone. -/
theorem plain_congr {s t : State} (hdram : s.dram = t.dram) (hfuncs : s.funcs = t.funcs) (pa : Nat) : s.plain pa = t.plain pa := by
  simp only [State.plain, State.cipher, State.lineKeys, State.func, hdram, hfuncs]

theorem tagFails_congr {s t : State} (hdram : s.dram = t.dram) (hfuncs : s.funcs = t.funcs) (pa : Nat) : s.tagFails pa = t.tagFails pa := by
  simp only [State.tagFails, State.cipher, State.lineKeys, State.func, hdram, hfuncs]

theorem soundLine_congr {s t : State} (hdram : s.dram = t.dram) (hfuncs : s.funcs = t.funcs) {pa : Nat} (h : t.soundLine pa) : s.soundLine pa := by
  obtain ⟨hclear, hfails, hpoison, hsoft⟩ := h
  rw [State.soundLine, State.lineFails, tagFails_congr hdram hfuncs, hdram]
  exact ⟨hclear, hfails, hpoison, hsoft⟩

/-- Every address of a line names it. -/
theorem lineBits (pa : Nat) : bitsAt (pa / 64 * 64) 6 42 = bitsAt pa 6 42 := by
  rw [bitsAt_eq_div_mod, bitsAt_eq_div_mod]
  omega

theorem plain_line (s : State) (pa : Nat) : s.plain (pa / 64 * 64) = s.plain pa := by
  simp only [State.plain, State.cipher, State.lineKeys, lineStream, cipherBlock, chanNum_line, chanLine_line, lineBits,
    Nat.mul_div_cancel _ (show 0 < 64 by decide)]

theorem soundLine_line {s : State} {pa : Nat} (h : s.soundLine (pa / 64 * 64)) : s.soundLine pa := by
  have htag : s.tagFails (pa / 64 * 64) = s.tagFails pa := by
    simp only [State.tagFails, State.cipher, State.lineKeys, lineTag, chanNum_line, chanLine_line, lineBits,
      Nat.mul_div_cancel _ (show 0 < 64 by decide)]
  simpa only [State.soundLine, State.lineFails, htag, chanNum_line, chanLine_line] using h

/-- The folio that the region spells. -/
def regionFolio : Folio := forgedRecord.folio ⟨0, 1, 1, 0, 0, 0, 0, 0, []⟩ 0

theorem region_sound : folioOfRegion forgedHeader (toBytes forgedRecords.length (ofBytes forgedRecords)) = .sound regionFolio := by
  have hbytes : toBytes forgedRecords.length (ofBytes forgedRecords) = forgedRecords := by decide +kernel
  have hget : codecFolioRec.get forgedRecords = some (forgedRecord, []) := by
    simpa only [forgedRecords, List.append_nil] using codecFolioRec.law forgedRecord []
  have hheader : field forgedHeader 24 1 = 1 ∧ field forgedHeader 25 1 = 1 ∧ field forgedHeader 26 1 = 0 ∧ field forgedHeader 28 2 = 0
      ∧ field forgedHeader 16 8 = 0 := by decide +kernel
  obtain ⟨hw, hh, hseam, hchans, hcycle⟩ := hheader
  rw [folioOfRegion, hbytes, hget]
  simp only [hw, hh, hseam, hchans, hcycle]
  rfl

section Tables
variable {s : State} (hdram : s.dram = tabledState.dram) (hfuncs : s.funcs = tabledState.funcs)
include hdram

theorem leased_tables : s.leased 0 0 = true := by
  obtain ⟨tag, hchan⟩ := seal_chan leasedState 0 0 hostTable false
  have hleased : vget leasedState.dram.chans 0 = { Chan.reset with v := true } := vget_vset_eq _ _ _ (by decide)
  rw [State.leased, hdram]
  show ((vget tabledState.dram.chans (chanNum 0)).v && (vget tabledState.dram.chans (chanNum 0)).func == 0) = true
  rw [tabledState, hchan, show chanNum 0 = 0 from rfl, hleased]
  rfl

include hfuncs

/-- Every entry of the line is read as it was written (R435). -/
theorem tableLine_tables {pa : Nat} (hpa : pa < 64) : s.tableLine 0 pa = (some hostTable, s) := by
  obtain ⟨hplain, hsound⟩ := seal_line leasedState 0 0 hostTable false
  have hbase : pa / 64 * 64 = 0 := by omega
  have hvalue : s.plain pa = hostTable := by
    rw [← plain_line, hbase, plain_congr hdram hfuncs, tabledState, hplain]
    exact Nat.mod_eq_of_lt (by decide +kernel)
  have hread := hubRead_sound (soundLine_line (pa := pa) (hbase ▸ soundLine_congr hdram hfuncs (hsound (by decide +kernel) rfl)))
  have hnum : chanNum pa = 0 := by rw [← chanNum_line, hbase]; rfl
  have hbacked : backed pa = true := by rw [← backed_line, hbase]; rfl
  simp only [State.tableLine, hread, hnum, leased_tables hdram, hbacked, hvalue]
  rfl

theorem walk_tables {va : Nat} (hva : va = 0x40100000 ∨ va = 0x40101000) : s.walk 0 va = (.mapped ⟨2 ^ 47, 2, true, true⟩ 8, s) := by
  have hroot : (s.func 0).ptroot = 1 := by
    rw [State.func, hfuncs]
    decide +kernel
  have hfirst := tableLine_tables hdram hfuncs (pa := 0) (by decide)
  have hleaf := tableLine_tables hdram hfuncs (pa := 8) (by decide)
  have hindex : bitsAt va 43 11 = 0 ∧ bitsAt va 30 13 = 1 := by
    rcases hva with rfl | rfl <;> exact ⟨rfl, rfl⟩
  have htop : s.walk 0 va = s.walkFrom 0 va 0 0 4 := by
    have hbase : bitsAt (1#64).toNat 14 34 * 2 ^ 14 = 0 := by decide +kernel
    rw [State.walk, hroot]
    exact (if_neg (by decide +kernel)).trans (congrArg (fun table => s.walkFrom 0 va 0 table 4) hbase)
  have hnext : s.walkFrom 0 va 0 0 4 = s.walkFrom 0 va 1 0 3 := by
    rw [State.walkFrom]
    simp only [levelBits, hindex.1, hfirst, Nat.mul_zero, Nat.add_zero]
    rw [if_neg (by decide +kernel), if_neg (by decide +kernel), if_neg (by decide +kernel), if_neg (by decide +kernel), if_neg (by decide +kernel),
      show bitsAt (bitsAt hostTable (8 * (0 % 64)) 64) 8 40 * 256 = 0 by decide +kernel]
  rw [htop, hnext, State.walkFrom]
  simp only [levelBits, hindex.2, hleaf, Nat.mul_one, Nat.zero_add]
  rw [if_neg (by decide +kernel), if_neg (by decide +kernel), if_pos (by decide +kernel),
    show leafPage 1 (bitsAt hostTable (8 * (8 % 64)) 64) 8 = .mapped ⟨2 ^ 47, 2, true, true⟩ 8 by decide +kernel]

/-- A read within the gigabyte of host memory. -/
theorem readVirt_tables {va n fuel : Nat} (hva : va = 0x40100000 ∨ va = 0x40101000) (hn : 0 < n) (hfit : n ≤ 2 ^ 20) :
    s.readVirt 0 va n (fuel + 1) = (some (s.hostMem.readN (s.hostAddr 0 (2 ^ 47 + va % 2 ^ 30)) n), s) := by
  have hpage : min n (pageBytes 2 - va % pageBytes 2) = n := by
    rw [show pageBytes 2 = 2 ^ 30 from rfl]
    omega
  have hend (va' : Nat) : s.readVirt 0 va' 0 fuel = (some 0, s) := by cases fuel <;> rfl
  rw [State.readVirt, if_neg (by omega), walk_tables hdram hfuncs hva]
  simp only [hpage, State.readPage, if_true, Nat.sub_self, hend, Nat.zero_mul, Nat.add_zero]
  rfl

/-- The region that job 7's resume record reads. -/
theorem readSave_tables (hhost : s.hostMem = forgedMemory) : s.readSave 0 0x40100000 false = (.sound regionFolio, s) := by
  have haddr (off : Nat) (h : off < 2 ^ 30) : s.hostAddr 0 (2 ^ 47 + off) = off := by
    have hbase : (s.func 0).hostbase = 0 := by
      rw [State.func, hfuncs]
      decide +kernel
    rw [State.hostAddr, hbase]
    simp
    omega
  have hheader : forgedMemory.readN 0x100000 4096 = forgedHeader := by decide +kernel
  have hrecords : forgedMemory.readN 0x101000 forgedRecords.length = ofBytes forgedRecords := by decide +kernel
  have hlength : field forgedHeader 32 8 = forgedRecords.length ∧ 0 < forgedRecords.length ∧ forgedRecords.length ≤ 2 ^ 20 := by decide +kernel
  have hmagic : field forgedHeader 0 8 = saveMagic := by decide +kernel
  have hfirst : s.readVirt 0 0x40100000 4096 2 = (some forgedHeader, s) := by
    rw [readVirt_tables hdram hfuncs (.inl rfl) (by decide) (by decide), haddr _ (by decide), hhost,
      show 0x40100000 % 2 ^ 30 = 0x100000 from rfl, hheader]
  have hrest : s.readVirt 0 (0x40100000 + 4096) forgedRecords.length (forgedRecords.length / 65536 + 2)
      = (some (ofBytes forgedRecords), s) := by
    rw [readVirt_tables hdram hfuncs (.inr rfl) hlength.2.1 hlength.2.2, haddr _ (by decide), hhost,
      show (0x40100000 + 4096) % 2 ^ 30 = 0x101000 from rfl, hrecords]
  rw [State.readSave, hfirst]
  simp only [hmagic, hlength.1, hrest, ne_eq, not_true_eq_false, Bool.false_eq_true, false_and, if_false, region_sound]

end Tables

/-- The memories of every tile of every folio in which a step ends. -/
def memoriesAfter (s : State) : List Memory :=
  match step s with
  | .next s' => s'.folios.flatMap fun f => f.tiles.map fun t => t.stores.mem
  | _ => []


/-- The state in which the resume record runs, and the same once Signet knows its job. -/
def grantedState : State := { forgedState with agenda := [], cursor := ⟨0, 0, .sq, 0⟩ }

def knownState : State := grantedState.knowJob 0 7 none 0

/-- A step does the agenda's next slot (log 3). -/
theorem step_act {s : State} {c : Cursor} {i : Instr} {r : List Slot} (h : s.agenda = .act c i :: r) :
    step s = exec i { s with agenda := r, cursor := c } := by
  rw [step, State.runSlot, h]

theorem resumeRecord_eq (s : State) : exec .resumeRecord s = execResumeRecord s := rfl

theorem step_forgedState : step forgedState = execResumeRecord grantedState := (step_act rfl).trans (resumeRecord_eq _)

theorem knowJob_keeps (s : State) (f : Nat) (j : BitVec 32) (v : Option Nat) (n : Nat) : (s.knowJob f j v n).dram = s.dram
    ∧ (s.knowJob f j v n).funcs = s.funcs ∧ (s.knowJob f j v n).hostMem = s.hostMem ∧ (s.knowJob f j v n).saved = s.saved := by
  simp only [State.knowJob]
  split <;> exact ⟨rfl, rfl, rfl, rfl⟩

/-- A resume record brings back the one evicted folio of its job, where its region can be read (R175). -/
theorem toRevive_one {s : State} {f q n v : Nat} {x : Saved} {g : Folio} {va : Nat} (hevicted : s.evictedOf f (recJob v) = [x])
    (hva : x.save.toNat = va) (hread : s.readSave x.func va false = (.sound g, s)) : s.toRevive f q n v = (some [g], s) := by
  simp only [State.toRevive, hevicted, List.isEmpty_cons, Bool.not_false, if_true, State.readSaves, hva, hread]

theorem grantedState_reads : grantedState.dram = tabledState.dram ∧ grantedState.funcs = tabledState.funcs ∧ grantedState.hostMem = forgedMemory :=
  ⟨rfl, rfl, rfl⟩

theorem forgedSave_at : forgedSave.save.toNat = 0x40100000 := by decide +kernel

theorem toRevive_knownState (v : Nat) (hv : recJob v = 7) : knownState.toRevive 0 0 0 v = (some [regionFolio], knownState) := by
  obtain ⟨hdram, hfuncs, hhost, hsaved⟩ := knowJob_keeps grantedState 0 7 none 0
  obtain ⟨hdram', hfuncs', hhost'⟩ := grantedState_reads
  have hevicted : knownState.evictedOf 0 7 = [forgedSave] := by
    rw [State.evictedOf, knownState, hsaved]
    rfl
  have hread := readSave_tables (hdram.trans hdram') (hfuncs.trans hfuncs') (hhost.trans hhost')
  exact toRevive_one (hv ▸ hevicted) forgedSave_at hread

section Resume
variable {s s₁ s₂ : State} {q n v f : Nat} {back gs : List Folio}

/-- A granted resume record of a job without held folios enters the evicted ones that find their places (R175). -/
theorem resumeRecord_enters (hgranted : s.arb.granted = some q) (hhead : (s.queue q).head.toNat = n) (howner : (s.queue q).owner = f)
    (hrecord : s.record q n = v) (hgo : (!s.eligible q || s.malformed q v || recType v != 3) = false)
    (hheld : (s.knowJob f (recJob v) none 0).heldOf f (recJob v) = [])
    (hrevive : (s.knowJob f (recJob v) none 0).toRevive f q n v = (some back, s₁)) (hback : back ≠ [])
    (hreplace : s₁.replace f back = (.ok (some gs), s₂))
    (hck : (gs.foldl State.enter { s₂ with saved := s₂.saved.filter fun x => !(x.func == f && x.job == recJob v) }).ckHolds f (recJob v) = false) :
    execResumeRecord s = .next ((((gs.foldl State.enter { s₂ with saved := s₂.saved.filter fun x => !(x.func == f && x.job == recJob v) }).take q).answer
      q n v 5 0 (lastCycle gs) 0).granted q (s.level q)) := by
  have hempty : back.isEmpty = false := List.isEmpty_eq_false_iff.2 hback
  rw [execResumeRecord, hgranted]
  simp only [hhead, howner, hrecord, hgo, hheld, hrevive, hempty, hreplace, hck, Bool.false_eq_true, if_false, List.any_nil, List.isEmpty_nil,
    Bool.and_false, List.foldl_nil, List.nil_append]

end Resume

/-- Where the region's folio is placed again, and the state then. -/
def revived : List Folio :=
  match (knownState.replace 0 [regionFolio]).1 with
  | .ok (some l) => l
  | _ => []

def revivedState : State := (knownState.replace 0 [regionFolio]).2

theorem revived_length : revived.length = 1 := by decide +kernel

theorem replace_knownState : knownState.replace 0 [regionFolio] = (.ok (some revived), revivedState) := by
  have hlength := revived_length
  refine Prod.ext ?_ rfl
  unfold revived at hlength ⊢
  generalize (knownState.replace 0 [regionFolio]).1 = r at hlength
  match r with
  | .ok (some l) => rfl
  | .ok none | .error _ => exact absurd hlength Nat.zero_ne_one

theorem memoriesAfter_of_step {s s' : State} (h : step s = .next s') : memoriesAfter s
    = s'.folios.flatMap fun f => f.tiles.map fun t => t.stores.mem := by
  rw [memoriesAfter, h]

theorem memoriesAfter_forgedState : memoriesAfter forgedState = [[(0, 1), (0, 1)]] := by
  have hjob : recJob (grantedState.record 0 0) = 7 := by decide +kernel
  have hgo : (!grantedState.eligible 0 || grantedState.malformed 0 (grantedState.record 0 0) || recType (grantedState.record 0 0) != 3) = false := by
    decide +kernel
  have hheld : knownState.heldOf 0 7 = [] := by decide +kernel
  have hresume := resumeRecord_enters (s := grantedState) (q := 0) (n := 0) (f := 0) rfl (by decide +kernel) (by decide +kernel) rfl hgo
    (hjob ▸ hheld) (hjob ▸ toRevive_knownState _ hjob) (List.cons_ne_nil _ _) replace_knownState (by rw [hjob]; decide +kernel)
  exact (memoriesAfter_of_step (step_forgedState.trans hresume)).trans (by decide +kernel)

theorem forgedState_allWf : forgedState.allWf :=
  ⟨⟨Memory.writeN_wf (Memory.writeN_wf (Memory.writeN_wf Memory.nil_wf _ _ _) _ _ _) _ _ _, Memory.writeN_wf Memory.nil_wf _ _ _⟩,
    fun _ h => absurd h List.not_mem_nil, fun _ h => absurd h List.not_mem_nil⟩

/-- Every memory of a tile in a state whose memories are in their canonical form is in its own. -/
theorem wf_of_memoriesAfter {s s' : State} {m : Memory} (hstep : step s = .next s') (hwf : s'.allWf) (hm : m ∈ memoriesAfter s) :
    m.wf := by
  rw [memoriesAfter, hstep] at hm
  obtain ⟨f, hf, hm⟩ := List.mem_flatMap.1 hm
  obtain ⟨t, ht, rfl⟩ := List.mem_map.1 hm
  exact hwf.2.1 f hf t ht

/-- Refutes O45: a resume record restores a folio whose save region spells a memory that lists a byte twice; the records are read back as
they stand, and no digest of them is asked for where the folio was evicted. -/
theorem not_stepKeepsMemoryForm : ¬ Obligations.StepKeepsMemoryForm := by
  intro h
  have hmem : [(0, 1), (0, 1)] ∈ memoriesAfter forgedState := by
    rw [memoriesAfter_forgedState]
    exact List.mem_singleton_self _
  cases hstep : step forgedState with
  | next s' =>
    have hwf := wf_of_memoriesAfter hstep (h _ _ forgedState_allWf hstep) hmem
    exact absurd hwf (by decide)
  | fault | refused =>
    rw [memoriesAfter, hstep] at hmem
    exact absurd hmem List.not_mem_nil

end Sys2Proof.Machine
